-- ==== Sys2Proof/Word.lean ====
section
/-! DEFINITION. The word types of the S9: a byte, a 64-bit register, a 1,024-bit vector register and a 128-bit mask
(R69, R572), and sparse tables of plain data. -/

namespace Sys2Proof

/-- One byte of memory or of a message. -/
abbrev Byte := BitVec 8

/-- A scalar register, a device register, a Global Address (R69, R113, R572). -/
abbrev Word := BitVec 64

/-- A vector register: 128 byte lanes (R69). -/
abbrev VReg := BitVec 1024

/-- A mask register: one bit for each byte lane (R69). -/
abbrev MReg := BitVec 128

/-- A finite table keyed by numbers; a key it does not list has the value that the reader of the table names. -/
abbrev SMap (α : Type) := List (Nat × α)

end Sys2Proof
end

