-- ==== Sys2Proof/Syntax.lean ====
section
/-! DEFINITION. The commands of the S9: one constructor for each row of the table of operations and events, with the row's
operands, and the plain data that operands are made of. -/

namespace Sys2Proof

/-- A task slot of a Feature Core: FC 0-63 and slot 0-7 (R69). -/
structure Loc where
  fc : BitVec 6
  slot : BitVec 3
  deriving DecidableEq, Repr

/-- A register number of an instruction (R70). -/
abbrev Reg := BitVec 5

/-- The path by which an access reaches a device register (R575): BAR0 or BAR3 of a port, a management session, or a
register message of another package; and the BARs of a port that hold no register, BAR1 and BAR2 (R398). -/
inductive Path where
  | bar0 (port : BitVec 2)
  | bar3 (port : BitVec 2)
  | session
  | message (pkg : BitVec 12)
  | bar1 (port : BitVec 2)
  | bar2 (port : BitVec 2)
  deriving DecidableEq, Repr

/-- An access as it comes in: a read, a write of a value, or a write that is poisoned on its way. -/
inductive RegOp where
  | read
  | write (value : Word)
  | poisoned
  deriving DecidableEq, Repr

/-- The payload of a write TLP: its bytes, and whether it is poisoned. -/
structure Payload where
  bytes : List Byte
  poisoned : Bool
  deriving DecidableEq, Repr

/-- What meets a sweep: after how many elements an interrupt waits (R173), and the read of an element, by its number and the read's, that has an
uncorrectable error (R157). -/
structure SweepEvents where
  intr : Option Nat
  ecc : Option (Nat × Nat)
  deriving DecidableEq, Repr

/-- A sample that emerges: its number, and whether a read of it meets an uncorrectable error (R387, R380). -/
structure Sample where
  number : Nat
  ecc : Bool
  deriving DecidableEq, Repr

/-- A link whose turn it is to send, and what the receivers of its lanes say of their equalisation: one EQ_DONE bit and six bits of EQ_REQ for each
lane (R435). -/
structure LinkTurn where
  link : Nat
  eqDone : BitVec 8
  eqReq : BitVec 48
  deriving DecidableEq, Repr

/-- What a port trains to: the width as a power of 2, and the Max Payload Size that is configured, 128 << payload bytes (R396). -/
structure PortMode where
  widthLog2 : BitVec 4
  payload : BitVec 3
  deriving DecidableEq, Repr

/-- Where an arbiter stands (R241): at an HBM channel or at a Basin slice. -/
inductive ArbHome where
  | channel | slice
  deriving DecidableEq, Repr

/-- How many arbiters there are of a kind (R244). -/
def ArbHome.count : ArbHome → Nat
  | .channel => 96
  | .slice => 32

/-- The arbiter's number: channels 0 to 95, then slices 96 to 127 (R244). -/
def ArbHome.index : ArbHome → Nat → Nat
  | .channel, n => n
  | .slice, n => 96 + n

/-- The ring registers of a window (R414). -/
inductive RingReg where
  | recBase | ringCfg | cplBase
  deriving DecidableEq, Repr

/-- The registers of a table that R259 names. -/
inductive TableReg where
  | cfg | rows | base | salt | spare
  deriving DecidableEq, Repr

/-- A network message, its fields as in the flit header and in Table 1 of Sparline Network (R471). Of a message in
fragments, data holds the whole payload. -/
structure Msg where
  mtype : Byte
  src : BitVec 12
  dest : BitVec 12
  addr : Word
  lockTag : BitVec 32
  txn : BitVec 16
  len : Byte
  cause : Byte
  position : Word
  final : BitVec 16
  ctx : BitVec 32
  data : List Byte
  deriving DecidableEq, Repr

/-- A received codeword after the FEC decoder (R428, R429): the symbols it corrected, none when it is uncorrectable, and
the header and five slots of 128 bytes as they came, the slots of KIND 0 still scrambled. -/
structure Codeword where
  corrected : Option Nat
  kind : BitVec 2
  cwNum : Byte
  slots : List (List Byte)
  deriving DecidableEq, Repr

/-- A lane frame as received (R435): whether its marker came true, complemented or not at all, and its fields. -/
structure LaneFrame where
  marker : Option Bool
  lane : BitVec 3
  link : BitVec 5
  fkind : BitVec 2
  eqReq : BitVec 6
  skewOk : Bool
  deriving DecidableEq, Repr

/-- What an EPOCH_REPORT reports (R483, R559). -/
inductive Report where
  | linkDown (pkg : Nat) (link : Nat)
  | linkReady (pkg : Nat) (link : Nat)
  | join (pkg : Nat) (tag : BitVec 32)
  | request (pkg : Nat)
  deriving DecidableEq, Repr

/-- An epoch change as EPOCH_FREEZE announces it (R484): the epoch it makes, the kind, the fault set (packages lost and
links removed, each by its package and link number) and the join set (packages joined and links added). -/
structure EpochPlan where
  epoch : BitVec 32
  grow : Bool
  coord : BitVec 12
  lost : List Nat
  removed : List (Nat × Nat)
  joined : List Nat
  added : List (Nat × Nat)
  deriving DecidableEq, Repr

/-- How a memory read through a port fails (R419). -/
inductive ReadError where
  | unsupportedRequest | completerAbort | poisoned
  deriving DecidableEq, Repr

/-- A TAP instruction (R524). -/
inductive JtagOp where
  | idcode | bypass | other (code : Byte)
  deriving DecidableEq, Repr

/-- The commands: the rows of the table of operations and events. -/
inductive Instr where
  /-- ADD (R77). -/
  | add (l : Loc) (rd ra rb : Reg)
  /-- SUB (R77). -/
  | sub (l : Loc) (rd ra rb : Reg)
  /-- AND (R77). -/
  | and (l : Loc) (rd ra rb : Reg)
  /-- OR (R77). -/
  | or (l : Loc) (rd ra rb : Reg)
  /-- XOR (R77). -/
  | xor (l : Loc) (rd ra rb : Reg)
  /-- SLL (R77). -/
  | sll (l : Loc) (rd ra rb : Reg)
  /-- SRL (R77). -/
  | srl (l : Loc) (rd ra rb : Reg)
  /-- SRA (R77). -/
  | sra (l : Loc) (rd ra rb : Reg)
  /-- SLT (R77). -/
  | slt (l : Loc) (rd ra rb : Reg)
  /-- SLTU (R77). -/
  | sltu (l : Loc) (rd ra rb : Reg)
  /-- MUL (R77). -/
  | mul (l : Loc) (rd ra rb : Reg)
  /-- MULH (R77). -/
  | mulh (l : Loc) (rd ra rb : Reg)
  /-- MULHU (R77). -/
  | mulhu (l : Loc) (rd ra rb : Reg)
  /-- DIV (R77). -/
  | div (l : Loc) (rd ra rb : Reg)
  /-- DIVU (R77). -/
  | divu (l : Loc) (rd ra rb : Reg)
  /-- REM (R77). -/
  | rem (l : Loc) (rd ra rb : Reg)
  /-- REMU (R77). -/
  | remu (l : Loc) (rd ra rb : Reg)
  /-- MIN (R77). -/
  | min (l : Loc) (rd ra rb : Reg)
  /-- MAX (R77). -/
  | max (l : Loc) (rd ra rb : Reg)
  /-- MINU (R77). -/
  | minu (l : Loc) (rd ra rb : Reg)
  /-- MAXU (R77). -/
  | maxu (l : Loc) (rd ra rb : Reg)
  /-- CLZ (R77). -/
  | clz (l : Loc) (rd ra rb : Reg)
  /-- CTZ (R77). -/
  | ctz (l : Loc) (rd ra rb : Reg)
  /-- POPC (R77). -/
  | popc (l : Loc) (rd ra rb : Reg)
  /-- ADDI (R78). -/
  | addi (l : Loc) (rd ra : Reg) (imm : BitVec 16)
  /-- ANDI (R78). -/
  | andi (l : Loc) (rd ra : Reg) (imm : BitVec 16)
  /-- ORI (R78). -/
  | ori (l : Loc) (rd ra : Reg) (imm : BitVec 16)
  /-- XORI (R78). -/
  | xori (l : Loc) (rd ra : Reg) (imm : BitVec 16)
  /-- SLTI (R78). -/
  | slti (l : Loc) (rd ra : Reg) (imm : BitVec 16)
  /-- SLTIU (R78). -/
  | sltiu (l : Loc) (rd ra : Reg) (imm : BitVec 16)
  /-- SHI (R78). -/
  | shi (l : Loc) (rd ra : Reg) (imm : BitVec 16)
  /-- LUI (R78). -/
  | lui (l : Loc) (rd : Reg) (imm : BitVec 16)
  /-- LIS (R78). -/
  | lis (l : Loc) (rd ra : Reg) (imm : BitVec 16)
  /-- LB (R79). -/
  | lb (l : Loc) (rd ra : Reg) (imm : BitVec 16) (ecc : Bool)
  /-- LBU (R79). -/
  | lbu (l : Loc) (rd ra : Reg) (imm : BitVec 16) (ecc : Bool)
  /-- LH (R79). -/
  | lh (l : Loc) (rd ra : Reg) (imm : BitVec 16) (ecc : Bool)
  /-- LHU (R79). -/
  | lhu (l : Loc) (rd ra : Reg) (imm : BitVec 16) (ecc : Bool)
  /-- LW (R79). -/
  | lw (l : Loc) (rd ra : Reg) (imm : BitVec 16) (ecc : Bool)
  /-- LWU (R79). -/
  | lwu (l : Loc) (rd ra : Reg) (imm : BitVec 16) (ecc : Bool)
  /-- LD (R79). -/
  | ld (l : Loc) (rd ra : Reg) (imm : BitVec 16) (ecc : Bool)
  /-- SB (R79). -/
  | sb (l : Loc) (rs ra : Reg) (imm : BitVec 16)
  /-- SH (R79). -/
  | sh (l : Loc) (rs ra : Reg) (imm : BitVec 16)
  /-- SW (R79). -/
  | sw (l : Loc) (rs ra : Reg) (imm : BitVec 16)
  /-- SD (R79). -/
  | sd (l : Loc) (rs ra : Reg) (imm : BitVec 16)
  /-- BEQ (R80). -/
  | beq (l : Loc) (ra rb : Reg) (off : BitVec 16)
  /-- BNE (R80). -/
  | bne (l : Loc) (ra rb : Reg) (off : BitVec 16)
  /-- BLT (R80). -/
  | blt (l : Loc) (ra rb : Reg) (off : BitVec 16)
  /-- BGE (R80). -/
  | bge (l : Loc) (ra rb : Reg) (off : BitVec 16)
  /-- BLTU (R80). -/
  | bltu (l : Loc) (ra rb : Reg) (off : BitVec 16)
  /-- BGEU (R80). -/
  | bgeu (l : Loc) (ra rb : Reg) (off : BitVec 16)
  /-- JAL (R80). -/
  | jal (l : Loc) (rd : Reg) (off : BitVec 21)
  /-- JALR (R80). -/
  | jalr (l : Loc) (rd ra : Reg) (imm : BitVec 16)
  /-- LDRV (R81). -/
  | ldrv (l : Loc) (rd ra : Reg) (imm : BitVec 16) (ecc : Bool)
  /-- STCV (R81). -/
  | stcv (l : Loc) (rd ra rb : Reg)
  /-- FENCE_L (R136). -/
  | fenceL (l : Loc)
  /-- FENCE_G (R136). -/
  | fenceG (l : Loc)
  /-- FENCE_E (R82). -/
  | fenceE (l : Loc) (engines : BitVec 6)
  /-- TEND (R83). -/
  | tend (l : Loc)
  /-- YIELD (R83). -/
  | yield (l : Loc)
  /-- TRAP (R83). -/
  | trap (l : Loc) (code : BitVec 12)
  /-- ERET (R162). -/
  | eret (l : Loc)
  /-- MFS (R104). -/
  | mfs (l : Loc) (rd : Reg) (snum : BitVec 12)
  /-- MTS (R104). -/
  | mts (l : Loc) (rs : Reg) (snum : BitVec 12)
  /-- STR_CFG_WRITE (R214). -/
  | strCfgWrite (l : Loc) (stream : BitVec 6) (rs : Reg)
  /-- STR_RING_READ (R215). -/
  | strRingRead (l : Loc) (rd : Reg) (stream : BitVec 6)
  /-- STR_RING_HANDOVER (R215). -/
  | strRingHandover (l : Loc) (stream : BitVec 6) (rs : Reg)
  /-- ENQ (R85). -/
  | enq (l : Loc) (rd ra : Reg) (engine : BitVec 3) (block : Bool)
  /-- PFH (R86). -/
  | pfh (l : Loc) (hint ra : Reg) (imm : BitVec 16)
  /-- HQPUT (R87). -/
  | hqput (l : Loc) (rd ra : Reg) (nb : Bool) (queue : BitVec 7)
  /-- HQGET (R87). -/
  | hqget (l : Loc) (rd : Reg) (nb : Bool) (queue : BitVec 7)
  /-- SMSG (R88). -/
  | smsg (l : Loc) (ra : Reg)
  /-- VLD (R89). -/
  | vld (l : Loc) (vd ra rb : Reg) (mask : BitVec 3) (ty mode : BitVec 4) (ecc : Bool)
  /-- VST (R89). -/
  | vst (l : Loc) (vd ra rb : Reg) (mask : BitVec 3) (ty mode : BitVec 4)
  /-- VADD (R91). -/
  | vadd (l : Loc) (vd va vb : Reg) (mask : BitVec 3) (ty : BitVec 4)
  /-- VSUB (R91). -/
  | vsub (l : Loc) (vd va vb : Reg) (mask : BitVec 3) (ty : BitVec 4)
  /-- VMUL (R91). -/
  | vmul (l : Loc) (vd va vb : Reg) (mask : BitVec 3) (ty : BitVec 4)
  /-- VMULH (R91). -/
  | vmulh (l : Loc) (vd va vb : Reg) (mask : BitVec 3) (ty : BitVec 4)
  /-- VMIN (R91). -/
  | vmin (l : Loc) (vd va vb : Reg) (mask : BitVec 3) (ty : BitVec 4)
  /-- VMAX (R91). -/
  | vmax (l : Loc) (vd va vb : Reg) (mask : BitVec 3) (ty : BitVec 4)
  /-- VAND (R91). -/
  | vand (l : Loc) (vd va vb : Reg) (mask : BitVec 3) (ty : BitVec 4)
  /-- VOR (R91). -/
  | vor (l : Loc) (vd va vb : Reg) (mask : BitVec 3) (ty : BitVec 4)
  /-- VXOR (R91). -/
  | vxor (l : Loc) (vd va vb : Reg) (mask : BitVec 3) (ty : BitVec 4)
  /-- VSLL (R91). -/
  | vsll (l : Loc) (vd va vb : Reg) (mask : BitVec 3) (ty : BitVec 4)
  /-- VSRL (R91). -/
  | vsrl (l : Loc) (vd va vb : Reg) (mask : BitVec 3) (ty : BitVec 4)
  /-- VSRA (R91). -/
  | vsra (l : Loc) (vd va vb : Reg) (mask : BitVec 3) (ty : BitVec 4)
  /-- VADDS (R91). -/
  | vadds (l : Loc) (vd va vb : Reg) (mask : BitVec 3) (ty : BitVec 4)
  /-- VSUBS (R91). -/
  | vsubs (l : Loc) (vd va vb : Reg) (mask : BitVec 3) (ty : BitVec 4)
  /-- VABSD (R91). -/
  | vabsd (l : Loc) (vd va vb : Reg) (mask : BitVec 3) (ty : BitVec 4)
  /-- VSEL (R91). -/
  | vsel (l : Loc) (vd va vb : Reg) (mask : BitVec 3) (ty : BitVec 4)
  /-- VFADD (R92). -/
  | vfadd (l : Loc) (vd va vb : Reg) (mask : BitVec 3) (ty : BitVec 4)
  /-- VFSUB (R92). -/
  | vfsub (l : Loc) (vd va vb : Reg) (mask : BitVec 3) (ty : BitVec 4)
  /-- VFMUL (R92). -/
  | vfmul (l : Loc) (vd va vb : Reg) (mask : BitVec 3) (ty : BitVec 4)
  /-- VFDIV (R92). -/
  | vfdiv (l : Loc) (vd va vb : Reg) (mask : BitVec 3) (ty : BitVec 4)
  /-- VFMIN (R92). -/
  | vfmin (l : Loc) (vd va vb : Reg) (mask : BitVec 3) (ty : BitVec 4)
  /-- VFMAX (R92). -/
  | vfmax (l : Loc) (vd va vb : Reg) (mask : BitVec 3) (ty : BitVec 4)
  /-- VFMA (R92). -/
  | vfma (l : Loc) (vd va vb : Reg) (mask : BitVec 3) (ty : BitVec 4)
  /-- VFSQRT (R92). -/
  | vfsqrt (l : Loc) (vd va vb : Reg) (mask : BitVec 3) (ty : BitVec 4)
  /-- VFLOG1P (R92). -/
  | vflog1p (l : Loc) (vd va vb : Reg) (mask : BitVec 3) (ty : BitVec 4)
  /-- VFABS (R92). -/
  | vfabs (l : Loc) (vd va vb : Reg) (mask : BitVec 3) (ty : BitVec 4)
  /-- VFNEG (R92). -/
  | vfneg (l : Loc) (vd va vb : Reg) (mask : BitVec 3) (ty : BitVec 4)
  /-- VFCLAMP (R92). -/
  | vfclamp (l : Loc) (vd va vb : Reg) (mask : BitVec 3) (ty : BitVec 4)
  /-- VCMP_EQ (R96). -/
  | vcmpEq (l : Loc) (vd va vb : Reg) (mask : BitVec 3) (ty : BitVec 4)
  /-- VCMP_NE (R96). -/
  | vcmpNe (l : Loc) (vd va vb : Reg) (mask : BitVec 3) (ty : BitVec 4)
  /-- VCMP_LT (R96). -/
  | vcmpLt (l : Loc) (vd va vb : Reg) (mask : BitVec 3) (ty : BitVec 4)
  /-- VCMP_LE (R96). -/
  | vcmpLe (l : Loc) (vd va vb : Reg) (mask : BitVec 3) (ty : BitVec 4)
  /-- VCMP_GT (R96). -/
  | vcmpGt (l : Loc) (vd va vb : Reg) (mask : BitVec 3) (ty : BitVec 4)
  /-- VCMP_GE (R96). -/
  | vcmpGe (l : Loc) (vd va vb : Reg) (mask : BitVec 3) (ty : BitVec 4)
  /-- MAND (R97). -/
  | mand (l : Loc) (vd va vb : Reg) (mask : BitVec 3) (ty : BitVec 4)
  /-- MOR (R97). -/
  | mor (l : Loc) (vd va vb : Reg) (mask : BitVec 3) (ty : BitVec 4)
  /-- MXOR (R97). -/
  | mxor (l : Loc) (vd va vb : Reg) (mask : BitVec 3) (ty : BitVec 4)
  /-- MANDN (R97). -/
  | mandn (l : Loc) (vd va vb : Reg) (mask : BitVec 3) (ty : BitVec 4)
  /-- MNOT (R97). -/
  | mnot (l : Loc) (vd va vb : Reg) (mask : BitVec 3) (ty : BitVec 4)
  /-- MPOPC (R97). -/
  | mpopc (l : Loc) (vd va vb : Reg) (mask : BitVec 3) (ty : BitVec 4)
  /-- MFIRST (R97). -/
  | mfirst (l : Loc) (vd va vb : Reg) (mask : BitVec 3) (ty : BitVec 4)
  /-- VBCAST (R97). -/
  | vbcast (l : Loc) (vd va vb : Reg) (mask : BitVec 3) (ty : BitVec 4)
  /-- VEXT (R97). -/
  | vext (l : Loc) (vd va vb : Reg) (mask : BitVec 3) (ty : BitVec 4)
  /-- VINS (R97). -/
  | vins (l : Loc) (vd va vb : Reg) (mask : BitVec 3) (ty : BitVec 4)
  /-- VCOMPRESS (R97). -/
  | vcompress (l : Loc) (vd va vb : Reg) (mask : BitVec 3) (ty : BitVec 4)
  /-- VREDSUM (R97). -/
  | vredsum (l : Loc) (vd va vb : Reg) (mask : BitVec 3) (ty : BitVec 4)
  /-- VREDMIN (R97). -/
  | vredmin (l : Loc) (vd va vb : Reg) (mask : BitVec 3) (ty : BitVec 4)
  /-- VREDMAX (R97). -/
  | vredmax (l : Loc) (vd va vb : Reg) (mask : BitVec 3) (ty : BitVec 4)
  /-- VFREDSUM (R98). -/
  | vfredsum (l : Loc) (vd va vb : Reg) (mask : BitVec 3) (ty : BitVec 4)
  /-- VCVT (R99). -/
  | vcvt (l : Loc) (vd va : Reg) (srcTy : BitVec 4) (mask : BitVec 3) (ty part : BitVec 4)
  /-- VHIST (R100). -/
  | vhist (l : Loc) (ra rb rc : Reg) (ty : BitVec 4) (events : SweepEvents)
  /-- VSCAN (R100). -/
  | vscan (l : Loc) (ra rb rc : Reg) (ty : BitVec 4) (events : SweepEvents)
  /-- VFILL (R100). -/
  | vfill (l : Loc) (ra rb rc : Reg) (ty : BitVec 4) (intr : Option Nat)
  /-- BSRCH (R100). -/
  | bsrch (l : Loc) (ra rb rc : Reg) (ty : BitVec 4) (events : SweepEvents)
  /-- DOUBLE_FAULT_SERVICE (R168). -/
  | doubleFaultService (l : Loc)
  /-- PMC_WRAP (R171). -/
  | pmcWrap (fc : BitVec 6) (counter : BitVec 4)
  /-- PMC_WRAP_INTERRUPT (R172). -/
  | pmcWrapInterrupt (fc : BitVec 6)
  /-- KILL (R170). -/
  | kill (ctx : BitVec 17)
  /-- RESERVATION_TIMEOUT (R145). -/
  | reservationTimeout (l : Loc)
  /-- STORE_BUFFER_DRAIN (R132). -/
  | storeBufferDrain (fc : BitVec 6)
  /-- START_HANDLE_TAKE (R206). -/
  | startHandleTake (fc : BitVec 6) (engine : Nat)
  /-- ENGINE_COMMAND_COMPLETE (R137). -/
  | engineCommandComplete (fc : BitVec 6) (engine : Nat)
  /-- DONE_HANDLE_PUT (R207). -/
  | doneHandlePut (fc : BitVec 6) (engine : Nat)
  /-- STREAM (R218). -/
  | stream (fc : BitVec 6) (ecc : Bool)
  /-- A2A (R480). -/
  | a2a (fc : BitVec 6) (ecc : Bool)
  /-- BCAST (R481). -/
  | bcast (fc : BitVec 6) (ecc : Bool)
  /-- PELOTON_MEMBER_COMPLETE (R227). -/
  | pelotonMemberComplete (fc : BitVec 6)
  /-- LAYOUT_COPY (R191). -/
  | layoutCopy (fc : BitVec 6) (ecc : Bool)
  /-- GATHER (R261). -/
  | gather (fc : BitVec 6) (ecc : Bool)
  /-- BAG (R261). -/
  | bag (fc : BitVec 6) (ecc : Bool)
  /-- HASH (R287). -/
  | hash (fc : BitVec 6) (ecc : Bool)
  /-- HJU_CLEAR (R290). -/
  | hjuClear (fc : BitVec 6) (ecc : Bool)
  /-- BUILD (R291). -/
  | build (fc : BitVec 6) (ecc : Bool)
  /-- PROBE (R292). -/
  | probe (fc : BitVec 6) (ecc : Bool)
  /-- PARTITION (R294). -/
  | partition (fc : BitVec 6) (ecc : Bool)
  /-- SCATTER (R296). -/
  | scatter (fc : BitVec 6) (ecc : Bool)
  /-- SELECT (R314). -/
  | select (fc : BitVec 6) (ecc : Bool)
  /-- GEMM (R342). -/
  | gemm (fc : BitVec 6) (ecc : Bool)
  /-- VOXELISE (R333). -/
  | voxelise (fc : BitVec 6) (ecc : Bool)
  /-- RULES (R339). -/
  | rules (fc : BitVec 6) (ecc : Bool)
  /-- CONV (R343). -/
  | conv (fc : BitVec 6) (ecc : Bool)
  /-- BEV (R344). -/
  | bev (fc : BitVec 6) (ecc : Bool)
  /-- LABELS (R345). -/
  | labels (fc : BitVec 6) (ecc : Bool)
  /-- INTAKE_WRITE (R406). -/
  | intakeWrite (port : BitVec 2) (window : BitVec 6) (payload : Payload) (fullBe : Bool)
  /-- WINDOW_ATOMICOP (R404). -/
  | windowAtomicop (port : BitVec 2) (window : Option (BitVec 6))
  /-- ADMIT (R40). -/
  | admitRequest (ctx : BitVec 17)
  /-- CWB_TIMER (R407). -/
  | cwbTimer (port : BitVec 2) (window : BitVec 6)
  /-- STAGE_PLACE (R44). -/
  | stagePlace
  /-- STAGE_COMPLETE (R61). -/
  | stageComplete (ctx : BitVec 17) (stage : BitVec 12)
  /-- DEADLINE_EXPIRY (R46). -/
  | deadlineExpiry (ctx : BitVec 17)
  /-- DELIVERY_BEGIN (R411). -/
  | deliveryBegin (ctx : BitVec 17) (body : Option (List Byte))
  /-- COMPLETION_RECORD (R412). -/
  | completionRecord (port : BitVec 2) (window : BitVec 6)
  /-- IRQ_DELAY_EXPIRY (R417). -/
  | irqDelayExpiry (port : BitVec 2) (window : BitVec 6)
  /-- WINDOW_RESET (R408). -/
  | windowReset (port : BitVec 2) (window : BitVec 6)
  /-- RING_CONFIG_WRITE (R414). -/
  | ringConfigWrite (port : BitVec 2) (window : BitVec 6) (reg : RingReg) (value : Word)
  /-- PCIE_READ_COMPLETION (R419). -/
  | pcieReadCompletion (port : BitVec 2) (tag : BitVec 14) (data : List Byte) (error : Option ReadError)
  /-- PCIE_COMPLETION_TIMEOUT (R419). -/
  | pcieCompletionTimeout (port : BitVec 2) (tag : BitVec 14)
  /-- FUNCTION_LEVEL_RESET (R420). -/
  | functionLevelReset (port : BitVec 2)
  /-- PERST_ASSERT (R420). -/
  | perstAssert (port : BitVec 2)
  /-- PERST_RELEASE (R550). -/
  | perstRelease (port : BitVec 2)
  /-- PCIE_LINK_DOWN (R420). -/
  | pcieLinkDown (port : BitVec 2)
  /-- BUS_MASTER_DISABLE (R420). -/
  | busMasterDisable (port : BitVec 2)
  /-- BAR4_WRITE (R400). -/
  | bar4Write (port : BitVec 2) (offset : BitVec 28) (data : Payload)
  /-- BAR4_READ (R400). -/
  | bar4Read (port : BitVec 2) (offset : BitVec 28) (len : Nat)
  /-- BAR5_ACCESS (R401). -/
  | bar5Access (port : BitVec 2) (offset : BitVec 24) (size : Nat) (op : RegOp)
  /-- REGISTER_WRITE (R575). -/
  | registerWrite (path : Path) (offset : BitVec 24) (size : Nat) (op : RegOp)
  /-- QUIESCE (R53). -/
  | quiesce (value : Word)
  /-- RESUME (R65). -/
  | resume (value : Word)
  /-- DRAIN_TIMEOUT_EXPIRY (R54). -/
  | drainTimeoutExpiry
  /-- VERIFY (R47). -/
  | verify
  /-- VERIFY_DONE (R63). -/
  | verifyDone
  /-- STAGE_REG_WRITE (R66). -/
  | stageRegWrite (len : Bool) (value : Word)
  /-- SLOT_COMMIT (R48). -/
  | slotCommit (slot : BitVec 2)
  /-- SLOT_CLEAR (R48). -/
  | slotClear (slot : BitVec 2)
  /-- LOCK_REQ (R49). -/
  | lockReq
  /-- UNLOCK (R53). -/
  | unlock
  /-- SMSG_MESSAGE (R225). -/
  | smsgMessage (m : Msg)
  /-- SMSG_DELIVER (R225). -/
  | smsgDeliver (fc : BitVec 6)
  /-- POOL_IDLE_OFF (R505). -/
  | poolIdleOff (fc : BitVec 6)
  /-- ARB_GRANT (R241). -/
  | arbGrant (home : ArbHome) (n : Nat)
  /-- TABLE_REG_WRITE (R259). -/
  | tableRegWrite (table : BitVec 6) (reg : TableReg) (value : Word)
  /-- SLICE_RD (R264). -/
  | sliceRd (m : Msg) (ecc : Bool)
  /-- SLICE_DATA (R264). -/
  | sliceData (m : Msg)
  /-- MEAS_EPOCH_END (R271). -/
  | measEpochEnd
  /-- MIGRATION_COMMIT (R274). -/
  | migrationCommit
  /-- VOC_LOAD (R353). -/
  | vocLoad (slot : BitVec 4)
  /-- VOC_LOAD_DONE (R356). -/
  | vocLoadDone (slot : BitVec 4)
  /-- VOC_CLEAR (R370). -/
  | vocClear (slot : BitVec 4)
  /-- TEXT_JOB_START (R367). -/
  | textJobStart
  /-- TOKENISE (R364). -/
  | tokenise (lane : BitVec 2) (ecc : Bool)
  /-- DETOKENISE (R366). -/
  | detokenise (lane : BitVec 2) (ecc : Bool)
  /-- DECODE_SHAPE (R376). -/
  | decodeShape (ctx : BitVec 17) (stage : BitVec 12) (ecc : Bool)
  /-- DECODE_UNIT_START (R377). -/
  | decodeUnitStart
  /-- SAMPLE_EMERGE (R387). -/
  | sampleEmerge (ctx : BitVec 17) (stage : BitVec 12) (sample : Sample)
  /-- CODEWORD_SEND (R450). -/
  | codewordSend (turn : LinkTurn)
  /-- CODEWORD_RECEIVE (R429). -/
  | codewordReceive (link : Nat) (cw : Codeword)
  /-- REPLAY_TIMEOUT (R444). -/
  | replayTimeout (link : Nat)
  /-- LOSS_OF_LOCK (R429). -/
  | lossOfLock (link : Nat)
  /-- SIGNAL_DETECT (R432). -/
  | signalDetect (link : Nat)
  /-- LANE_FRAME (R435). -/
  | laneFrame (link : Nat) (lane : BitVec 3) (frame : LaneFrame)
  /-- TRAINING_SET (R436). -/
  | trainingSet (link : Nat) (set : List Byte)
  /-- POLL_TIMEOUT (R433). -/
  | pollTimeout (link : Nat)
  /-- EQ_TIMEOUT (R433). -/
  | eqTimeout (link : Nat)
  /-- CONFIG_TIMEOUT (R433). -/
  | configTimeout (link : Nat)
  /-- RETRAIN_TIMEOUT (R432). -/
  | retrainTimeout (link : Nat)
  /-- LINK_TEST (R452). -/
  | linkTest (link : Nat)
  /-- LINK_TEST_DONE (R452). -/
  | linkTestDone (link : Nat)
  /-- LINK_RETRAIN (R434). -/
  | linkRetrain (link : Nat)
  /-- LINK_DISABLE (R454). -/
  | linkDisable (link : Nat)
  /-- LINK_ENABLE (R432). -/
  | linkEnable (link : Nat)
  /-- WAYPOINT_REINJECT (R469). -/
  | waypointReinject (m : Msg)
  /-- RD (R472). -/
  | rd (m : Msg)
  /-- WR (R472). -/
  | wr (m : Msg)
  /-- RSV_RD (R472). -/
  | rsvRd (m : Msg)
  /-- STC (R472). -/
  | stc (m : Msg)
  /-- PFH_MESSAGE (R472). -/
  | pfhMessage (m : Msg)
  /-- RD_DATA (R472). -/
  | rdData (m : Msg)
  /-- WR_ACK (R472). -/
  | wrAck (m : Msg)
  /-- RSV_RESULT (R472). -/
  | rsvResult (m : Msg)
  /-- SM_ACK (R225). -/
  | smAck (m : Msg)
  /-- REFUSE (R473). -/
  | refuse (m : Msg)
  /-- REMOTE_TIMEOUT (R470). -/
  | remoteTimeout (fc : BitVec 6) (txn : BitVec 10)
  /-- CONTRIB (R474). -/
  | contrib (m : Msg)
  /-- HIST (R474). -/
  | hist (m : Msg)
  /-- JOIN (R475). -/
  | join (m : Msg)
  /-- RESULT (R475). -/
  | result (m : Msg)
  /-- A2A_COUNT (R480). -/
  | a2aCount (m : Msg)
  /-- A2A_OFFSET (R480). -/
  | a2aOffset (m : Msg)
  /-- BULK_WR (R480). -/
  | bulkWr (m : Msg)
  /-- BCAST_DATA (R481). -/
  | bcastData (m : Msg)
  /-- MREG_RD (R472). -/
  | mregRd (m : Msg)
  /-- MREG_WR (R472). -/
  | mregWr (m : Msg)
  /-- MREG_DATA (R472). -/
  | mregData (m : Msg)
  /-- EPOCH_REPORT (R483). -/
  | epochReport (link : Nat) (report : Report)
  /-- EPOCH_FREEZE (R484). -/
  | epochFreeze (plan : EpochPlan)
  /-- DRAIN_QUIET (R484). -/
  | drainQuiet
  /-- EPOCH_DRAINED (R484). -/
  | epochDrained (pkg : BitVec 12)
  /-- EPOCH_COMMIT (R485). -/
  | epochCommit (epoch : BitVec 32) (tide : Word)
  /-- EPOCH_RESUME (R484). -/
  | epochResume
  /-- COLLECT_EXPIRY (R484). -/
  | collectExpiry
  /-- FREEZE_LIMIT_EXPIRY (R483). -/
  | freezeLimitExpiry (pkg : BitVec 12)
  /-- COORDINATOR_FAILOVER (R491). -/
  | coordinatorFailover
  /-- NET_CMD_EPOCH (R483). -/
  | netCmdEpoch
  /-- PWR_REQ_RUN (R507). -/
  | pwrReqRun (domain : Nat)
  /-- PWR_REQ_FREEWHEEL (R503). -/
  | pwrReqFreewheel (domain : Nat)
  /-- PWR_REQ_OFF (R501). -/
  | pwrReqOff (domain : Nat)
  /-- POWER_TRANSITION_BEGIN (R503). -/
  | powerTransitionBegin (domain : Nat)
  /-- POWER_TRANSITION_DONE (R507). -/
  | powerTransitionDone (domain : Nat)
  /-- SELFTEST_DONE (R508). -/
  | selftestDone (fc : BitVec 6) (pass : Bool)
  /-- FW_IDLE_EXPIRY (R512). -/
  | fwIdleExpiry (fc : BitVec 6)
  /-- OFF_IDLE_EXPIRY (R512). -/
  | offIdleExpiry (fc : BitVec 6)
  /-- FREQ_CHANGE_DONE (R498). -/
  | freqChangeDone (fc : BitVec 6)
  /-- THERMAL_SAMPLE (R509). -/
  | thermalSample (temps : List Int)
  /-- POWER_CAP_SAMPLE (R510). -/
  | powerCapSample (watts : BitVec 16)
  /-- THERMTRIP (R599). -/
  | thermtrip (sensor : Nat)
  /-- SENSOR_SAMPLE_TEMP (R525). -/
  | sensorSampleTemp (temps : List Int)
  /-- SENSOR_SAMPLE_RAIL (R525). -/
  | sensorSampleRail (volts : List Nat) (currents : List Nat)
  /-- RAIL_POLL (R523). -/
  | railPoll (readings : List (Nat × Nat))
  /-- RAIL_FAULT (R523). -/
  | railFault (rail : Nat) (statusWord : BitVec 16)
  /-- LOG_COPY (R528). -/
  | logCopy
  /-- LOG_RD (R530). -/
  | logRd (seq : Word)
  /-- LOG_RD_DONE (R530). -/
  | logRdDone
  /-- MC_START (R529). -/
  | mcStart
  /-- MGMT_REG_READ (R521). -/
  | mgmtRegRead (offset : Word) (payload : List Byte)
  /-- MGMT_REG_WRITE (R521). -/
  | mgmtRegWrite (offset : Word) (payload : List Byte)
  /-- MGMT_HBM_WRITE (R521). -/
  | mgmtHbmWrite (offset : Word) (payload : List Byte)
  /-- I3C_SUMMARY_READ (R522). -/
  | i3cSummaryRead (count : Nat)
  /-- I3C_SET_POINTER (R522). -/
  | i3cSetPointer (pointer : Byte)
  /-- I3C_THROTTLE (R522). -/
  | i3cThrottle
  /-- I3C_MC_RESTART (R522). -/
  | i3cMcRestart
  /-- SMBUS_BLOCK_READ (R522). -/
  | smbusBlockRead
  /-- JTAG_INSTRUCTION (R524). -/
  | jtagInstruction (instruction : JtagOp)
  /-- FW_INSTALL (R537). -/
  | fwInstall
  /-- FW_INSTALL_DONE (R537). -/
  | fwInstallDone
  /-- FW_ACTIVATE (R537). -/
  | fwActivate
  /-- FW_COMMIT (R537). -/
  | fwCommit
  /-- FW_REVERT (R537). -/
  | fwRevert
  /-- CFG_APPLY (R534). -/
  | cfgApply
  /-- CFG_APPLY_DONE (R534). -/
  | cfgApplyDone (nonce : Word)
  /-- POR_RISE (R549). -/
  | porRise (bringupN : Bool)
  /-- POR_FALL (R566). -/
  | porFall
  /-- RAIL_POWER_GOOD (R547). -/
  | railPowerGood (rail : Nat)
  /-- RAIL_ENABLE_TIMEOUT (R551). -/
  | railEnableTimeout (rail : Nat)
  /-- HBM_TRAINING_DONE (R549). -/
  | hbmTrainingDone
  /-- HBM_ZERO_FILL_DONE (R552). -/
  | hbmZeroFillDone
  /-- WARM_RESTART (R563). -/
  | warmRestart
  /-- REFCLK25_LOSS (R603). -/
  | refclk25Loss
  /-- SPARLINE_REFCLK_LOSS (R604). -/
  | sparlineRefclkLoss (clockB : Bool)
  /-- STALLED_DESCRIPTOR_DEADLINE (R41). -/
  | stalledDescriptorDeadline (port : BitVec 2) (window : BitVec 6)
  /-- SLOT_COMMIT_DONE (R48). -/
  | slotCommitDone
  /-- ILLEGAL_WORD (R75). -/
  | illegalWord (l : Loc) (word : BitVec 32)
  /-- MSIX_VECTOR_UNMASK (R416). -/
  | msixVectorUnmask (port : BitVec 2) (vector : BitVec 11) (addr : Word) (data : BitVec 32)
  /-- PCIE_LINK_UP (R396). -/
  | pcieLinkUp (port : BitVec 2) (rate : BitVec 4) (mode : PortMode)
  /-- MGMT_SESSION_OPEN (R520). -/
  | mgmtSessionOpen (keySlot : BitVec 2) (authentic : Bool) (reason : Byte)
  /-- MC_WATCHDOG (R527). -/
  | mcWatchdog
  /-- FW_COMMIT_DONE (R537). -/
  | fwCommitDone
  /-- AON_IO_SUPPLY_LOSS (R548). -/
  | aonIoSupplyLoss
  deriving DecidableEq, Repr

end Sys2Proof
end

