-- ==== Sys2Proof/WellFormed.lean ====
section
/-! DEFINITION. Which commands are well formed: those whose operands name units that the package has, and data that a transfer can carry. -/

namespace Sys2Proof

/-- Whether a command's operands name links (R426), engines (R84), power domains (R501), rails (R547), temperature sensors, monitors and
currents (R525), and arbiters (R241) that the package has, carry at most a TLP's payload (R406), name a rate and width that a port can
train at (R396), and give a codeword its five slots with at most 15 corrected symbols (R428, R429) and a training set its 128 bytes
(R436). -/
def Instr.wf (i : Instr) : Bool :=
  match i with
  | .startHandleTake _ engine => decide (engine < 6)
  | .engineCommandComplete _ engine => decide (engine < 6)
  | .doneHandlePut _ engine => decide (engine < 6)
  | .intakeWrite _ _ payload _ => decide (payload.bytes.length ≤ 4096)
  | .pcieReadCompletion _ _ data _ => decide (data.length ≤ 4096)
  | .bar4Write _ offset data => decide (data.bytes.length ≤ 4096 ∧ offset.toNat + data.bytes.length ≤ 2 ^ 28)
  | .bar4Read _ offset len => decide (1 ≤ len ∧ len ≤ 4096 ∧ offset.toNat + len ≤ 2 ^ 28)
  | .arbGrant home n => decide (n < home.count)
  | .codewordSend turn => decide (turn.link < 24)
  | .codewordReceive link cw =>
    decide (link < 24 ∧ cw.slots.length = 5 ∧ cw.slots.all (fun x => x.length = 128) ∧ cw.corrected.all (fun n => n ≤ 15))
  | .replayTimeout link => decide (link < 24)
  | .lossOfLock link => decide (link < 24)
  | .signalDetect link => decide (link < 24)
  | .laneFrame link _ _ => decide (link < 24)
  | .trainingSet link set => decide (link < 24 ∧ set.length = 128)
  | .pollTimeout link => decide (link < 24)
  | .eqTimeout link => decide (link < 24)
  | .configTimeout link => decide (link < 24)
  | .retrainTimeout link => decide (link < 24)
  | .linkTest link => decide (link < 24)
  | .linkTestDone link => decide (link < 24)
  | .linkRetrain link => decide (link < 24)
  | .linkDisable link => decide (link < 24)
  | .linkEnable link => decide (link < 24)
  | .epochReport link _ => decide (link < 24)
  | .pwrReqRun domain => decide (domain < 236)
  | .pwrReqFreewheel domain => decide (domain < 236)
  | .pwrReqOff domain => decide (domain < 236)
  | .powerTransitionBegin domain => decide (domain < 236)
  | .powerTransitionDone domain => decide (domain < 236)
  | .thermalSample temps => decide (temps.length = 48)
  | .thermtrip sensor => decide (sensor < 48)
  | .sensorSampleTemp temps => decide (temps.length = 48 ∧ temps.all (fun t => -32768 ≤ t ∧ t < 32768))
  | .sensorSampleRail volts currents =>
    decide (volts.length = 24 ∧ volts.all (fun v => v < 2 ^ 16) ∧ currents.length = 16 ∧ currents.all (fun a => a < 2 ^ 32))
  | .railPoll readings => decide (readings.length = 8 ∧ readings.all (fun p => p.1 < 2 ^ 16 ∧ p.2 < 2 ^ 32))
  | .railFault rail _ => decide (rail < 8)
  | .railPowerGood rail => decide (rail < 8)
  | .railEnableTimeout rail => decide (rail < 8)
  | .pcieLinkUp _ rate mode => decide (1 ≤ rate.toNat ∧ rate.toNat ≤ 6 ∧ mode.widthLog2.toNat ≤ 4 ∧ mode.payload.toNat ≤ 5)
  | .add .. | .sub .. | .and .. | .or .. | .xor .. | .sll .. | .srl .. | .sra .. | .slt .. | .sltu .. | .mul .. | .mulh ..
  | .mulhu .. | .div .. | .divu .. | .rem .. | .remu .. | .min .. | .max .. | .minu .. | .maxu .. | .clz .. | .ctz ..
  | .popc .. | .addi .. | .andi .. | .ori .. | .xori .. | .slti .. | .sltiu .. | .shi .. | .lui .. | .lis .. | .lb .. | .lbu ..
  | .lh .. | .lhu .. | .lw .. | .lwu .. | .ld .. | .sb .. | .sh .. | .sw .. | .sd .. | .beq .. | .bne .. | .blt .. | .bge ..
  | .bltu .. | .bgeu .. | .jal .. | .jalr .. | .ldrv .. | .stcv .. | .fenceL .. | .fenceG .. | .fenceE .. | .tend ..
  | .yield .. | .trap .. | .eret .. | .mfs .. | .mts .. | .strCfgWrite .. | .strRingRead .. | .strRingHandover .. | .enq ..
  | .pfh .. | .hqput .. | .hqget .. | .smsg .. | .vld .. | .vst .. | .vadd .. | .vsub .. | .vmul .. | .vmulh .. | .vmin ..
  | .vmax .. | .vand .. | .vor .. | .vxor .. | .vsll .. | .vsrl .. | .vsra .. | .vadds .. | .vsubs .. | .vabsd .. | .vsel ..
  | .vfadd .. | .vfsub .. | .vfmul .. | .vfdiv .. | .vfmin .. | .vfmax .. | .vfma .. | .vfsqrt .. | .vflog1p .. | .vfabs ..
  | .vfneg .. | .vfclamp .. | .vcmpEq .. | .vcmpNe .. | .vcmpLt .. | .vcmpLe .. | .vcmpGt .. | .vcmpGe .. | .mand .. | .mor ..
  | .mxor .. | .mandn .. | .mnot .. | .mpopc .. | .mfirst .. | .vbcast .. | .vext .. | .vins .. | .vcompress .. | .vredsum ..
  | .vredmin .. | .vredmax .. | .vfredsum .. | .vcvt .. | .vhist .. | .vscan .. | .vfill .. | .bsrch ..
  | .doubleFaultService .. | .pmcWrap .. | .pmcWrapInterrupt .. | .kill .. | .reservationTimeout .. | .storeBufferDrain ..
  | .stream .. | .a2a .. | .bcast .. | .pelotonMemberComplete .. | .layoutCopy .. | .gather .. | .bag .. | .hash ..
  | .hjuClear .. | .build .. | .probe .. | .partition .. | .scatter .. | .select .. | .gemm .. | .voxelise .. | .rules ..
  | .conv .. | .bev .. | .labels .. | .windowAtomicop .. | .admitRequest .. | .cwbTimer .. | .stagePlace | .stageComplete ..
  | .deadlineExpiry .. | .deliveryBegin .. | .completionRecord .. | .irqDelayExpiry .. | .windowReset .. | .ringConfigWrite ..
  | .pcieCompletionTimeout .. | .functionLevelReset .. | .perstAssert .. | .perstRelease .. | .pcieLinkDown ..
  | .busMasterDisable .. | .bar5Access .. | .registerWrite .. | .quiesce .. | .resume .. | .drainTimeoutExpiry | .verify
  | .verifyDone | .stageRegWrite .. | .slotCommit .. | .slotClear .. | .lockReq | .unlock | .smsgMessage .. | .smsgDeliver ..
  | .poolIdleOff .. | .tableRegWrite .. | .sliceRd .. | .sliceData .. | .measEpochEnd | .migrationCommit | .vocLoad ..
  | .vocLoadDone .. | .vocClear .. | .textJobStart | .tokenise .. | .detokenise .. | .decodeShape .. | .decodeUnitStart
  | .sampleEmerge .. | .waypointReinject .. | .rd .. | .wr .. | .rsvRd .. | .stc .. | .pfhMessage .. | .rdData .. | .wrAck ..
  | .rsvResult .. | .smAck .. | .refuse .. | .remoteTimeout .. | .contrib .. | .hist .. | .join .. | .result .. | .a2aCount ..
  | .a2aOffset .. | .bulkWr .. | .bcastData .. | .mregRd .. | .mregWr .. | .mregData .. | .epochFreeze .. | .drainQuiet
  | .epochDrained .. | .epochCommit .. | .epochResume | .collectExpiry | .freezeLimitExpiry .. | .coordinatorFailover
  | .netCmdEpoch | .selftestDone .. | .fwIdleExpiry .. | .offIdleExpiry .. | .freqChangeDone .. | .powerCapSample .. | .logCopy
  | .logRd .. | .logRdDone | .mcStart | .mgmtRegRead .. | .mgmtRegWrite .. | .mgmtHbmWrite .. | .i3cSummaryRead ..
  | .i3cSetPointer .. | .i3cThrottle | .i3cMcRestart | .smbusBlockRead | .jtagInstruction .. | .fwInstall | .fwInstallDone
  | .fwActivate | .fwCommit | .fwRevert | .cfgApply | .cfgApplyDone .. | .porRise .. | .porFall | .hbmTrainingDone
  | .hbmZeroFillDone | .warmRestart | .refclk25Loss | .sparlineRefclkLoss .. | .stalledDescriptorDeadline .. | .slotCommitDone
  | .illegalWord .. | .msixVectorUnmask .. | .mgmtSessionOpen .. | .mcWatchdog | .fwCommitDone | .aonIoSupplyLoss => true

end Sys2Proof
end

