-- ==== Sys2Proof/Decode.lean ====
section
/-! DEFINITION. The table of operations and events gives no row any bits, so no word spells a command. -/

namespace Sys2Proof

/-- The command that a word spells by the bits that the table gives its rows: every row of the table has an empty list of fields, and so
no word spells one. -/
def decodeTableWord (_nbits _w : Nat) : Option Instr := none

end Sys2Proof
end

