-- ==== Sys2Proof/Config.lean ====
section
/-! DEFINITION. What an implementation fixes, what another standard defines and what the spec leaves open: constants
without a body, so that no proof can see a value of one. -/

namespace Sys2Proof

/-- The class of a code point (R363). -/
inductive CharClass where
  | letter | number | space | other
  deriving DecidableEq, Repr, Inhabited

/-- What begins at an access unit (R376): an IDR picture, a BLA or a CRA picture, a shown key frame that a sequence header precedes, or none of
these. -/
inductive VidStart where
  | idr | bla | cra | keyFrame | none_
  deriving DecidableEq, Repr, Inhabited

/-- The profiles of Table 1 of Video Intake, and all others. -/
inductive VidProfile where
  | high | main | main10 | other
  deriving DecidableEq, Repr, Inhabited

/-- The headers in force at an access unit (R373, R374, R384): profile, ten times the level, bit depth, chroma_format_idc, whether a tool that Table 1
bars is used, the coded size, the place and size of the conformance or render window, and the colour description. -/
structure VidHeader where
  profile : VidProfile
  level : Nat
  depth : Nat
  chroma : Nat
  barred : Bool
  width : Nat
  height : Nat
  winX : Nat
  winY : Nat
  winW : Nat
  winH : Nat
  matrix : Nat
  fullRange : Bool
  deriving DecidableEq, Repr, Inhabited

/-- One access unit of a video input as its headers describe it (R374, R376): what begins at it, its headers, its place in output order within its decode
unit, whether its picture is marked for output, now or by a later show_existing_frame, whether it is a RASL picture, and the error of its decoding, code
0x01 or 0x04. -/
structure VidAccess where
  start : VidStart
  header : VidHeader
  order : Nat
  shown : Bool
  shownLater : Bool
  rasl : Bool
  absentRef : Bool
  violation : Bool
  deriving DecidableEq, Repr, Inhabited

namespace Config

/-- The value of a free choice: nothing is known of it. A step applies it to the counter of free values in the state. -/
opaque freeWord : Nat → Word

/-- The body of the Feature Record that a Recipe, by its digest, makes of a Sample Index (R28). -/
opaque recordBody : List Byte → Word → List Byte

/-- ID_SERIAL, fused into the package (R579). -/
opaque idSerial : Word

/-- The fused digest of the Morelm firmware key, 48 bytes (R535). -/
opaque fwKeyDigest : List Byte

/-- The voltage in mV that a Feature Core needs at a frequency in MHz (R499): the fused table of that core, adjusted by its critical-path monitors,
of which the last operand is the reading. -/
opaque fcMillivolts : Nat → Nat → Word → Nat

/-- Whether a code point above ASCII is assigned in Unicode 15.1.0 (R362). -/
opaque assigned : Nat → Bool

/-- The full decomposition of an assigned code point above ASCII in the data of Unicode 15.1.0, compatible or canonical (R362). -/
opaque decomposition : Bool → Nat → List Nat

/-- The canonical combining class of an assigned code point above ASCII in the data of Unicode 15.1.0 (R362). -/
opaque combining : Nat → Nat

/-- The primary composite of two code points in the data of Unicode 15.1.0, if they have one (R362). -/
opaque composite : Nat → Nat → Option Nat

/-- The class that R363 takes from the Unicode 15.1.0 properties of a code point above ASCII without the White_Space property. -/
opaque charClass : Nat → CharClass

/-- The access units of an input under the codec's own standard: codec number and input bytes (R376). -/
opaque videoParse : Nat → List Byte → List VidAccess

/-- A decoded sample under the codec's own standard (R374): codec, input, access unit, plane, row and column in the coded picture. -/
opaque videoSample : Nat → List Byte → Nat → Nat → Nat → Nat → Nat

/-- The bytes of a sample whose window is empty, which R382 does not state: a function of the Shape Block alone (R389). -/
opaque emptyWindow : List Byte → Nat → Byte

/-- Whether half of an odd window size or position is taken upward for the chroma planes, which R382 does not state. -/
opaque halvesUp : Bool

/-- The result of BSRCH over edges that are not ascending (R100): which of the values 0 to BSRCH_EDGES it takes. -/
opaque unorderedEdges : List Nat → Nat → Nat

end Config
end Sys2Proof
end

