-- ==== Sys2Proof/Machine/State.lean ====
section
/-! DEFINITION. The state of one S9 package as plain data, and its value at reset. -/

namespace Sys2Proof.Machine

/-- Why a step stops. -/
inductive Fault where
  /-- Raised by the meaning of a command whose operands name a link, domain, sensor, rail, engine or arbiter that the
  package does not have, or a payload that no transfer can carry. Safe: no such event exists. -/
  | noSuchUnit
  deriving DecidableEq, Repr

/-- Why a step gives no meaning. -/
inductive Refusal where
  /-- Raised by exec for a row of the table that has no meaning yet, by its mnemonic. Safe: the machine stops. -/
  | notModelled (mnemonic : String)
  deriving DecidableEq, Repr

/-- The thirteen stall causes, in the order of SNUM 0x200 to 0x20C (R245). -/
inductive Cause where
  | lateHbm | lateBasin | lateRemote | islandCross | hqEmpty | hqFull | ringEmpty | ringFull | bankConflict
  | trackerFull | fenceWait | engineBusy | storeDrain
  deriving DecidableEq, Repr

/-- A handle in a Handle Queue with the Request Context of its producer, none when it came from another package (R221,
R223, R237). -/
structure Handle where
  val : Word
  ctx : Option Nat
  deriving DecidableEq, Repr

/-- Where the data of a remote load goes (R79, R81, R89); `frame` is no load: the slot waits until its frame has entered the store
buffer (R165). -/
inductive LoadDst where
  | scalar (rd : Reg) (size : Nat) (signed : Bool)
  | reserve (rd : Reg) (granule : Nat)
  | vector (vd : Reg) (ty mode : BitVec 4) (active : List Nat)
  | storeCond (rd : Reg)
  | sweep (key : Nat)
  | frame
  deriving DecidableEq, Repr

/-- A load or STCV whose answer has not come: the transactions it still waits for, each with the index of its element,
and the elements that have come. -/
structure PendLoad where
  dst : LoadDst
  want : List (Nat × Nat)
  got : SMap Word
  deriving DecidableEq, Repr

/-- Who issued a transaction: a task slot or an engine of the core (R219), or a Request that KILL has ended, whose data is discarded
when it comes (R231); the Text Unit and Video Intake, which have no trackers of their own, use those of core 0. -/
inductive Holder where
  | slot (k : Nat)
  | engine (e : Nat)
  | text
  | video
  | gone
  deriving DecidableEq, Repr

/-- What a transaction does; `ownMessage` is a Short Message to the core's own Pool, which holds a credit and is no transaction (R219). -/
inductive TrkKind where
  | read | write | reserve | storeCond | storeBuf | message | ownMessage | bulk | bcast
  deriving DecidableEq, Repr

/-- A transaction tracker in use (R219, TXN of R471): its number, holder, kind, Global Address, bytes, target package and
Request Context, and the stream of the engine command that issued it. -/
structure Trk where
  id : Nat
  holder : Holder
  kind : TrkKind
  addr : Nat
  size : Nat
  pkg : Nat
  ctx : Nat
  stream : Option Nat
  deriving DecidableEq, Repr

/-- An entry of the store buffer (R130): slot, effective address, size, data, whether it is Device Strict, whether its
store has left for another package and waits for its acknowledgement, its tracker, and the Request that made it. -/
structure SbEntry where
  slot : Nat
  addr : Word
  size : Nat
  data : Word
  strict : Bool
  sent : Bool
  trk : Nat
  ctx : Nat
  deriving DecidableEq, Repr

/-- The task that a slot holds (R62): its Request Context and its stage. -/
structure Task where
  ctx : Nat
  stage : Nat
  deriving DecidableEq, Repr

/-- A task slot (R69) with its exception state (R158), its reservation (R81, R145), its stall, whether the instruction that stalls is an
SMSG (R109), and the bytes that other packages have answered to its sweep. -/
structure Slot where
  task : Option Task
  x : SMap Word
  v : SMap VReg
  m : SMap MReg
  pc : Word
  xsp : Word
  xcause : Word
  xepc : Word
  xaddr : Word
  xstatus : Word
  xvec : Word
  swpShift : Word
  bsrchBase : Word
  bsrchEdges : Word
  fpflags : Word
  rsv : Option Word
  rsvAt : Word
  wait : Option Cause
  smsg : Bool
  pend : Option PendLoad
  swGot : SMap Byte
  stopped : Bool
  doubleFault : Bool
  deriving DecidableEq, Repr

/-- How far an engine command has come (R204 to R207, R137). -/
inductive Phase where
  | queued | started | worked | complete
  deriving DecidableEq, Repr

/-- A command in an engine's queue (R85): its sequence number, the slot and Request that issued it, its 64 bytes, its phase,
the handle taken under R206, the bytes that it reads once when it starts (R190, R289, R341), how much of it is done, the numbers that its collective operation carries between steps, and
whether the Request was killed while it ran. -/
structure EngCmd where
  seq : BitVec 32
  slot : Nat
  ctx : Nat
  bytes : List Byte
  phase : Phase
  handle : Option Word
  start : List Byte
  seen : Option (List Host.Cell)
  prog : Nat
  sub : List Nat
  killed : Bool
  deriving DecidableEq, Repr

/-- An engine: its command queue of 16, the next sequence number, the bytes that other packages and the far side of a port
have answered (keyed by Global Address, or by 2^64 plus a bus address), the addresses asked for, and its stall. -/
structure Engine where
  queue : List EngCmd
  next : BitVec 32
  got : SMap Byte
  asked : List Nat
  wait : Option Cause
  deriving DecidableEq, Repr

/-- A stream (R212 to R217): the RW fields of STRs_CFG, HEAD, TAIL, FILLED, the next SEQ, the SEQ of each slot, the SEQ of the
half that changed hands last, and which halves are full. -/
structure Stream where
  cfg : Word
  head : Nat
  tail : Nat
  filled : Nat
  seq : BitVec 32
  slotSeq : SMap (BitVec 32)
  halfSeq : BitVec 32
  half0 : Bool
  half1 : Bool
  deriving DecidableEq, Repr

/-- A Feature Core (R19, R69): slots, store buffer, the frame stores that wait for room in it (R130, R165), engines, streams, its 64 Handle Queues, performance and stall counters,
trackers, the Matrix Tile accumulators ACC0 to ACC3 (R102: each the rows of a tile of 64 x 64 elements; what is not listed is 0), and the Short
Messages that wait at it. -/
structure Core where
  slots : SMap Slot
  storeBuf : List SbEntry
  frameQ : List SbEntry
  engines : SMap Engine
  streams : SMap Stream
  hqs : SMap (List Handle)
  cycles : Word
  cycleFrac : Nat
  pmc : SMap (BitVec 48)
  pmsel : SMap (BitVec 12)
  pmwrap : BitVec 16
  pmie : BitVec 16
  pmPending : List Nat
  stall : SMap Word
  trks : List Trk
  acc : SMap (List (List (BitVec 32)))
  smWaiting : List Msg
  deriving DecidableEq, Repr

/-- Where a stage of a Request stands (R61). -/
inductive StageState where
  | waiting | ready | running | reported | completed
  deriving DecidableEq, Repr

/-- A Request Context in use (R24, R36, R43): the 64 bytes of its descriptor, its port and window, the Tide of its arrival, the
Recipe it is bound to (area and slot digest) and the lock tag, its stages, its dropped indices, the status with which it
ended, whether delivery has begun, the length of its record, its place in the order of admissions, and whether a reset of its port has
cut it off from delivery (R420). -/
structure Ctx where
  desc : List Byte
  port : Nat
  window : Nat
  arrival : Word
  area : Nat
  digest : List Byte
  tag : BitVec 32
  stages : SMap StageState
  drops : Nat
  ended : Option (Byte × BitVec 32)
  delivering : Bool
  recordBytes : Nat
  seq : Nat
  cut : Bool
  gone : Bool
  deriving DecidableEq, Repr

/-- A completion that waits for its entry (R412): of a Request with a context, or of a descriptor that ended at admission
with its status and DETAIL (R423). -/
inductive CplItem where
  | request (ctx : Nat)
  | descriptor (bytes : List Byte) (arrival : Word) (status : Byte) (detail : BitVec 32)
  deriving DecidableEq, Repr

/-- The Request Table and placement (R39 to R46, R53, R54, R57). -/
structure ReqTable where
  ctxs : SMap Ctx
  placeQ : List (Nat × Nat)
  nextQueue : Nat
  stallHead : Option (Nat × Nat)
  weirFired : Bool
  events : BitVec 3
  admitted : Word
  rejected : Word
  admitStall : Word
  admitStallEvents : Word
  placeWait : Word
  control : Word
  weir : Word
  weirVec : SMap Word
  quiesced : Bool
  timeoutRuns : Bool
  deriving DecidableEq, Repr

/-- A write of the RCP block that waits for the one before it (R608). -/
inductive RcpOp where
  | verify | commit (slot : Nat) | clear (slot : Nat) | lockReq | unlock
  deriving DecidableEq, Repr

/-- A Recipe Slot (R48, R57, R58). -/
structure RcpSlot where
  ready : Bool
  last : BitVec 2
  digest : List Byte
  deriving DecidableEq, Repr

/-- RCP_STAGE_STATUS (R57). -/
inductive StageStatus where
  | idle | verifying | valid | badSignature | badFormat
  deriving DecidableEq, Repr

/-- The Recipe block (R47 to R49, R57, R58, R608): slots, the areas that the four slots own and the staging area, the staging
registers, the lock, the operation under way and the operations that wait. -/
structure Rcp where
  slots : SMap RcpSlot
  area0 : Nat
  area1 : Nat
  area2 : Nat
  area3 : Nat
  stageArea : Nat
  stageAddr : Word
  stageLen : Word
  stageStatus : StageStatus
  stageDigest : List Byte
  imageLen : Nat
  expect : SMap Word
  locked : Bool
  lockDigest : List Byte
  lastResult : BitVec 3
  busy : Option RcpOp
  queue : List RcpOp
  deriving DecidableEq, Repr

/-- A descriptor in an Intake Queue with the Tide of its arrival. -/
structure Desc where
  bytes : List Byte
  arrival : Word
  deriving DecidableEq, Repr

/-- An Intake Window with its Output Ring (R403 to R417, R421). -/
structure Window where
  ctrl : Word
  cwbAddr : Word
  recBase : Word
  ringCfg : Word
  cplBase : Word
  recHead : Word
  cplHead : Word
  irq : Word
  recTail : Word
  cplTail : Word
  queue : List Desc
  partialBytes : List Byte
  err : Bool
  accepted : BitVec 32
  taken : BitVec 32
  overrun : Word
  badWrite : Word
  deliverWait : Word
  waiting : List Nat
  cwbCount : Nat
  irqCount : Nat
  active : Nat
  cplQ : List CplItem
  deriving DecidableEq, Repr

/-- An entry of a port's MSI-X table (R396, R416), after PCIe masked at reset. -/
structure MsixEntry where
  addr : Word
  data : BitVec 32
  masked : Bool
  deriving DecidableEq, Repr

/-- Who reads through a port: an engine for a command, a text or video job, or no one any more. -/
inductive BusReader where
  | engine (fc e : Nat) (seq : BitVec 32)
  | text (ctx stage : Nat)
  | video (ctx stage : Nat)
  | gone
  deriving DecidableEq, Repr

/-- A memory read request of this package that is outstanding at a port (R419): its tag, bus address and length, the bytes that have come, its
Request and its reader. -/
structure BusRead where
  tag : Nat
  addr : Nat
  len : Nat
  done : Nat
  ctx : Nat
  reader : BusReader
  deriving DecidableEq, Repr

/-- A partner port (R396, R402, R420, R421), with the Max Payload Size in force (128 bytes times 2 to the power of `payload`) and its outstanding
reads, the oldest first. -/
structure Port where
  linkUp : Bool
  rate : BitVec 4
  width : BitVec 4
  busMaster : Bool
  perst : Bool
  err : BitVec 6
  errVec : Word
  aper : Word
  fabWin : Word
  discarded : Word
  access : BitVec 3
  msix : SMap MsixEntry
  pba : List Nat
  payload : BitVec 3
  reads : List BusRead
  windows : SMap Window
  deriving DecidableEq, Repr

/-- A vocabulary slot (R353, R355): base, length, state (0 EMPTY, 1 LOADING, 2 READY, 3 BAD_FORMAT), digest, and the image's bytes as LOAD
judged them (R354). -/
structure Voc where
  base : Word
  len : Word
  state : BitVec 3
  digest : List Byte
  image : List Byte
  deriving DecidableEq, Repr

/-- A text job (R357, R367): its Request and stage, the lane it runs on, how many of its writes to other packages are out, whether its
result record is out, and the bytes answered to it (keyed as an engine's) with the reads it asked for. -/
structure TextJob where
  ctx : Nat
  stage : Nat
  lane : Option Nat
  prog : Nat
  sent : Bool
  got : SMap Byte
  asked : List Nat
  deriving DecidableEq, Repr

/-- The Text Unit (R353, R355, R367). -/
structure Txu where
  vocs : SMap Voc
  jobs : List TextJob
  jobCount : Word
  byteCount : Word
  replaced : Word
  waitNs : Word
  deriving DecidableEq, Repr

/-- What a decode unit decodes to (R373, R374, R376): its coded size, the window of its output frames, its bit depth, whether it is monochrome, the colour
description of its bitstream, the access units of its output frames in output order, and the error with which its decoding ends (Table 4 of Video
Intake) together with the number of frames that are shaped before it. -/
structure VidUnit where
  width : Nat
  height : Nat
  winX : Nat
  winY : Nat
  outW : Nat
  outH : Nat
  depth : Nat
  mono : Bool
  matrix : Nat
  fullRange : Bool
  pictures : List Nat
  error : Option (Nat × Nat)
  deriving DecidableEq, Repr

/-- The frames that a decode unit outputs. -/
def VidUnit.frames (u : VidUnit) : Nat := u.pictures.length

/-- A decode unit (R376, R377): its number in its job, the number of its first frame, its shape, the stream context and engine it
holds, and the samples of it that have emerged. -/
structure DecUnit where
  ctx : Nat
  stage : Nat
  index : Nat
  first : Nat
  info : VidUnit
  hold : Option (Nat × Nat)
  shaped : Nat
  deriving DecidableEq, Repr

/-- A video job (R375, R376, R388): its Request and stage, whether its headers are parsed, its input bytes and counts, the samples written,
the writes to other packages that are out of each sample, whether its result record is out, and the bytes answered to it with the reads
it asked for. -/
structure VidJob where
  ctx : Nat
  stage : Nat
  parsed : Bool
  input : List Byte
  frames : Nat
  units : Nat
  ended : Nat
  bad : Nat
  skipped : Nat
  written : List Nat
  sending : SMap Nat
  sent : Bool
  got : SMap Byte
  asked : List Nat
  deriving DecidableEq, Repr

/-- Video Intake (R375 to R379). -/
structure Vid where
  dpbBase : Word
  dpbSize : Word
  contexts : Word
  jobs : List VidJob
  units : List DecUnit
  unitCount : Word
  pixels : Word
  waitNs : Word
  badUnits : Word
  deriving DecidableEq, Repr

/-- A table's registers and counters (R258). -/
structure Table where
  cfg : Word
  rows : Word
  base : Word
  salt : Word
  scale : Word
  spare : Word
  version : BitVec 32
  dropOor : Word
  dropMissing : Word
  hrcHits : Word
  poisonHits : Word
  deriving DecidableEq, Repr

/-- A row that has moved to a spare slot (R274): table, row, channel and slot. -/
structure Remap where
  table : Nat
  row : Nat
  channel : Nat
  place : Nat
  deriving DecidableEq, Repr

/-- An entry of the Hot Row Tracker (R270). -/
structure Track where
  table : Nat
  row : Nat
  count : Nat
  deriving DecidableEq, Repr

/-- The embedding block (R258, R270 to R277): tables, EMB_CTRL, the Remap Directory with the moves under way, the Poison List, the
hot set with the entries of a die that an error made invalid, the tracker, and the channel loads of this epoch and of the last. -/
structure Emb where
  ctrl : Word
  tables : SMap Table
  remap : List Remap
  moves : List Remap
  stopped : List Nat
  usedSpare : List (Nat × Nat × Nat)
  poison : List (Nat × Nat)
  poisonFull : Bool
  hot : List (Nat × Nat)
  hotBad : List (Nat × Nat × Nat)
  tracker : List Track
  load : SMap Nat
  shload : SMap Word
  deriving DecidableEq, Repr

/-- An access that waits at an arbiter (R241): its EMPTY_AT, its class (0 READ, 1 WRITE, 2 REMOTE), its place in the order of arrivals, its
requester number, and the offset that it reaches. -/
structure Waiting where
  emptyAt : Option Word
  cls : Nat
  arrival : Nat
  requester : Nat
  off : Nat
  deriving DecidableEq, Repr

/-- An arbiter (R241): its last 63 grants, newest first, each with the class that it belonged to and whether the access was tagged, and
what it granted last. -/
structure Arbiter where
  ctl : Word
  recent : List (Nat × Bool)
  last : Option Waiting
  deriving DecidableEq, Repr

/-- The traffic at this package's memory (R17, R119, R120, R241): the lines of 64 bytes that each Basin slice holds, the accesses that wait at
each arbiter, oldest first, and how many have arrived. -/
structure Traffic where
  lines : SMap (List Nat)
  waiting : SMap (List Waiting)
  arrivals : Nat
  deriving DecidableEq, Repr

/-- The states of a link, codes 0 to 8 (R432). -/
inductive LinkState where
  | disabled | detect | poll | eq | config | isolated | active | retrain | failed
  deriving DecidableEq, Repr

/-- A Sparline link (R426 to R460); `before` is ISOLATED or ACTIVE while the link retrains from there, also through CONFIG;
`taps` are the steps that the pre, main and post tap of each lane have moved. Of its training it holds, by lane, the good frames that came
and the frames sent after the first of them, the EQ_DONE frames that came and went, and the fill that goes out next; and the TS2 of which
eight identical ones came, and how many TS2 were sent after the first that came. Flits wait to leave by input port (0 to 23 the links, 24
this package) and virtual channel, `port * 6 + VC`, and `lastPort` is the port that each channel granted last (R467). -/
structure Link where
  ctrl : Word
  state : LinkState
  before : LinkState
  fails : Nat
  laneGood : SMap Nat
  laneRun : SMap Nat
  laneLast : SMap LaneFrame
  laneDone : SMap Nat
  laneSent : SMap Nat
  eqSent : SMap Nat
  fill : BitVec 13
  taps : SMap Int
  polarity : BitVec 8
  reversed : Bool
  peerPkg : BitVec 12
  peerLink : BitVec 5
  peerS9 : Bool
  testDone : Bool
  testPass : Bool
  testLeft : Option Nat
  testBad : Bool
  testSyms : Nat
  testCws : Nat
  testWaits : Bool
  lastTs : List Byte
  tsSame : Nat
  agreed : List Byte
  ts2Sent : Option Nat
  err : BitVec 8
  counters : SMap Word
  txSeq : Nat
  acked : Nat
  rxLast : Nat
  nakDue : Bool
  nakSent : Bool
  replay : List (Nat × List Byte)
  resend : List (Nat × List Byte)
  resends : Nat
  txq : SMap (List (List Byte))
  adv : SMap Nat
  sent : SMap Nat
  peerFreed : SMap Nat
  freed : SMap Nat
  crNext : Nat
  scrTx : BitVec 31
  scrRx : BitVec 31
  held : List (List Byte)
  cwNum : BitVec 8
  badCws : Nat
  turn : Nat
  lastPort : SMap Nat
  ltTx : BitVec 31
  ltRx : BitVec 31
  deriving DecidableEq, Repr

/-- The phases of an epoch change as NET_EPOCH shows them (R489). -/
inductive NetPhase where
  | run | collect | freeze | drained
  deriving DecidableEq, Repr

/-- The network layer (R461 to R493): registers, the epoch with its link set (installation-wide, each link by its package and
number), live packages and those known not to be an S9 (R488), the epoch change under way, reports gathered and seen, drained packages, messages that wait out a Freeze,
counters, the peers' geometry, messages that wait here for a power domain, messages at this waypoint, and messages of which the last
fragment has not come. -/
structure Net where
  geom : Word
  timeout : Word
  conf : Word
  epoch : BitVec 32
  phase : NetPhase
  links : List (Nat × Nat)
  live : List Nat
  partners : List Nat
  coord : BitVec 12
  plan : Option EpochPlan
  reports : List Report
  seen : List Report
  drained : List Nat
  frozenSince : Word
  held : List Msg
  counters : SMap Word
  peerGeom : SMap Word
  inbox : List Msg
  via : List Msg
  fragments : List Msg
  deriving DecidableEq, Repr

/-- A chunk of a reduction or of a histogram pass (R474): its kind (CONTRIB or HIST), AGG_OP and VAL_TYPE, chunk number, tree node,
presence bits and values. -/
structure Chunk where
  hist : Bool
  op : Nat
  ty : Nat
  chunk : Nat
  level : Nat
  node : Nat
  count : Nat
  presence : BitVec 16
  values : List Nat
  deriving DecidableEq, Repr

/-- A participant named in a JOIN (R475): its number, its package, the number of participants it names, and the fields that must
agree. -/
structure Joiner where
  part : Nat
  pkg : Nat
  count : Nat
  fields : List Nat
  deriving DecidableEq, Repr

/-- A collective at its root (R474, R475): kind, name, how many take part (0 while nothing has told), the participants that joined, how
many ended before they joined, the chunks that no sibling has met, how many passes of a selection are complete, the leaves of the first
pass that have come, the lists of the participants of a selection (R320), and the code with which it has ended, 0 where a participant was
lost (R299, R308, R326). -/
structure Root where
  hist : Bool
  name : Nat
  count : Nat
  joins : List Joiner
  absent : Nat
  chunks : List Chunk
  pass : Nat
  leaves : Nat
  lists : List (List Nat)
  ended : Option Nat
  deriving DecidableEq, Repr

/-- A receiver of an all-to-all (R480): its name, the receive area and capacity, the participants and row size, the counts that have come
(participant, package, rows), whether offsets are out, and the bytes still to come. -/
structure A2aRecv where
  name : Nat
  recv : Nat
  cap : Nat
  parts : Nat
  rowBytes : Nat
  counts : List (Nat × Nat × Nat)
  replied : Bool
  left : Nat
  deriving DecidableEq, Repr

/-- A slice read that is unanswered at this router (R476): table, row, member package, lock tag, the package that the answer goes to
(this one, for a read of its own), those that wait for a copy, each with its Request Context, and whether this package asks a
sibling for the others and answers them in its own name (R277). -/
structure Merge where
  table : Nat
  row : Nat
  member : Nat
  tag : BitVec 32
  first : Nat
  relayed : Bool
  requesters : List (Nat × Nat)
  deriving DecidableEq, Repr

/-- Confluence and the collectives rooted or received here (R474 to R481). -/
structure Conf where
  roots : List Root
  merges : List Merge
  a2a : List A2aRecv
  deriving DecidableEq, Repr

/-- The states of a power domain, codes 0 to 6 (R514). -/
inductive DomState where
  | off | freewheel | run | turningOn | turningOff | selfTest | failed
  deriving DecidableEq, Repr

/-- A request latched during a transition (R507), codes 0 to 3 of PENDING. -/
inductive Pending where
  | none | on | off | freewheel
  deriving DecidableEq, Repr

/-- A power domain (R501, R507, R514): state, latched request, AUTO, whether the transition under way goes to or comes
from Freewheel, and whether the power transition of a TURNING_OFF has begun (R503). -/
structure Domain where
  state : DomState
  latch : Pending
  auto : Bool
  fwSide : Bool
  begun : Bool
  deriving DecidableEq, Repr

/-- The power controller (R495 to R517): domains, registers, each core's frequency with its limits in MHz under R509 and R510, the Pools powered on alone (R505),
and the cores that have come to Run since the last admission (R508). -/
structure Pwr where
  doms : SMap Domain
  policy : Word
  cap : Word
  measured : BitVec 16
  therm : Word
  hottest : BitVec 8
  err : BitVec 4
  thermNs : Word
  transitions : Word
  maxMhz : SMap (BitVec 12)
  curMhz : SMap Nat
  thermMhz : SMap Nat
  capMhz : SMap Nat
  crit : List Nat
  poolAlone : List Nat
  fresh : List Nat
  deriving DecidableEq, Repr

/-- An event log entry (R527); its CRC is computed when it is read. -/
structure LogEntry where
  seq : Word
  tide : Word
  code : BitVec 16
  severity : Byte
  source : Byte
  payload : List Byte
  deriving DecidableEq, Repr

/-- A firmware slot (R535, R538): whether the image in it is valid but for the fuses, its version and ROLLBACK, and its bytes. -/
structure FwSlot where
  valid : Bool
  version : BitVec 32
  rollback : Nat
  image : List Byte
  deriving DecidableEq, Repr

/-- A firmware command under way (R537). -/
inductive FwOp where
  | install | activate | commit | revert
  deriving DecidableEq, Repr

/-- The state of an alarm (R525): whether its WARN and CRIT levels are entered, and the consecutive samples beyond WARN, beyond CRIT and
back inside WARN. -/
structure Alarm where
  warnOn : Bool
  critOn : Bool
  warn : Nat
  crit : Nat
  inside : Nat
  deriving DecidableEq, Repr

/-- The configuration that the MC keeps in flash (R531, R533). -/
structure ConfigStore where
  recipeKeys : SMap (List Byte)
  sessionKeys : SMap (List Byte)
  geometry : Option (List Byte)
  access : List Byte
  thresholds : Option (List Byte)
  logRate : BitVec 16
  pmbus : List Byte
  ethernet : List Byte
  seq : Word
  deriving DecidableEq, Repr

/-- The Management Controller (R519 to R546). The RAM ring holds its entries oldest first, and the first `copied` of them are
in flash too; `held` are events that wait at their sources while the MC restarts (R544). `startCause` is the reset cause that the next BOOT
entry carries, `trialB` the slot that ACTIVATE named, `fwResult` what the first validation of INSTALL found, `tap` the TAP instruction in
force. -/
structure Mc where
  running : Bool
  held : List LogEntry
  recovery : Bool
  ram : List LogEntry
  copied : Nat
  flash : List LogEntry
  seqNext : Word
  logAck : Word
  logLost : Word
  logDropped : Word
  gapCount : Nat
  logRate : Word
  rdSeq : Word
  rdStatus : BitVec 2
  rdData : List Byte
  slotA : FwSlot
  slotB : FwSlot
  runB : Bool
  committedB : Bool
  trial : Bool
  trialB : Bool
  attempted : Bool
  fuses : Nat
  fwAddr : Word
  fwLen : Word
  fwStatus : BitVec 4
  fwOp : Option FwOp
  fwResult : BitVec 4
  startCause : Byte
  events : BitVec 6
  irqVec : SMap Word
  cfg : ConfigStore
  cfgAddr : Word
  cfgStatus : BitVec 4
  nonce : Word
  temps : SMap Int
  thrT : SMap Word
  volts : SMap Nat
  thrV : SMap Word
  rails : SMap (Nat × Nat)
  thrI : SMap Word
  alarms : SMap Alarm
  tap : JtagOp
  jtagOpen : Bool
  jtagSlot : Nat
  i3cPtr : Nat
  sessions : Nat
  deriving DecidableEq, Repr

/-- RST_STATUS.PHASE, codes 0 to 5 (R565). -/
inductive BootPhase where
  | mcBoot | rails | training | bringup | discovered | joined
  deriving DecidableEq, Repr

/-- Reset, supplies and start-up (R547 to R571, R599 to R606); `warmDue` lasts from a write of RST_CTRL.WARM until the restart. -/
structure Rst where
  por : Bool
  held : Bool
  tripped : Bool
  railsOff : Bool
  strapLow : Bool
  bringupMode : Bool
  unnumbered : Bool
  phase : BootPhase
  warm : Bool
  warmDue : Bool
  hbmReady : Bool
  hbmTrained : Bool
  coresTested : List Nat
  railsOn : List Nat
  qualified : BitVec 24
  bad : BitVec 24
  restarts : Word
  ready : Bool
  deriving DecidableEq, Repr

/-- What the package has driven out: writes, reads and messages on a port, a refused or answered read, a network message, a
flit's codeword, a management frame, I3C bytes, a pin, a PMBus write that turns a rail on or off or sets its voltage. -/
inductive Out where
  | busWrite (port : Nat) (addr : Nat) (data : List Byte) (relaxed noSnoop : Bool)
  | busRead (port tag addr len : Nat)
  | msix (port : Nat) (addr : Word) (data : BitVec 32)
  | readData (port : Nat) (data : List Byte)
  | readWord (port : Nat) (data : Word)
  | completerAbort (port : Nat)
  | unsupported (port : Nat)
  | net (m : Msg)
  | codeword (link : Nat) (kind : BitVec 2) (cwNum : Byte) (slots : List (List Byte)) (lanes : List (List (BitVec 2)))
  | laneFrame (link lane : Nat) (bits : BitVec 680)
  | frame (op status : Byte) (offset : Word) (data : List Byte)
  | i3c (data : List Byte)
  | inBand
  | pin (name : String) (high : Bool)
  | rail (rail : Nat) (on : Bool)
  | vout (rail : Nat) (millivolts : Nat)
  | report (link : Nat) (r : Report)
  | freeze (p : EpochPlan)
  | drained (pkg : Nat) (epoch : BitVec 32)
  | commit (epoch : BitVec 32)
  | retimer (mhz : Nat)
  deriving DecidableEq, Repr

/-- The package: memory (HBM and Pools by package-local offset, R116), Tide, the counter of free values (the model's own), what
it has driven out (newest first), and its blocks. -/
structure Chip where
  mem : List Host.Cell
  tide : Word
  freeCtr : Nat
  out : List Out
  cores : SMap Core
  dieHqs : SMap (List Handle)
  rsvs : List (Nat × Nat × Nat)
  rmap : SMap Word
  req : ReqTable
  rcp : Rcp
  ports : SMap Port
  txu : Txu
  vid : Vid
  emb : Emb
  arbs : SMap Arbiter
  traffic : Traffic
  cfr : SMap Word
  links : SMap Link
  net : Net
  conf : Conf
  pwr : Pwr
  mc : Mc
  rst : Rst
  scratch : SMap Word
  deriving DecidableEq, Repr

/-- The state: the commands that wait, first in first out, and the package. -/
structure State where
  pending : List Instr
  chip : Chip
  deriving DecidableEq, Repr

/-- A task slot without a task (R62, R158 and the reset column of Table 11 of the instruction set). -/
def Slot.reset : Slot :=
  { task := none, x := [], v := [], m := [], pc := 0, xsp := 0, xcause := 0, xepc := 0, xaddr := 0, xstatus := 1, xvec := 0,
    swpShift := 0, bsrchBase := 0, bsrchEdges := 0, fpflags := 0, rsv := none, rsvAt := 0, wait := none, smsg := false,
    pend := none, swGot := [], stopped := false, doubleFault := false }

/-- An engine after a reset of its core (R85, R506). -/
def Engine.reset : Engine := { queue := [], next := 0, got := [], asked := [], wait := none }

/-- A stream at reset: LIMIT is 1, all else 0 (R212). -/
def Stream.reset : Stream :=
  { cfg := 1, head := 0, tail := 0, filled := 0, seq := 0, slotSeq := [], halfSeq := 0xFFFFFFFF, half0 := false, half1 := false }

/-- A Feature Core after a core reset (R506). -/
def Core.reset : Core :=
  { slots := [], storeBuf := [], frameQ := [], engines := [], streams := [], hqs := [], cycles := 0, cycleFrac := 0, pmc := [], pmsel := [],
    pmwrap := 0, pmie := 0, pmPending := [], stall := [], trks := [], acc := [], smWaiting := [] }

/-- The Request Table at reset: QUIESCE_REQ 1, QUIESCE_POLICY 0b10, DRAIN_TIMEOUT 0x4E20, QUIESCED 1 (R57). -/
def ReqTable.reset : ReqTable :=
  { ctxs := [], placeQ := [], nextQueue := 0, stallHead := none, weirFired := false, events := 0, admitted := 0, rejected := 0,
    admitStall := 0, admitStallEvents := 0, placeWait := 0, control := 0x00004E2000000009, weir := 0, weirVec := [], quiesced := true,
    timeoutRuns := false }

/-- An empty Recipe Slot (R57). -/
def RcpSlot.reset : RcpSlot := { ready := false, last := 0, digest := [] }

/-- The Recipe block at reset: slot n owns area n and area 4 is the staging area (R58). -/
def Rcp.reset : Rcp :=
  { slots := [], area0 := 0, area1 := 1, area2 := 2, area3 := 3, stageArea := 4, stageAddr := 0, stageLen := 0,
    stageStatus := .idle, stageDigest := [], imageLen := 0, expect := [], locked := false, lockDigest := [], lastResult := 0,
    busy := none, queue := [] }

/-- A window at reset (R421). -/
def Window.reset : Window :=
  { ctrl := 0, cwbAddr := 0, recBase := 0, ringCfg := 0, cplBase := 0, recHead := 0, cplHead := 0, irq := 0, recTail := 0,
    cplTail := 0, queue := [], partialBytes := [], err := false, accepted := 0, taken := 0, overrun := 0,
    badWrite := 0, deliverWait := 0, waiting := [], cwbCount := 0, irqCount := 0, active := 0, cplQ := [] }

/-- A masked vector, as PCIe resets it (R416). -/
def MsixEntry.reset : MsixEntry := { addr := 0, data := 0, masked := true }

/-- A partner port at reset (R421); PORTn_ACCESS comes from the configuration (R402). -/
def Port.reset : Port :=
  { linkUp := false, rate := 0, width := 0, busMaster := true, perst := false, err := 0, errVec := 0, aper := 0, fabWin := 0,
    discarded := 0, access := 7, msix := [], pba := [], payload := 0, reads := [], windows := [] }

/-- An empty vocabulary slot (R355). -/
def Voc.reset : Voc := { base := 0, len := 0, state := 0, digest := [], image := [] }

/-- The Text Unit at reset (R355). -/
def Txu.reset : Txu :=
  { vocs := [], jobs := [], jobCount := 0, byteCount := 0, replaced := 0, waitNs := 0 }

/-- Video Intake at reset (R379). -/
def Vid.reset : Vid :=
  { dpbBase := 0, dpbSize := 0, contexts := 0, jobs := [], units := [], unitCount := 0, pixels := 0, waitNs := 0, badUnits := 0 }

/-- A table at reset (R258). -/
def Table.reset : Table :=
  { cfg := 0, rows := 0, base := 0, salt := 0, scale := 0, spare := 0, version := 0, dropOor := 0, dropMissing := 0,
    hrcHits := 0, poisonHits := 0 }

/-- The embedding block at reset (R258). -/
def Emb.reset : Emb :=
  { ctrl := 0, tables := [], remap := [], moves := [], stopped := [], usedSpare := [], poison := [], poisonFull := false,
    hot := [], hotBad := [], tracker := [], load := [], shload := [] }

/-- An arbiter at reset: DEADLINE, FLOOR 8, REMOTE_SHARE 16, WRITE_SHARE 16, READ_SHARE 32 (R244). -/
def Arbiter.reset : Arbiter := { ctl := 0x08101020, recent := [], last := none }

/-- No line is held and no access waits (R504). -/
def Traffic.reset : Traffic := { lines := [], waiting := [], arrivals := 0 }

/-- A link at reset: DISABLED with EN 1 and LTEST_LOG2 24 (R454, R564). -/
def Link.reset : Link :=
  { ctrl := 0x1801, state := .disabled, before := .eq, fails := 0, laneGood := [], laneRun := [], laneLast := [], laneDone := [], laneSent := [], eqSent := [],
    fill := 0x1FFF, taps := [],
    polarity := 0, reversed := false, peerPkg := 0, peerLink := 0, peerS9 := false, testDone := false, testPass := false,
    testLeft := none, testBad := false, testSyms := 0, testCws := 0, testWaits := false, lastTs := [], tsSame := 0, agreed := [],
    ts2Sent := none, err := 0,
    counters := [], txSeq := 0, acked := 4095, rxLast := 4095, nakDue := false, nakSent := false, replay := [], resend := [],
    resends := 0, txq := [], adv := [], sent := [], peerFreed := [], freed := [], crNext := 0, scrTx := 0x7FFFFFFF,
    scrRx := 0x7FFFFFFF, held := [], cwNum := 0, badCws := 0, turn := 0, lastPort := [], ltTx := 0x7FFFFFFF, ltRx := 0x7FFFFFFF }

/-- The network layer at reset: epoch 0, an empty link set, no package live (R489, R557). -/
def Net.reset : Net :=
  { geom := 0, timeout := 0x000007D000001388, conf := 3, epoch := 0, phase := .run, links := [], live := [], partners := [], coord := 0,
    plan := none, reports := [], seen := [], drained := [], frozenSince := 0, held := [], counters := [],
    peerGeom := [], inbox := [], via := [], fragments := [] }

/-- Confluence at reset: nothing under way. -/
def Conf.reset : Conf := { roots := [], merges := [], a2a := [] }

/-- A domain other than FC logic at reset: RUN, no request latched, AUTO 0 (R514). -/
def Domain.reset : Domain := { state := .run, latch := .none, auto := false, fwSide := false, begun := false }

/-- The power controller at reset (R514): FW_IDLE 10, RUN_MIN 8, AUTO 1; WATTS 780; HYST 5, THROTTLE_C 100. -/
def Pwr.reset : Pwr :=
  { doms := [], policy := 0x0000000A00000801, cap := 780, measured := 0, therm := 0x0564, hottest := 0, err := 0, thermNs := 0,
    transitions := 0, maxMhz := [], curMhz := [], thermMhz := [], capMhz := [], crit := [], poolAlone := [], fresh := [] }

/-- An empty firmware slot. -/
def FwSlot.empty : FwSlot := { valid := false, version := 0, rollback := 0, image := [] }

/-- No alarm. -/
def Alarm.reset : Alarm := { warnOn := false, critOn := false, warn := 0, crit := 0, inside := 0 }

/-- A configuration in which nothing is enrolled or set. -/
def ConfigStore.reset : ConfigStore :=
  { recipeKeys := [], sessionKeys := [], geometry := none, access := [7, 7, 7, 7], thresholds := none, logRate := 160,
    pmbus := [], ethernet := [], seq := 0 }

/-- The Management Controller at reset (R540). -/
def Mc.reset : Mc :=
  { running := false, held := [], recovery := false, ram := [], copied := 0, flash := [], seqNext := 0, logAck := 0, logLost := 0,
    logDropped := 0, gapCount := 0, logRate := 160, rdSeq := 0, rdStatus := 0, rdData := [], slotA := FwSlot.empty,
    slotB := FwSlot.empty, runB := false, committedB := false, trial := false, trialB := false, attempted := false, fuses := 0, fwAddr := 0,
    fwLen := 0, fwStatus := 0, fwOp := none, fwResult := 0, startCause := 0, events := 0, irqVec := [], cfg := ConfigStore.reset, cfgAddr := 0, cfgStatus := 0,
    nonce := 0, temps := [], thrT := [], volts := [], thrV := [], rails := [], thrI := [], alarms := [], tap := .bypass,
    jtagOpen := false, jtagSlot := 0, i3cPtr := 0, sessions := 0 }

/-- Start-up state while POR_N is low (R548, R565). -/
def Rst.reset : Rst :=
  { por := false, held := false, tripped := false, railsOff := false, strapLow := false, bringupMode := true,
    unnumbered := true, phase := .mcBoot, warm := false, warmDue := false, hbmReady := false, hbmTrained := false, coresTested := [],
    railsOn := [], qualified := 0, bad := 0, restarts := 0, ready := false }

/-- The package in reset. -/
def Chip.reset : Chip :=
  { mem := [], tide := 0, freeCtr := 0, out := [], cores := [], dieHqs := [], rsvs := [], rmap := [], req := ReqTable.reset,
    rcp := Rcp.reset, ports := [], txu := Txu.reset, vid := Vid.reset, emb := Emb.reset, arbs := [], traffic := Traffic.reset, cfr := [], links := [],
    net := Net.reset, conf := Conf.reset, pwr := Pwr.reset, mc := Mc.reset, rst := Rst.reset, scratch := [] }

/-- The machine right after reset: no command waits and the package is in reset. -/
def State.reset : State := { pending := [], chip := Chip.reset }

end Sys2Proof.Machine
end

