-- ==== Sys2Proof/Machine/Map.lean ====
section
/-! DEFINITION. Sparse tables, the memory as a list of cells in one canonical form, and how a meaning answers a next state. -/

namespace Sys2Proof.Machine

/-- The entry of a sparse table, the given value where it lists none. -/
def SMap.get {α : Type} (d : α) : SMap α → Nat → α
  | [], _ => d
  | (j, a) :: t, k => if j = k then a else SMap.get d t k

/-- A sparse table with one entry replaced; keys stay in rising order. -/
def SMap.set {α : Type} : SMap α → Nat → α → SMap α
  | [], k, v => [(k, v)]
  | (j, a) :: t, k, v => if j = k then (k, v) :: t else if k < j then (k, v) :: (j, a) :: t else (j, a) :: SMap.set t k v

/-- The entry of a sparse table, if it lists one. -/
def SMap.find {α : Type} : SMap α → Nat → Option α
  | [], _ => none
  | (j, a) :: t, k => if j = k then some a else SMap.find t k

/-- A sparse table without one key. -/
def SMap.erase {α : Type} (m : SMap α) (k : Nat) : SMap α := m.filter (fun p => p.1 ≠ k)

/-- One byte of memory; a byte that nothing has written is 0, as the zero-fill leaves HBM and as power-up leaves a Pool
(R501, R552). -/
def Mem.read : List Host.Cell → Nat → Byte
  | [], _ => 0
  | (j, b) :: t, a => if j = a then b else if a < j then 0 else Mem.read t a

/-- One byte stored; a zero is not listed. -/
def Mem.write : List Host.Cell → Nat → Byte → List Host.Cell
  | [], a, v => if v = 0 then [] else [(a, v)]
  | (j, b) :: t, a, v =>
    if j = a then (if v = 0 then t else (a, v) :: t)
    else if a < j then (if v = 0 then (j, b) :: t else (a, v) :: (j, b) :: t)
    else (j, b) :: Mem.write t a v

/-- Bytes stored one after another, the first first. -/
def Mem.writeAll (m : List Host.Cell) : List (Nat × Byte) → List Host.Cell
  | [] => m
  | (a, v) :: t => Mem.writeAll (Mem.write m a v) t

/-- The canonical form: addresses strictly rising and no entry that holds what an unlisted address reads as. -/
def Mem.above (low : Nat) : List Host.Cell → Bool
  | [] => true
  | (a, v) :: t => decide (low ≤ a) && decide (v ≠ 0) && Mem.above (a + 1) t

/-- The canonical form of memory. -/
def Mem.wf (m : List Host.Cell) : Bool := Mem.above 0 m

/-- A command's effect on the package; the queue stays as it is. -/
def State.run (s : State) (f : Chip → Chip) : Host.Outcome State Fault Refusal := .next { s with chip := f s.chip }

/-- As run, for a command whose operands may name a unit that the package does not have. -/
def State.runIf (s : State) (ok : Bool) (f : Chip → Chip) : Host.Outcome State Fault Refusal :=
  if ok then s.run f else .fault .noSuchUnit

end Sys2Proof.Machine
end

