-- ==== Sys2Proof/Machine/Bytes.lean ====
section
/-! DEFINITION. Bytes and bit fields: little-endian fields (R7), sign extension, the CRCs of R35 and R438, the hash functions
of R283 to R285, the PRBS31 of R429. -/

namespace Sys2Proof.Machine

/-- The little-endian number in a list of bytes (R7). -/
def leNat : List Byte → Nat
  | [] => 0
  | b :: t => b.toNat + 256 * leNat t

/-- A number as n little-endian bytes. -/
def leBytes : Nat → Nat → List Byte
  | 0, _ => []
  | n + 1, v => BitVec.ofNat 8 v :: leBytes n (v / 256)

/-- n bytes of a list from offset o; missing bytes are 0. -/
def sliceB (l : List Byte) (o n : Nat) : List Byte :=
  let t := (l.drop o).take n
  t ++ List.replicate (n - t.length) 0

/-- The little-endian field of n bytes at offset o of a list. -/
def fieldB (l : List Byte) (o n : Nat) : Nat := leNat (sliceB l o n)

/-- A list of bytes with bytes replaced from offset o on. -/
def putB (l : List Byte) (o : Nat) (v : List Byte) : List Byte := l.take o ++ v ++ l.drop (o + v.length)

/-- Bits hi to lo of a word as a number. -/
def bits (w : Word) (hi lo : Nat) : Nat := (w.toNat >>> lo) % 2 ^ (hi + 1 - lo)

/-- One bit of a word. -/
def bit (w : Word) (i : Nat) : Bool := w.getLsbD i

/-- A word with the field at lo, n bits wide, replaced. -/
def setBits (w : Word) (lo n v : Nat) : Word :=
  let mask : Word := BitVec.ofNat 64 ((2 ^ n - 1) <<< lo)
  (w &&& ~~~mask) ||| (BitVec.ofNat 64 ((v % 2 ^ n) <<< lo))

/-- A number of n bits as a signed one. -/
def signed (n v : Nat) : Int := if 2 * (v % 2 ^ n) < 2 ^ n then ((v % 2 ^ n : Nat) : Int) else ((v % 2 ^ n : Nat) : Int) - (2 ^ n : Nat)

/-- A signed number wrapped to n bits. -/
def wrapInt (n : Nat) (v : Int) : Nat := (v % ((2 ^ n : Nat) : Int)).toNat

/-- A 16-bit immediate, sign-extended (R78). -/
def sext16 (i : BitVec 16) : Word := i.signExtend 64

/-- Round n up to a multiple of u. -/
def roundUp (n u : Nat) : Nat := ((n + u - 1) / u) * u

/-- A value within bounds. -/
def clampNat (lo hi v : Nat) : Nat := if v < lo then lo else if hi < v then hi else v

/-- One step of a reflected 32-bit CRC. -/
def crcStep (poly : Nat) : Nat → Nat → Nat
  | 0, c => c
  | n + 1, c => crcStep poly n (if c % 2 = 1 then (c / 2) ^^^ poly else c / 2)

/-- A reflected CRC over bytes without the final complement. -/
def crcRun (poly : Nat) : Nat → List Byte → Nat
  | c, [] => c
  | c, b :: t => crcRun poly (crcStep poly 8 (c ^^^ b.toNat)) t

/-- CRC-32C with the parameters of R35. -/
def crc32c (l : List Byte) : Nat := crcRun 0x82F63B78 0xFFFFFFFF l ^^^ 0xFFFFFFFF

/-- CRC-32 of IEEE 802.3 (R438). -/
def crc32 (l : List Byte) : Nat := crcRun 0xEDB88320 0xFFFFFFFF l ^^^ 0xFFFFFFFF

/-- The multipliers of R283. -/
def mxM1 : Word := 0x8F3D6B21E5A7C94B
/-- The multipliers of R283. -/
def mxM2 : Word := 0xD14F7A39C2E68B15
/-- The multipliers of R283. -/
def mxM3 : Word := 0x6A5B9C0D3E8F1A27

/-- The word loop of R283 over n words of a key. -/
def mxLoop : Nat → List Byte → Word → Word
  | 0, _, h => h
  | n + 1, key, h =>
    let h1 := (h ^^^ BitVec.ofNat 64 (fieldB key 0 8)) * mxM3
    mxLoop n (key.drop 8) (h1 ^^^ (h1 >>> 29))

/-- MX64 over a key and a seed (R283). -/
def mx64 (key : List Byte) (seed : Word) : Word :=
  let n := key.length
  let h := mxLoop ((n + 7) / 8) key (seed ^^^ (BitVec.ofNat 64 n * mxM1))
  let h := h ^^^ (h >>> 32)
  let h := h * mxM1
  let h := h ^^^ (h >>> 29)
  let h := h * mxM2
  h ^^^ (h >>> 32)

/-- MX64 of one number (R284). -/
def mx64n (x : Nat) : Nat := (mx64 (leBytes 8 x) 0).toNat

/-- CRC32C-extended (R285). -/
def crcx64 (key : List Byte) (seed : Word) : Word :=
  let lo := crcRun 0x82F63B78 (0xFFFFFFFF ^^^ bits seed 31 0) key ^^^ 0xFFFFFFFF
  let hi := crcRun 0x82F63B78 (0xFFFFFFFF ^^^ bits seed 63 32) (key ++ [BitVec.ofNat 8 key.length]) ^^^ 0xFFFFFFFF
  BitVec.ofNat 64 (hi * 2 ^ 32 + lo)

/-- The hash of a family: 0 MX64, 1 CRCX64 (R286). -/
def hashKey (crcFamily : Bool) (key : List Byte) (seed : Word) : Word := if crcFamily then crcx64 key seed else mx64 key seed

/-- n bits of PRBS31 (x^31 + x^28 + 1, R429), the first first, and the register after them. -/
def prbs31 : Nat → BitVec 31 → List Bool × BitVec 31
  | 0, r => ([], r)
  | n + 1, r =>
    let b := (r.getLsbD 30).xor (r.getLsbD 27)
    let rest := prbs31 n ((r <<< 1) ||| (if b then 1 else 0))
    (b :: rest.1, rest.2)

/-- n bits of PRBS13 (x^13 + x^12 + x^2 + x + 1, the generator of PRBS13Q, R435), the first as bit 0, and the register after them. -/
def prbs13 : Nat → BitVec 13 → Nat × BitVec 13
  | 0, r => (0, r)
  | n + 1, r =>
    let b := ((r.getLsbD 12).xor (r.getLsbD 11)).xor ((r.getLsbD 1).xor (r.getLsbD 0))
    let rest := prbs13 n ((r <<< 1) ||| (if b then 1 else 0))
    ((if b then 1 else 0) + 2 * rest.1, rest.2)

/-- Eight bits as a byte, bit 0 first. -/
def byteOfBits (l : List Bool) : Byte :=
  BitVec.ofNat 8 ((l.zipIdx).foldl (fun n p => if p.1 then n + 2 ^ p.2 else n) 0)

/-- n bytes of PRBS31, bit 0 of each first. -/
def prbsBytes : Nat → BitVec 31 → List Byte × BitVec 31
  | 0, r => ([], r)
  | n + 1, r =>
    let p := prbs31 8 r
    let rest := prbsBytes n p.2
    (byteOfBits p.1 :: rest.1, rest.2)

/-- Two byte strings added bit by bit. -/
def xorBytes (a b : List Byte) : List Byte := List.zipWith (fun x y => x ^^^ y) a b

/-- How many bits of a byte string are 1. -/
def onesB (l : List Byte) : Nat := l.foldl (fun n b => n + ((List.range 8).filter (fun i => b.getLsbD i)).length) 0


end Sys2Proof.Machine
end

