-- ==== Sys2Proof/Machine/Float.lean ====
section
/-! DEFINITION. Floating point (R92 to R95, R99): values are exact dyadic numbers, and each operation rounds once, to nearest
with ties to even. A result is its bits and the flags it raises, in the places of FPFLAGS. -/

namespace Sys2Proof.Machine

/-- A binary format: exponent bits and fraction bits (Table 2 of the instruction set). -/
structure Fmt where
  eb : Nat
  mb : Nat
  deriving DecidableEq, Repr

/-- binary16 -/
def fp16 : Fmt := ⟨5, 10⟩
/-- bfloat16 -/
def bf16 : Fmt := ⟨8, 7⟩
/-- binary32 -/
def fp32 : Fmt := ⟨8, 23⟩
/-- binary64 -/
def fp64 : Fmt := ⟨11, 52⟩

/-- FPFLAGS bits (R104, SNUM 0x040). -/
def fInvalid : Nat := 16
/-- FPFLAGS bits (R104, SNUM 0x040). -/
def fDivZero : Nat := 8
/-- FPFLAGS bits (R104, SNUM 0x040). -/
def fOverflow : Nat := 4
/-- FPFLAGS bits (R104, SNUM 0x040). -/
def fUnderflow : Nat := 2
/-- FPFLAGS bits (R104, SNUM 0x040). -/
def fInexact : Nat := 1

/-- A floating-point datum: NaN (and whether it signals), infinity, or the exact value m * 2^e with its sign. -/
inductive FVal where
  | nan (signalling : Bool)
  | inf (neg : Bool)
  | fin (neg : Bool) (m : Nat) (e : Int)
  deriving DecidableEq, Repr

/-- Bits of a format. -/
def Fmt.width (f : Fmt) : Nat := f.eb + f.mb + 1
/-- The least exponent of a normal number. -/
def Fmt.emin (f : Fmt) : Int := 2 - 2 ^ (f.eb - 1)
/-- Positive infinity. -/
def Fmt.infBits (f : Fmt) : Nat := (2 ^ f.eb - 1) * 2 ^ f.mb
/-- The sign bit in place. -/
def Fmt.signBit (f : Fmt) (neg : Bool) : Nat := if neg then 2 ^ (f.eb + f.mb) else 0
/-- The canonical quiet NaN (R94). -/
def Fmt.nanBits (f : Fmt) : Nat := f.infBits + 2 ^ (f.mb - 1)

/-- The datum that bits of a format hold. -/
def unpack (f : Fmt) (b : Nat) : FVal :=
  let neg := (b / 2 ^ (f.eb + f.mb)) % 2 = 1
  let ex := (b / 2 ^ f.mb) % 2 ^ f.eb
  let fr := b % 2 ^ f.mb
  if ex = 2 ^ f.eb - 1 then (if fr = 0 then .inf neg else .nan (fr < 2 ^ (f.mb - 1)))
  else if ex = 0 then .fin neg fr (f.emin - f.mb)
  else .fin neg (fr + 2 ^ f.mb) (f.emin - f.mb + ((ex : Int) - 1))

/-- Whether bits are a NaN. -/
def isNan (f : Fmt) (b : Nat) : Bool := match unpack f b with | .nan _ => true | _ => false

/-- The number of significant bits. -/
def bitLen (m : Nat) : Nat := if m = 0 then 0 else Nat.log2 m + 1

/-- m shifted right by n places, rounded to nearest even, and whether anything was lost. -/
def shiftRne (m n : Nat) : Nat × Bool :=
  if n = 0 then (m, false)
  else
    let q := m / 2 ^ n
    let r := m % 2 ^ n
    let half := 2 ^ (n - 1)
    (if half < r ∨ (r = half ∧ q % 2 = 1) then q + 1 else q, r ≠ 0)

/-- Rounding of the value m * 2^e to a format (R93, R95): tininess is detected after rounding. -/
def roundTo (f : Fmt) (neg : Bool) (m : Nat) (e : Int) : Nat × Nat :=
  if m = 0 then (f.signBit neg, 0)
  else
    let top : Int := e + bitLen m - 1
    let q : Int := if top - f.mb < f.emin - f.mb then f.emin - f.mb else top - f.mb
    let sh : Int := q - e
    let (mant, lost) := if sh ≤ 0 then (m * 2 ^ (-sh).toNat, false) else shiftRne m sh.toNat
    let body := (q - (f.emin - f.mb)).toNat * 2 ^ f.mb + mant
    if f.infBits ≤ body then (f.signBit neg + f.infBits, fOverflow ||| fInexact)
    else
      let wide := (shiftRne m (top - f.mb - e).toNat).1
      let tiny := top < f.emin ∧ ¬ (top = f.emin - 1 ∧ wide = 2 ^ (f.mb + 1))
      (f.signBit neg + body, (if lost then fInexact else 0) ||| (if lost ∧ tiny then fUnderflow else 0))

/-- A NaN result: canonical, INVALID when an operand signals. -/
def nanResult (f : Fmt) (sig : Bool) : Nat × Nat := (f.nanBits, if sig then fInvalid else 0)

/-- Whether a datum is a signalling NaN. -/
def FVal.signals : FVal → Bool
  | .nan s => s
  | _ => false

/-- Whether a datum is a NaN. -/
def FVal.isNaN : FVal → Bool
  | .nan _ => true
  | _ => false

/-- The exact sum of two finite values as an integer at the lower exponent, with that exponent. -/
def exactAdd (n1 : Bool) (m1 : Nat) (e1 : Int) (n2 : Bool) (m2 : Nat) (e2 : Int) : Int × Int :=
  let e := if e1 ≤ e2 then e1 else e2
  let a : Int := ((m1 * 2 ^ (e1 - e).toNat : Nat) : Int)
  let b : Int := ((m2 * 2 ^ (e2 - e).toNat : Nat) : Int)
  ((if n1 then -a else a) + (if n2 then -b else b), e)

/-- The sum of two finite values, rounded once; an exact zero of unlike signs is +0. -/
def addFin (f : Fmt) (n1 : Bool) (m1 : Nat) (e1 : Int) (n2 : Bool) (m2 : Nat) (e2 : Int) : Nat × Nat :=
  let s := exactAdd n1 m1 e1 n2 m2 e2
  if s.1 = 0 then (f.signBit (m1 = 0 ∧ m2 = 0 ∧ n1 = true ∧ n2 = true), 0) else roundTo f (s.1 < 0) s.1.natAbs s.2

/-- Addition of data. -/
def addVal (f : Fmt) (a b : FVal) : Nat × Nat :=
  match a, b with
  | .nan s, y => nanResult f (s || y.signals)
  | x, .nan s => nanResult f (s || x.signals)
  | .inf n1, .inf n2 => if n1 = n2 then (f.signBit n1 + f.infBits, 0) else (f.nanBits, fInvalid)
  | .inf n, _ => (f.signBit n + f.infBits, 0)
  | _, .inf n => (f.signBit n + f.infBits, 0)
  | .fin n1 m1 e1, .fin n2 m2 e2 => addFin f n1 m1 e1 n2 m2 e2

/-- A datum with its sign flipped. -/
def FVal.neg : FVal → FVal
  | .nan s => .nan s
  | .inf n => .inf (!n)
  | .fin n m e => .fin (!n) m e

/-- VFADD (R92). -/
def fAdd (f : Fmt) (a b : Nat) : Nat × Nat := addVal f (unpack f a) (unpack f b)
/-- VFSUB (R92). -/
def fSub (f : Fmt) (a b : Nat) : Nat × Nat := addVal f (unpack f a) (unpack f b).neg

/-- VFMUL (R92). -/
def fMul (f : Fmt) (a b : Nat) : Nat × Nat :=
  match unpack f a, unpack f b with
  | .nan s, y => nanResult f (s || y.signals)
  | x, .nan s => nanResult f (s || x.signals)
  | .inf n1, .inf n2 => (f.signBit (n1.xor n2) + f.infBits, 0)
  | .inf n1, .fin n2 m _ => if m = 0 then (f.nanBits, fInvalid) else (f.signBit (n1.xor n2) + f.infBits, 0)
  | .fin n1 m _, .inf n2 => if m = 0 then (f.nanBits, fInvalid) else (f.signBit (n1.xor n2) + f.infBits, 0)
  | .fin n1 m1 e1, .fin n2 m2 e2 => roundTo f (n1.xor n2) (m1 * m2) (e1 + e2)

/-- VFMA (R92, R95): a * b + c with one rounding; zero times infinity is invalid whatever the addend. -/
def fFma (f : Fmt) (a b c : Nat) : Nat × Nat :=
  let x := unpack f a
  let y := unpack f b
  let z := unpack f c
  let sig := x.signals || y.signals || z.signals
  if x.isNaN || y.isNaN then nanResult f sig
  else
    match x, y with
    | .inf n1, .inf n2 => addVal f (.inf (n1.xor n2)) z
    | .inf n1, .fin n2 m _ => if m = 0 then (f.nanBits, fInvalid) else addVal f (.inf (n1.xor n2)) z
    | .fin n1 m _, .inf n2 => if m = 0 then (f.nanBits, fInvalid) else addVal f (.inf (n1.xor n2)) z
    | .fin n1 m1 e1, .fin n2 m2 e2 => addVal f (.fin (n1.xor n2) (m1 * m2) (e1 + e2)) z
    | _, _ => nanResult f sig

/-- VFDIV (R92): enough quotient bits, with a sticky bit below them. -/
def fDiv (f : Fmt) (a b : Nat) : Nat × Nat :=
  match unpack f a, unpack f b with
  | .nan s, y => nanResult f (s || y.signals)
  | x, .nan s => nanResult f (s || x.signals)
  | .inf _, .inf _ => (f.nanBits, fInvalid)
  | .inf n1, .fin n2 _ _ => (f.signBit (n1.xor n2) + f.infBits, 0)
  | .fin n1 _ _, .inf n2 => (f.signBit (n1.xor n2), 0)
  | .fin n1 m1 e1, .fin n2 m2 e2 =>
    if m2 = 0 then (if m1 = 0 then (f.nanBits, fInvalid) else (f.signBit (n1.xor n2) + f.infBits, fDivZero))
    else if m1 = 0 then (f.signBit (n1.xor n2), 0)
    else
      let k := 2 * f.mb + 8 + bitLen m2
      let n := m1 * 2 ^ k
      roundTo f (n1.xor n2) (2 * (n / m2) + (if n % m2 = 0 then 0 else 1)) (e1 - e2 - k - 1)

/-- The integer square root, one bit after another from bit n down. -/
def isqrt (v : Nat) : Nat → Nat → Nat
  | 0, r => r
  | n + 1, r => if (r + 2 ^ n) * (r + 2 ^ n) ≤ v then isqrt v n (r + 2 ^ n) else isqrt v n r

/-- VFSQRT (R92). -/
def fSqrt (f : Fmt) (a : Nat) : Nat × Nat :=
  match unpack f a with
  | .nan s => nanResult f s
  | .inf n => if n then (f.nanBits, fInvalid) else (f.infBits, 0)
  | .fin n m e =>
    if m = 0 then (f.signBit n, 0)
    else if n then (f.nanBits, fInvalid)
    else
      let k := 2 * f.mb + 8 + (if (e - (2 * f.mb + 8)) % 2 = 0 then 0 else 1)
      let v := m * 2 ^ k
      let r := isqrt v (bitLen v / 2 + 1) 0
      roundTo f false (2 * r + (if r * r = v then 0 else 1)) ((e - k) / 2 - 1)

/-- Fraction bits of the logarithm's fixed point: far more than any of the four formats needs to round once. -/
def logBits : Nat := 448

/-- The series t + t^3/3 + t^5/5 + ... in units of 2^-logBits; n terms from index i on, p the current power. -/
def atanhSum (t2 : Int) : Nat → Nat → Int → Int
  | 0, _, _ => 0
  | n + 1, i, p => p / (2 * i + 1) + atanhSum t2 n (i + 1) (p * t2 / 2 ^ logBits)

/-- ln of a ratio near 1 in units of 2^-logBits. -/
def lnRatio (num den : Int) : Int :=
  let t := (num - den) * 2 ^ logBits / (num + den)
  2 * atanhSum (t * t / 2 ^ logBits) 150 0 t

/-- VFLOG1P (R92): ln(1 + x), rounded once. -/
def fLog1p (f : Fmt) (a : Nat) : Nat × Nat :=
  match unpack f a with
  | .nan s => nanResult f s
  | .inf n => if n then (f.nanBits, fInvalid) else (f.infBits, 0)
  | .fin n m e =>
    if m = 0 then (f.signBit n, 0)
    else
      let s := exactAdd false 1 0 n m e
      if s.1 = 0 then (f.signBit true + f.infBits, fDivZero)
      else if s.1 < 0 then (f.nanBits, fInvalid)
      else if e + 2 * bitLen m + 79 ≤ 0 then
        roundTo f n (if n then m * 2 ^ 81 + 1 else m * 2 ^ 81 - 1) (e - 81)
      else
        let y := s.1.natAbs
        let l := bitLen y
        let up := 2 * y < 3 * 2 ^ (l - 1)
        let k : Int := s.2 + l - (if up then 1 else 0)
        let r := k * lnRatio 2 1 + lnRatio y (2 ^ (if up then l - 1 else l))
        roundTo f (r < 0) (2 * (r.natAbs / 2 ^ 16) + 1) (-(logBits : Int) + 15)

/-- The order of finite or infinite data: less, and equal. -/
def valLt (a b : FVal) : Bool :=
  match a, b with
  | .inf n1, .inf n2 => n1 && !n2
  | .inf n, .fin _ _ _ => n
  | .fin _ _ _, .inf n => !n
  | .fin n1 m1 e1, .fin n2 m2 e2 => (exactAdd n1 m1 e1 (!n2) m2 e2).1 < 0
  | _, _ => false

/-- Numeric equality; -0 equals +0 (R96). -/
def valEq (a b : FVal) : Bool :=
  match a, b with
  | .inf n1, .inf n2 => n1 == n2
  | .fin n1 m1 e1, .fin n2 m2 e2 => (exactAdd n1 m1 e1 (!n2) m2 e2).1 == 0
  | _, _ => false

/-- Whether bits carry a sign. -/
def isNeg (f : Fmt) (b : Nat) : Bool := (b / 2 ^ (f.eb + f.mb)) % 2 = 1

/-- VFMIN and VFMAX (R92 FUNC 4 and 5): the other operand when one is a NaN, -0 below +0. -/
def fMinMax (f : Fmt) (max : Bool) (a b : Nat) : Nat × Nat :=
  let x := unpack f a
  let y := unpack f b
  let fl := if x.signals || y.signals then fInvalid else 0
  if x.isNaN && y.isNaN then (f.nanBits, fl)
  else if x.isNaN then (b, fl)
  else if y.isNaN then (a, fl)
  else
    let aLess := valLt x y || (valEq x y && isNeg f a && !isNeg f b)
    (if aLess == max then b else a, fl)

/-- VFCLAMP (R92 FUNC 11): the smaller of hi and the larger of d and lo. -/
def fClamp (f : Fmt) (d lo hi : Nat) : Nat × Nat :=
  let r := fMinMax f true d lo
  let q := fMinMax f false r.1 hi
  (q.1, r.2 ||| q.2)

/-- The six comparisons of R96, FUNC 0 to 5, with their flags. -/
def fCompare (f : Fmt) (func : Nat) (a b : Nat) : Bool × Nat :=
  let x := unpack f a
  let y := unpack f b
  let nan := x.isNaN || y.isNaN
  let fl := if x.signals || y.signals || (nan && 2 ≤ func) then fInvalid else 0
  let r :=
    if nan then func == 1
    else if func = 0 then valEq x y
    else if func = 1 then !valEq x y
    else if func = 2 then valLt x y
    else if func = 3 then valLt x y || valEq x y
    else if func = 4 then valLt y x
    else valLt y x || valEq x y
  (r, fl)

/-- Conversion between formats (R99). -/
def fConvert (src dst : Fmt) (a : Nat) : Nat × Nat :=
  match unpack src a with
  | .nan s => nanResult dst s
  | .inf n => (dst.signBit n + dst.infBits, 0)
  | .fin n m e => roundTo dst n m e

/-- An integer as a float (R99). -/
def fOfInt (f : Fmt) (v : Int) : Nat × Nat := roundTo f (v < 0) v.natAbs 0

/-- A float rounded to nearest even and saturated to lo .. hi; NaN gives 0 (R99). IEEE 754 makes a value that does not fit
invalid, and has conversions that signal a rounding and ones that do not: this one sets INEXACT (DESIGN CHOICE, log 53). -/
def fToInt (f : Fmt) (lo hi : Int) (a : Nat) : Int × Nat :=
  match unpack f a with
  | .nan _ => (0, fInvalid)
  | .inf n => (if n then lo else hi, fInvalid)
  | .fin n m e =>
    let r := if 0 ≤ e then (m * 2 ^ e.toNat, false) else shiftRne m (-e).toNat
    let v : Int := if n then -((r.1 : Nat) : Int) else ((r.1 : Nat) : Int)
    if v < lo then (lo, fInvalid) else if hi < v then (hi, fInvalid) else (v, if r.2 then fInexact else 0)

/-- The floor of a finite non-negative datum. -/
def fFloor (f : Fmt) (a : Nat) : Nat :=
  match unpack f a with
  | .fin _ m e => if 0 ≤ e then m * 2 ^ e.toNat else m / 2 ^ (-e).toNat
  | _ => 0

/-- key() of R311 for a float of w bits. -/
def fKey (f : Fmt) (a : Nat) : Nat :=
  let w := f.width
  let e := if isNan f a then f.nanBits else a % 2 ^ w
  let e := if e = 2 ^ (w - 1) then 0 else e
  if e / 2 ^ (w - 1) = 1 then 2 ^ w - 1 - e else e + 2 ^ (w - 1)

end Sys2Proof.Machine
end

