-- ==== Sys2Proof/Machine/Operands.lean ====
section
/-! DEFINITION. Element types (R72), the elements and predicates of a vector (R73, R74), and what the vector instructions
compute on elements (R91, R92, R97 to R100, R311). -/

namespace Sys2Proof.Machine

/-- Element width in bits (Table 2 of the instruction set). -/
def tyBits : Nat → Nat
  | 0 => 4
  | 1 => 8
  | 2 => 8
  | 3 => 16
  | 4 => 16
  | 9 => 16
  | 10 => 16
  | 5 => 32
  | 6 => 32
  | 11 => 32
  | _ => 64

/-- Element width in bytes; the two I4 elements of a byte move together (R89). -/
def tyBytes (t : Nat) : Nat := (tyBits t + 7) / 8

/-- TYPE codes 0xD to 0xF are reserved (R72). -/
def tyOk (t : Nat) : Bool := t ≤ 12
/-- Integer types. -/
def tyInt (t : Nat) : Bool := t ≤ 8
/-- Signed integer types. -/
def tySigned (t : Nat) : Bool := t = 0 || t = 1 || t = 3 || t = 5 || t = 7

/-- The format of a floating-point type. -/
def tyFmt : Nat → Option Fmt
  | 9 => some fp16
  | 10 => some bf16
  | 11 => some fp32
  | 12 => some fp64
  | _ => none

/-- Elements per vector. -/
def tyCount (t : Nat) : Nat := 1024 / tyBits t

/-- Element i of w bits (R73). -/
def elemAt (w : Nat) (v : VReg) (i : Nat) : Nat := (v.extractLsb' (i * w) w).toNat

/-- A vector made of elements of w bits, element 0 lowest. -/
def packElems (w : Nat) : List Nat → Nat
  | [] => 0
  | e :: t => e % 2 ^ w + 2 ^ w * packElems w t

/-- The predicate of element i of w bits: the mask bit of its first byte lane (R73). -/
def laneOn (w : Nat) (m : MReg) (i : Nat) : Bool := m.getLsbD (i * w / 8)

/-- Elements of TYPE whose predicate is 1, in order. -/
def activeElems (t : Nat) (m : MReg) : List Nat := (List.range (tyCount t)).filter (fun i => laneOn (tyBits t) m i)

/-- A vector whose active elements are replaced (R74). -/
def mapElems (t : Nat) (m : MReg) (vd : VReg) (f : Nat → Nat) : VReg :=
  BitVec.ofNat 1024 (packElems (tyBits t)
    ((List.range (tyCount t)).map (fun i => if laneOn (tyBits t) m i then f i else elemAt (tyBits t) vd i)))

/-- A vector whose active elements are replaced by results with flags, and the flags of the active elements (R95). -/
def mapFlags (t : Nat) (m : MReg) (vd : VReg) (f : Nat → Nat × Nat) : VReg × Nat :=
  (mapElems t m vd (fun i => (f i).1), (activeElems t m).foldl (fun fl i => fl ||| (f i).2) 0)

/-- An element as a signed or unsigned number of its TYPE. -/
def tyVal (t e : Nat) : Int := if tySigned t then signed (tyBits t) e else (e : Int)

/-- The smallest value of an integer TYPE. -/
def tyMin (t : Nat) : Int := if tySigned t then -((2 ^ (tyBits t - 1) : Nat) : Int) else 0
/-- The largest value of an integer TYPE. -/
def tyMax (t : Nat) : Int := if tySigned t then ((2 ^ (tyBits t - 1) : Nat) : Int) - 1 else ((2 ^ tyBits t : Nat) : Int) - 1

/-- A value brought into the range of an integer TYPE. -/
def saturate (t : Nat) (v : Int) : Nat := wrapInt (tyBits t) (if v < tyMin t then tyMin t else if tyMax t < v then tyMax t else v)

/-- VINT FUNC 0 to 14 on one pair of elements (Table 7). -/
def vintElem (t func a b : Nat) : Nat :=
  let w := tyBits t
  let x := tyVal t a
  let y := tyVal t b
  match func with
  | 0 => (a + b) % 2 ^ w
  | 1 => (a + 2 ^ w - b % 2 ^ w) % 2 ^ w
  | 2 => (a * b) % 2 ^ w
  | 3 => wrapInt w (x * y / ((2 ^ w : Nat) : Int))
  | 4 => if x ≤ y then a else b
  | 5 => if x ≤ y then b else a
  | 6 => a &&& b
  | 7 => a ||| b
  | 8 => a ^^^ b
  | 9 => (a <<< (b % w)) % 2 ^ w
  | 10 => a >>> (b % w)
  | 11 => wrapInt w (signed w a / ((2 ^ (b % w) : Nat) : Int))
  | 12 => saturate t (x + y)
  | 13 => saturate t (x - y)
  | _ => (x - y).natAbs % 2 ^ w

/-- FUNC values that TYPE I4 allows (R91). -/
def vintAllowsI4 (func : Nat) : Bool := func = 0 || func = 1 || (4 ≤ func && func ≤ 8) || func = 15

/-- VFP FUNC 0 to 11 on elements: destination, va, vb (Table 8). -/
def vfpElem (f : Fmt) (func d a b : Nat) : Nat × Nat :=
  match func with
  | 0 => fAdd f a b
  | 1 => fSub f a b
  | 2 => fMul f a b
  | 3 => fDiv f a b
  | 4 => fMinMax f false a b
  | 5 => fMinMax f true a b
  | 6 => fFma f a b d
  | 7 => fSqrt f a
  | 8 => fLog1p f a
  | 9 => (a % 2 ^ (f.eb + f.mb), 0)
  | 10 => (a ^^^ 2 ^ (f.eb + f.mb), 0)
  | _ => fClamp f d a b

/-- A comparison of R96 on two elements, FUNC 0 to 5, with its flags. -/
def vcmpElem (t func a b : Nat) : Bool × Nat :=
  match tyFmt t with
  | some f => fCompare f func a b
  | none =>
    let x := tyVal t a
    let y := tyVal t b
    (match func with
     | 0 => decide (x = y)
     | 1 => decide (x ≠ y)
     | 2 => decide (x < y)
     | 3 => decide (x ≤ y)
     | 4 => decide (y < x)
     | _ => decide (y ≤ x), 0)

/-- The mask that VCMP writes: all lane bits of an element carry its result, 0 for an inactive element (R96). -/
def vcmpMask (t func : Nat) (m : MReg) (va vb : VReg) : MReg × Nat :=
  let w := tyBits t
  let on := (activeElems t m).filter (fun i => (vcmpElem t func (elemAt w va i) (elemAt w vb i)).1)
  (BitVec.ofNat 128 (on.foldl (fun acc i => acc ||| ((2 ^ (w / 8) - 1) <<< (i * (w / 8)))) 0),
   (activeElems t m).foldl (fun fl i => fl ||| (vcmpElem t func (elemAt w va i) (elemAt w vb i)).2) 0)

/-- An element as a 64-bit scalar: sign-extended for signed types, else zero-extended (R97 VEXT). -/
def elemScalar (t e : Nat) : Word := if tySigned t then BitVec.ofInt 64 (signed (tyBits t) e) else BitVec.ofNat 64 e

/-- One level of the tree of R98: results 2j and 2j + 1, an absent one passing the other on, and the flags raised. -/
def treeLevel (f : Fmt) : List (Option Nat) → List (Option Nat) × Nat
  | some a :: some b :: t =>
    let r := treeLevel f t
    (some (fAdd f a b).1 :: r.1, (fAdd f a b).2 ||| r.2)
  | some a :: none :: t => let r := treeLevel f t; (some a :: r.1, r.2)
  | none :: o :: t => let r := treeLevel f t; (o :: r.1, r.2)
  | [o] => ([o], 0)
  | [] => ([], 0)

/-- The tree of R98 over n levels: +0 when nothing is present. -/
def treeSum (f : Fmt) : Nat → List (Option Nat) → Nat × Nat
  | 0, l => ((l.headD none).getD 0, 0)
  | n + 1, l =>
    let p := treeLevel f l
    let r := treeSum f n p.1
    (r.1, p.2 ||| r.2)

/-- VREDSUM, VREDMIN and VREDMAX over the active elements of va (R97 FUNC 11 to 13); `unstated` is the result of a
minimum or maximum over no element, which the spec does not state. -/
def vredElem (t func : Nat) (m : MReg) (va : VReg) (unstated : Word) : Word :=
  let vals := (activeElems t m).map (fun i => tyVal t (elemAt (tyBits t) va i))
  match vals with
  | [] => if func = 11 then 0 else unstated
  | v :: rest =>
    if func = 11 then BitVec.ofInt 64 (rest.foldl (fun a b => a + b) v)
    else if func = 12 then BitVec.ofInt 64 (rest.foldl (fun a b => if b < a then b else a) v)
    else BitVec.ofInt 64 (rest.foldl (fun a b => if a < b then b else a) v)

/-- The value of one element converted from one TYPE to another, with its flags (R99). -/
def convElem (src dst e : Nat) : Nat × Nat :=
  match tyFmt src, tyFmt dst with
  | some f, some g => fConvert f g e
  | some f, none => let r := fToInt f (tyMin dst) (tyMax dst) e; (wrapInt (tyBits dst) r.1, r.2)
  | none, some g => fOfInt g (tyVal src e)
  | none, none => (wrapInt (tyBits dst) (tyVal src e), 0)

/-- The source element of destination element i under R99, none where the destination element is not written: wider
destinations take va[PART·n + i]; otherwise vd[PART·n + i] takes va[i]. -/
def convSource (src dst part i : Nat) : Option Nat :=
  let n := Nat.min (tyCount src) (tyCount dst)
  if tyBits src < tyBits dst then some (part * n + i)
  else if part * n ≤ i ∧ i < part * n + n then some (i - part * n) else none

/-- VCVT over a vector (R99). -/
def vcvtReg (src dst part : Nat) (m : MReg) (vd va : VReg) : VReg × Nat :=
  let get := fun i => (convSource src dst part i).map (fun j => convElem src dst (elemAt (tyBits src) va j))
  (mapElems dst m vd (fun i => match get i with | some r => r.1 | none => elemAt (tyBits dst) vd i),
   (activeElems dst m).foldl (fun fl i => match get i with | some r => fl ||| r.2 | none => fl) 0)

/-- key() of R311 on the bits of an element: identity for unsigned types, sign bit flipped for signed, R311's transform for
floats. -/
def keyOf (t e : Nat) : Nat :=
  match tyFmt t with
  | some f => fKey f e
  | none => if tySigned t then e ^^^ 2 ^ (tyBits t - 1) else e

end Sys2Proof.Machine
end

