-- ==== Sys2Proof/Machine/Flags.lean ====
section
/-! DEFINITION. The sticky bits of FPFLAGS (R95, SNUM 0x040): how operations set them and how a write clears them. -/

namespace Sys2Proof.Machine

/-- A slot whose FPFLAGS has the given bits set besides those it had (R95). -/
def Slot.raise (s : Slot) (fl : Nat) : Slot := { s with fpflags := s.fpflags ||| BitVec.ofNat 64 (fl % 32) }

/-- A W1C register after a write: each 1 clears its bit (R9). -/
def clearOnes (old written : Word) : Word := old &&& ~~~written

end Sys2Proof.Machine
end

