-- ==== Sys2Proof/Machine/Ops.lean ====
section
/-! DEFINITION. The operations that meanings share: reading and writing the parts of the package, registers, retiring and
stalling, counters, the log and interrupts, addresses and regions, and how a Request ends. -/

namespace Sys2Proof.Machine

/-! Parts of the package. -/

/-- Feature Core n (R19). -/
def Chip.core (c : Chip) (n : Nat) : Core := SMap.get Core.reset c.cores n
/-- The package with one core replaced. -/
def Chip.setCore (c : Chip) (n : Nat) (k : Core) : Chip := { c with cores := SMap.set c.cores n k }
/-- Task slot i of a core (R69). -/
def Core.slot (k : Core) (i : Nat) : Slot := SMap.get Slot.reset k.slots i
/-- A core with one slot replaced. -/
def Core.setSlot (k : Core) (i : Nat) (s : Slot) : Core := { k with slots := SMap.set k.slots i s }
/-- The slot at a location. -/
def Chip.slot (c : Chip) (l : Loc) : Slot := (c.core l.fc.toNat).slot l.slot.toNat
/-- The package with the slot at a location replaced. -/
def Chip.setSlot (c : Chip) (l : Loc) (s : Slot) : Chip :=
  c.setCore l.fc.toNat ((c.core l.fc.toNat).setSlot l.slot.toNat s)
/-- Engine e of a core (Table 6 of the instruction set). -/
def Core.engine (k : Core) (e : Nat) : Engine := SMap.get Engine.reset k.engines e
/-- A core with one engine replaced. -/
def Core.setEngine (k : Core) (e : Nat) (g : Engine) : Core := { k with engines := SMap.set k.engines e g }
/-- Stream i of a core (R212). -/
def Core.stream (k : Core) (i : Nat) : Stream := SMap.get Stream.reset k.streams i
/-- A core with one stream replaced. -/
def Core.setStream (k : Core) (i : Nat) (t : Stream) : Core := { k with streams := SMap.set k.streams i t }
/-- Partner port n (R396). -/
def Chip.port (c : Chip) (n : Nat) : Port := SMap.get Port.reset c.ports n
/-- The package with one port replaced. -/
def Chip.setPort (c : Chip) (n : Nat) (p : Port) : Chip := { c with ports := SMap.set c.ports n p }
/-- Window w of a port (R403). -/
def Port.window (p : Port) (w : Nat) : Window := SMap.get Window.reset p.windows w
/-- Window w of port n. -/
def Chip.window (c : Chip) (n w : Nat) : Window := (c.port n).window w
/-- The package with one window replaced. -/
def Chip.setWindow (c : Chip) (n w : Nat) (x : Window) : Chip :=
  c.setPort n { c.port n with windows := SMap.set (c.port n).windows w x }
/-- Sparline link n (R426). -/
def Chip.link (c : Chip) (n : Nat) : Link := SMap.get Link.reset c.links n
/-- The package with one link replaced. -/
def Chip.setLink (c : Chip) (n : Nat) (k : Link) : Chip := { c with links := SMap.set c.links n k }
/-- Power domain d at reset: AUTO is 1 for FC logic (R514). -/
def Domain.initial (d : Nat) : Domain := { Domain.reset with auto := d < 128 && d % 2 = 0 }
/-- Power domain d (R500). -/
def Chip.dom (c : Chip) (d : Nat) : Domain := SMap.get (Domain.initial d) c.pwr.doms d
/-- The package with one power domain replaced. -/
def Chip.setDom (c : Chip) (d : Nat) (x : Domain) : Chip := { c with pwr := { c.pwr with doms := SMap.set c.pwr.doms d x } }
/-- Recipe Slot n (R57). -/
def Rcp.slot (r : Rcp) (n : Nat) : RcpSlot := SMap.get RcpSlot.reset r.slots n
/-- Table t (R258). -/
def Chip.table (c : Chip) (t : Nat) : Table := SMap.get Table.reset c.emb.tables t
/-- The package with one table replaced. -/
def Chip.setTable (c : Chip) (t : Nat) (x : Table) : Chip := { c with emb := { c.emb with tables := SMap.set c.emb.tables t x } }
/-- A Request Context in use. -/
def Chip.ctx (c : Chip) (n : Nat) : Option Ctx := SMap.find c.req.ctxs n
/-- The package with one context replaced. -/
def Chip.setCtx (c : Chip) (n : Nat) (x : Ctx) : Chip := { c with req := { c.req with ctxs := SMap.set c.req.ctxs n x } }
/-- What the package drives out, newest first. -/
def Chip.emit (c : Chip) (o : Out) : Chip := { c with out := o :: c.out }

/-- A value that the spec leaves open. -/
def Chip.free (c : Chip) : Word := Config.freeWord c.freeCtr
/-- The package after one free value was used. -/
def Chip.spend (c : Chip) : Chip := { c with freeCtr := c.freeCtr + 1 }

/-- Whether the Recipe Lock is held (R49). -/
def Chip.locked (c : Chip) : Bool := c.rcp.locked

/-- Whether the blocks outside the AON and MC islands have power and clocks (R548, R549, R551, R599, R603): from TRAINING on. -/
def Chip.hubOn (c : Chip) : Bool :=
  c.rst.por && !c.rst.held && !c.rst.tripped && !c.rst.railsOff && c.rst.phase ≠ .mcBoot && c.rst.phase ≠ .rails

/-! Registers of a slot (R69). -/

/-- A scalar register; x0 reads 0. -/
def Slot.xr (s : Slot) (r : Reg) : Word := if r = 0 then 0 else SMap.get 0 s.x r.toNat
/-- A scalar register written; x0 discards. -/
def Slot.setX (s : Slot) (r : Reg) (v : Word) : Slot := if r = 0 then s else { s with x := SMap.set s.x r.toNat v }
/-- A vector register. -/
def Slot.vr (s : Slot) (r : Reg) : VReg := SMap.get 0 s.v r.toNat
/-- A vector register written. -/
def Slot.setV (s : Slot) (r : Reg) (v : VReg) : Slot := { s with v := SMap.set s.v r.toNat v }
/-- A mask register; m0 reads all ones. -/
def Slot.mr (s : Slot) (r : BitVec 3) : MReg := if r = 0 then BitVec.allOnes 128 else SMap.get 0 s.m r.toNat
/-- A mask register written; m0 discards. -/
def Slot.setM (s : Slot) (r : BitVec 3) (v : MReg) : Slot := if r = 0 then s else { s with m := SMap.set s.m r.toNat v }
/-- The mask register that the low three bits of a register field name (R96, R97). -/
def lowReg (r : Reg) : BitVec 3 := r.setWidth 3

/-! Performance counters (R171, R248). -/

/-- Counter n after n0 more events: a wrap sets its PMWRAP bit and, with its PMIE bit, raises one PMC_WRAP event. -/
def Core.bump (k : Core) (n by_ : Nat) : Core :=
  let v := (SMap.get 0 k.pmc n).toNat + by_
  let k1 := { k with pmc := SMap.set k.pmc n (BitVec.ofNat 48 v) }
  if v < 2 ^ 48 then k1
  else
    { k1 with
      pmwrap := k.pmwrap ||| BitVec.ofNat 16 (2 ^ n),
      pmPending := if k.pmie.getLsbD n ∧ n ∉ k.pmPending then k.pmPending ++ [n] else k.pmPending }

/-- Every counter that selects an event counts it. -/
def Core.count (k : Core) (event by_ : Nat) : Core :=
  ((k.pmsel.filter (fun p => p.1 < 16 ∧ p.2.toNat = event)).map (fun p => p.1)).foldl (fun k n => k.bump n by_) k

/-! Stalling and retiring (R83, R245, R248). -/

/-- The place of a cause in Table 3 of the stall accounting. -/
def Cause.index : Cause → Nat
  | .lateHbm => 0
  | .lateBasin => 1
  | .lateRemote => 2
  | .islandCross => 3
  | .hqEmpty => 4
  | .hqFull => 5
  | .ringEmpty => 6
  | .ringFull => 7
  | .bankConflict => 8
  | .trackerFull => 9
  | .fenceWait => 10
  | .engineBusy => 11
  | .storeDrain => 12

/-- The slot waits on a cause; entering it is one stall episode. The instruction has not acted. -/
def Chip.stallSlot (c : Chip) (l : Loc) (why : Cause) : Chip :=
  let s := c.slot l
  if s.wait = some why then c
  else
    let c1 := c.setSlot l { s with wait := some why, smsg := s.smsg && why ≠ .trackerFull }
    c1.setCore l.fc.toNat ((c1.core l.fc.toNat).count (0x10 + why.index) 1)

/-- The slot's SMSG waits for a tracker (R109). -/
def Chip.stallSmsg (c : Chip) (l : Loc) : Chip :=
  let c1 := c.stallSlot l .trackerFull
  c1.setSlot l { c1.slot l with smsg := true }

/-- An engine waits on a cause. -/
def Chip.stallEngine (c : Chip) (fc e : Nat) (why : Cause) : Chip :=
  let k := c.core fc
  let g := k.engine e
  if g.wait = some why then c
  else c.setCore fc ((k.setEngine e { g with wait := some why }).count (0x10 + why.index) 1)

/-- An instruction retires with its slot's new state and goes on at pc. -/
def Chip.retireAt (c : Chip) (l : Loc) (s : Slot) (pc : Word) (vector : Bool) : Chip :=
  let k := (c.core l.fc.toNat).setSlot l.slot.toNat { s with pc := pc, wait := none }
  let k := k.count 2 1
  c.setCore l.fc.toNat (if vector then k.count 3 1 else k)

/-- An instruction retires and the next word follows. -/
def Chip.retire (c : Chip) (l : Loc) (s : Slot) : Chip := c.retireAt l s (s.pc + 4) false

/-- A vector instruction retires. -/
def Chip.retireVec (c : Chip) (l : Loc) (s : Slot) : Chip := c.retireAt l s (s.pc + 4) true

/-! Interrupts and the log. -/

/-- An MSI-X message on a vector of a port: a masked vector sets its PBA bit (R416). A port whose link is down or that may not
master its bus sends nothing. -/
def Chip.msix (c : Chip) (port vector : Nat) : Chip :=
  let p := c.port port
  let e := SMap.get MsixEntry.reset p.msix vector
  if e.masked then c.setPort port { p with pba := if vector ∈ p.pba then p.pba else vector :: p.pba }
  else if p.linkUp && p.busMaster then c.emit (.msix port e.addr e.data) else c

/-- The Max Payload Size in force at a port (R396). -/
def Port.maxPayload (p : Port) : Nat := 128 * 2 ^ Nat.min 5 p.payload.toNat

/-- Bytes from an address on in parts of at most n bytes. -/
def cutBytes (n : Nat) : Nat → Nat → List Byte → List (Nat × List Byte)
  | 0, _, _ => []
  | fuel + 1, a, l => if l.isEmpty then [] else (a, l.take n) :: cutBytes n fuel (a + n) (l.drop n)

/-- The posted writes of bytes at a bus address, in order, each no larger than the Max Payload Size in force (R396, R419). -/
def Chip.busPosts (c : Chip) (port addr : Nat) (data : List Byte) (relaxed noSnoop : Bool) : List Out :=
  (cutBytes (c.port port).maxPayload data.length addr data).map (fun q => .busWrite port q.1 q.2 relaxed noSnoop)

/-- Bytes written at a bus address. -/
def Chip.busWrites (c : Chip) (port addr : Nat) (data : List Byte) (relaxed noSnoop : Bool) : Chip :=
  { c with out := (c.busPosts port addr data relaxed noSnoop).reverse ++ c.out }

/-- The lowest tag that no outstanding read holds. -/
def Port.freeTag (p : Port) : Nat := ((List.range 257).find? (fun t => p.reads.all (fun r => r.tag ≠ t))).getD 256

/-- A memory read request goes out through a port, one of up to 256 outstanding (R396, R419). -/
def Chip.busAsk (c : Chip) (reader : BusReader) (ctx port addr len : Nat) : Option Chip :=
  let p := c.port port
  if 256 ≤ p.reads.length then none
  else
    let r : BusRead := { tag := p.freeTag, addr := addr, len := len, done := 0, ctx := ctx, reader := reader }
    some ((c.setPort port { p with reads := p.reads ++ [r] }).emit (.busRead port r.tag addr len))

/-- A register of the form [31] EN; [10:0] VECTOR signals its vector. -/
def Chip.signalVec (c : Chip) (port : Nat) (vec : Word) : Chip := if bit vec 31 then c.msix port (bits vec 10 0) else c

/-- A PORT_ERR bit is set; a change from 0 to 1 signals PORT_ERR_VEC (R418). -/
def Chip.portErr (c : Chip) (port i : Nat) : Chip :=
  let p := c.port port
  if p.err.getLsbD i then c
  else (c.setPort port { p with err := p.err ||| BitVec.ofNat 6 (2 ^ i) }).signalVec port p.errVec

/-- An MC_EVENT bit is set; a change from 0 to 1 signals every port's MC_IRQ_VEC and, over I3C, sends an In-Band Interrupt
(R522, R540). -/
def Chip.mcEvent (c : Chip) (i : Nat) : Chip :=
  if c.mc.events.getLsbD i then c
  else
    let c1 := { c with mc := { c.mc with events := c.mc.events ||| BitVec.ofNat 6 (2 ^ i) } }
    (List.range 4).foldl (fun c n => c.signalVec n (SMap.get 0 c.mc.irqVec n)) (c1.emit .inBand)

/-- An entry put into the RAM ring, which has room (R527, R528): the oldest copied entry makes way. -/
def Mc.append (m : Mc) (e : LogEntry) : Mc :=
  let m1 := if m.ram.length < 4096 then m else { m with ram := m.ram.drop 1, copied := m.copied - 1 }
  { m1 with ram := m1.ram ++ [{ e with seq := m.seqNext }], seqNext := m.seqNext + 1 }

/-- Whether the RAM ring has a free place: it is full when 4,096 uncopied entries are in it. -/
def Mc.hasRoom (m : Mc) : Bool := m.ram.length < 4096 || 0 < m.copied

/-- The LOG_GAP entry, when one is due and there is a free place (R528). -/
def Chip.logGap (c : Chip) : Chip :=
  if 0 < c.mc.gapCount ∧ c.mc.hasRoom then
    let e : LogEntry := { seq := 0, tide := c.tide, code := 0x0060, severity := 1, source := 0x44,
                          payload := leBytes 8 c.mc.gapCount }
    { c with mc := { c.mc.append e with gapCount := 0 } }
  else c

/-- An entry raised while the MC runs: kept, or dropped when the ring is full of uncopied entries. -/
def Chip.logNow (c : Chip) (e : LogEntry) : Chip :=
  if c.mc.hasRoom then { c with mc := c.mc.append e }
  else ({ c with mc := { c.mc with logDropped := c.mc.logDropped + 1, gapCount := c.mc.gapCount + 1 } }).mcEvent 3

/-- An event for the log (R527, R528, R544): while the MC restarts it waits at its source. -/
def Chip.log (c : Chip) (code severity source : Nat) (payload : List Byte) : Chip :=
  let e : LogEntry := { seq := 0, tide := c.tide, code := BitVec.ofNat 16 code, severity := BitVec.ofNat 8 severity,
                        source := BitVec.ofNat 8 source, payload := payload }
  if c.mc.running then c.logNow e else { c with mc := { c.mc with held := c.mc.held ++ [e] } }

/-! Geometry and addresses (R113 to R125, R461). -/

/-- A size field of NET_GEOM: values below 3 act as 3 (R489). -/
def geomSize (f : Nat) : Nat := (if f < 3 then 3 else f) + 1
/-- NX. -/
def Chip.nx (c : Chip) : Nat := geomSize (bits c.net.geom 11 8)
/-- NY. -/
def Chip.ny (c : Chip) : Nat := geomSize (bits c.net.geom 7 4)
/-- NZ. -/
def Chip.nz (c : Chip) : Nat := geomSize (bits c.net.geom 3 0)
/-- SELF, this package's number. -/
def Chip.self (c : Chip) : Nat := bits c.net.geom 27 16
/-- The coordinates of a package number (R461). -/
def pkgX (p : Nat) : Nat := p / 256
/-- The coordinates of a package number (R461). -/
def pkgY (p : Nat) : Nat := p / 16 % 16
/-- The coordinates of a package number (R461). -/
def pkgZ (p : Nat) : Nat := p % 16
/-- Whether a number names a package of the installation (R462). -/
def Chip.inGeom (c : Chip) (p : Nat) : Bool := pkgX p < c.nx && pkgY p < c.ny && pkgZ p < c.nz

/-- The rows of the package-local map (Table 2 of the address chapter). -/
inductive Row where
  | hbm | store | pool | selfPool | basin
  deriving DecidableEq, Repr

/-- Where Recipe-use HBM ends. -/
def storeBase : Nat := 0x34C0000000
/-- Where the Recipe Store ends. -/
def storeEnd : Nat := 0x3600000000
/-- Where the Pool windows begin. -/
def poolBase : Nat := 0x10000000000
/-- Where the Self Pool begins. -/
def selfBase : Nat := 0x10100000000
/-- Where the Basin control range begins. -/
def basinBase : Nat := 0x18000000000
/-- The bytes of a Pool. -/
def poolSize : Nat := 0x100000

/-- The row of an offset, none where it is reserved (R116). -/
def rowOf (o : Nat) : Option Row :=
  if o < storeBase then some .hbm
  else if o < storeEnd then some .store
  else if o < poolBase then none
  else if o < poolBase + 64 * poolSize then some .pool
  else if o < selfBase then none
  else if o < selfBase + poolSize then some .selfPool
  else if o < basinBase then none
  else if o < basinBase + 0x200000 then some .basin
  else none

/-- Whether Region Map entry n matches an HBM offset (R123). -/
def Chip.rmapHit (c : Chip) (o n : Nat) : Bool :=
  let base := SMap.get 0 c.rmap (2 * n)
  let ctrl := SMap.get 0 c.rmap (2 * n + 1)
  bit ctrl 0 && bits base 49 12 ≤ o / 4096 && o / 4096 ≤ bits ctrl 49 12

/-- TYPE (0 NC, 1 NS, 2 DS) and WP of an offset of Recipe-use HBM (R123): the lowest matching entry. -/
def Chip.regionOf (c : Chip) (o : Nat) : Nat × Bool :=
  match (List.range 16).find? (fun n => c.rmapHit o n) with
  | none => (0, false)
  | some n =>
    let ctrl := SMap.get 0 c.rmap (2 * n + 1)
    (Nat.min (bits ctrl 5 4) 2, bit ctrl 1)

/-- What an address reaches: the package, none for this one; its offset, a Self Pool offset brought to the core's own window;
its row; its TYPE (3 Pool) and WP. -/
structure Target where
  pkg : Option Nat
  off : Nat
  row : Row
  ty : Nat
  wp : Bool
  deriving DecidableEq, Repr

/-- The target of offset o on this package or another, for an issuer with its own Pool or with none (R116 to R118, R122 to
R125). -/
def Chip.target (c : Chip) (own pkg : Option Nat) (o : Nat) : Option Target :=
  match rowOf o with
  | none => none
  | some .hbm => let r := c.regionOf o; some { pkg := pkg, off := o, row := .hbm, ty := r.1, wp := r.2 }
  | some .store => some { pkg := pkg, off := o, row := .store, ty := 0, wp := true }
  | some .pool => some { pkg := pkg, off := o, row := .pool, ty := 3, wp := false }
  | some .selfPool =>
    match own, pkg with
    | some fc, none => some { pkg := none, off := poolBase + fc * poolSize + (o - selfBase), row := .selfPool, ty := 3, wp := false }
    | _, _ => none
  | some .basin => some { pkg := pkg, off := o, row := .basin, ty := 2, wp := false }

/-- Whether the HUB may write a byte of this package: it lies in HBM or a Pool window, and no region protects it (R117, R118, R124). -/
def Chip.hubTakes (c : Chip) (o : Nat) : Bool :=
  match c.target none none o with
  | some t => (t.row = .hbm || t.row = .pool) && !t.wp
  | none => false

/-- KIND of a Global Address (R113). -/
def gaKind (a : Word) : Nat := bits a 63 62
/-- PACKAGE of a Global Address. -/
def gaPkg (a : Word) : Nat := bits a 61 50
/-- OFFSET of a Global Address. -/
def gaOff (a : Word) : Nat := bits a 49 0

/-- The package that a Global Address of KIND 0 or 1 reaches: none inside for this one; none when it reaches nothing (R113,
R114). -/
def Chip.gaTo (c : Chip) (a : Word) : Option (Option Nat) :=
  if gaKind a = 0 then some none
  else if gaKind a = 1 then
    (if gaPkg a = c.self then some none else if c.inGeom (gaPkg a) then some (some (gaPkg a)) else none)
  else none

/-- Where a row of the map or a region of the Region Map may begin (Table 2 of the address chapter, R123). -/
def Chip.regionStarts (c : Chip) : List Nat :=
  [storeBase, storeEnd, poolBase, poolBase + 64 * poolSize, selfBase, selfBase + poolSize, basinBase, basinBase + 0x200000] ++
    (List.range 16).flatMap (fun n =>
      [bits (SMap.get 0 c.rmap (2 * n)) 49 12 * 4096, (bits (SMap.get 0 c.rmap (2 * n + 1)) 49 12 + 1) * 4096])

/-- Offsets of an access of n bytes that lie in every row and region that it touches: its first and last byte, and where it is longer
than a block of 4 KiB each place at which a row or region begins. -/
def Chip.probes (c : Chip) (o n : Nat) : List Nat :=
  (o + n - 1) :: (if n ≤ 4096 then [] else c.regionStarts.filter (fun p => o < p && p < o + n))

/-- Whether a byte lies in the row and type of an access's first byte, and may be written if the access writes (R117, R124, R128). -/
def Target.fits (t : Target) (write : Bool) : Option Target → Bool
  | some u => t.row = u.row && t.ty = u.ty && !(write && (t.wp || u.wp))
  | none => false

/-- An access of n bytes (R117, R118, R124, R128): every byte lies in one row and one type, no byte in a reserved offset, and a
store reaches neither WP nor the Recipe Store. -/
def Chip.access (c : Chip) (own : Option Nat) (a : Word) (n : Nat) (write : Bool) : Option Target :=
  match c.gaTo a with
  | none => none
  | some pkg =>
    match c.target own pkg (gaOff a) with
    | some t => if (c.probes (gaOff a) n).all (fun p => t.fits write (c.target own pkg p)) then some t else none
    | none => none

/-- An effective address (R76): the offset is added within bits [49:0]. -/
def effAddr (base offset : Word) : Word :=
  BitVec.ofNat 64 (bits base 63 50 * 2 ^ 50 + (gaOff base + offset.toNat) % 2 ^ 50)

/-- Whether n bytes at an address lie in a core's own Pool, reached through the Self Pool or through its own window (R84, R118,
R165). -/
def Chip.inOwnPool (c : Chip) (fc : Nat) (a : Word) (n : Nat) : Bool :=
  match c.access (some fc) a n true with
  | some t => t.pkg = none && t.ty = 3 && poolBase + fc * poolSize ≤ t.off && t.off + n ≤ poolBase + fc * poolSize + poolSize
  | none => false

/-- Whether a Pool address of this package is named: n bytes in one Pool window, or in the Self Pool of the issuer. -/
def Chip.inPools (c : Chip) (own : Option Nat) (a : Word) (n : Nat) : Bool :=
  match c.access own a n true with
  | some t => t.pkg = none && t.ty = 3
  | none => false

/-- The local offset that an address of this package has after R118. -/
def Chip.localOff (c : Chip) (own : Option Nat) (a : Word) : Nat :=
  match c.access own a 1 false with
  | some t => t.off
  | none => 0

/-- An instruction can be fetched from the Recipe Store of this package, on a 4-byte boundary (R70, R107, R117, R121). -/
def Chip.fetchable (c : Chip) (a : Word) : Bool :=
  match c.gaTo a with
  | some none => rowOf (gaOff a) = some .store && gaOff a % 4 = 0
  | _ => false

/-- The HBM channel of an offset (R119). -/
def channelOf (o : Nat) : Nat := o / 4096 % 96
/-- The home Basin slice of an offset: 0 to 15 on CD0, 16 to 31 on CD1 (R18, R119). -/
def sliceOf (o : Nat) : Nat := (if channelOf o < 48 then 0 else 16) + o / 256 % 16

/-- Why an access to an offset of this package must wait for a power domain, if it must (R504). -/
def Chip.homeWait (c : Chip) (t : Target) : Option Cause :=
  if t.row = .hbm ∨ t.row = .store then
    let on := fun d => (c.dom d).state = .run || (c.dom d).state = .turningOff
    if !on (128 + sliceOf t.off) then some .lateBasin
    else if !(on (160 + 2 * (channelOf t.off / 16)) && on (161 + 2 * (channelOf t.off / 16))) then some .lateHbm
    else none
  else none

/-! Memory of this package. -/

/-- The bytes of this package from an offset on. -/
def Chip.bytes (c : Chip) (o : Nat) : Nat → List Byte
  | 0 => []
  | n + 1 => Mem.read c.mem o :: Chip.bytes c (o + 1) n

/-- Bytes paired with their offsets. -/
def cellsAt : Nat → List Byte → List (Nat × Byte)
  | _, [] => []
  | o, b :: t => (o, b) :: cellsAt (o + 1) t

/-- The core whose Pool an offset lies in. -/
def poolCore (o : Nat) : Option Nat := if poolBase ≤ o ∧ o < poolBase + 64 * poolSize then some ((o - poolBase) / poolSize) else none

/-- A reach into the Pool of a core that is Off powers the Pool domain on by itself (R505). -/
def Chip.wakePool (c : Chip) (o : Nat) : Chip :=
  match poolCore o with
  | none => c
  | some n =>
    if (c.dom (2 * n + 1)).state = .off then
      let c1 := c.setDom (2 * n + 1) { c.dom (2 * n + 1) with state := .run }
      { c1 with pwr := { c1.pwr with poolAlone := n :: c1.pwr.poolAlone } }
    else c

/-- Writes performed at their homes on this package (R116, R145): the Basin control range takes nothing, and every reservation
on a granule written is lost. -/
def Chip.put (c : Chip) (cells : List (Nat × Byte)) : Chip :=
  let real := cells.filter (fun p => p.1 < basinBase)
  { c with
    mem := Mem.writeAll c.mem real,
    rsvs := c.rsvs.filter (fun r => !(real.any (fun p => p.1 / 256 = r.2.2))) }

/-- One write of n bytes at an offset of this package. -/
def Chip.putAt (c : Chip) (o : Nat) (data : List Byte) : Chip := (c.wakePool o).put (cellsAt o data)

/-! The store buffer (R130 to R132). -/

/-- The place of an address in one order over all packages, aliases brought together (R148). -/
def Target.key (t : Target) : Nat := t.off + 2 ^ 50 * (match t.pkg with | none => 0 | some p => p + 1)

/-- The place of a buffered store. -/
def Chip.entryKey (c : Chip) (fc : Nat) (e : SbEntry) : Nat :=
  match c.access (some fc) e.addr 1 false with
  | some t => t.key
  | none => 0

/-- The buffered stores of a slot that touch n bytes at a place, oldest first. -/
def Chip.sbOverlap (c : Chip) (fc slot key n : Nat) : List SbEntry :=
  ((c.core fc).storeBuf).filter (fun e => e.slot = slot && c.entryKey fc e < key + n && key < c.entryKey fc e + e.size)

/-- Whether the store buffer holds an entry of a slot. -/
def Core.sbHolds (k : Core) (slot : Nat) : Bool := k.storeBuf.any (fun e => e.slot = slot)

/-- What a slot's load of n bytes finds in the store buffer: nothing, the value, or that it must wait (R130, R131). -/
inductive Forward where
  | memory | value (v : Nat) | wait
  deriving DecidableEq, Repr

/-- The youngest buffered store that the load overlaps serves it if the load lies wholly within it (R130, R131). -/
def Chip.forward (c : Chip) (fc slot key n : Nat) : Forward :=
  match (c.sbOverlap fc slot key n).getLast? with
  | none => .memory
  | some e =>
    let k := c.entryKey fc e
    if k ≤ key ∧ key + n ≤ k + e.size then .value (e.data.toNat / 2 ^ (8 * (key - k)) % 2 ^ (8 * n)) else .wait

/-- A byte of this package as a slot sees it: its own buffered stores in order over memory (R130, R134). -/
def Chip.slotByte (c : Chip) (fc slot o : Nat) : Byte :=
  match (c.sbOverlap fc slot o 1).getLast? with
  | none => Mem.read c.mem o
  | some e => BitVec.ofNat 8 (e.data.toNat / 2 ^ (8 * (o - c.entryKey fc e)))

/-- Bytes of this package as a slot sees them. -/
def Chip.slotBytes (c : Chip) (fc slot o : Nat) : Nat → List Byte
  | 0 => []
  | n + 1 => c.slotByte fc slot o :: Chip.slotBytes c fc slot (o + 1) n

/-! Transaction trackers (R219). -/

/-- The lowest tracker number that is free. -/
def Core.freeTrk (k : Core) : Nat :=
  ((List.range (k.trks.length + 1)).find? (fun i => !(k.trks.any (fun t => t.id = i)))).getD 0

/-- The trackers in use: a Short Message to the own Pool takes none. -/
def Core.trksUsed (k : Core) : Nat := (k.trks.filter (fun t => t.kind ≠ .ownMessage)).length

/-- Whether a slot may take n more trackers: the core holds at most 1,024. -/
def Core.slotTrackers (k : Core) (n : Nat) : Bool := k.trksUsed + n ≤ 1024

/-- Whether an engine may take n more trackers: 64 are kept for the task slots. -/
def Core.engineTrackers (k : Core) (n : Nat) : Bool :=
  (k.trks.filter (fun t => match t.holder with | .engine _ => true | _ => false)).length + n ≤ 960 && k.slotTrackers n

/-- Whether a slot has transactions without answer. -/
def Core.slotOutstanding (k : Core) (slot : Nat) : Bool := k.trks.any (fun t => t.holder = .slot slot)
/-- Whether an engine has transactions without answer. -/
def Core.engineOutstanding (k : Core) (e : Nat) : Bool := k.trks.any (fun t => t.holder = .engine e)

/-- The first command of an engine that has not done its work (R205): what is asked and answered is its. -/
def Engine.inWork (g : Engine) : Option EngCmd := g.queue.find? (fun x => x.phase = .queued || x.phase = .started)

/-- The stream against whose LIMIT a holder's transaction counts: that of an engine's command in work (R219). -/
def Core.streamOf (k : Core) : Holder → Option Nat
  | .engine e => (k.engine e).inWork.map (fun x => fieldB x.bytes 2 1 % 64)
  | _ => none

/-! Traffic at this package's memory (R219, R241). -/

/-- The requester number of a holder: sixteen numbers for each core, then the units of the HUB; other packages come last (DESIGN CHOICE,
log 31). -/
def requesterOf (fc : Nat) : Holder → Nat
  | .slot k => fc * 16 + k
  | .engine e => fc * 16 + 8 + e
  | .gone => fc * 16 + 15
  | .text => 1024
  | .video => 1025

/-- The requester number of another package. -/
def farRequester (pkg : Nat) : Nat := 2048 + pkg

/-- An access waits at an arbiter. -/
def Chip.queueAt (c : Chip) (a : Nat) (w : Waiting) : Chip :=
  let q := c.traffic
  { c with traffic := { q with
      arrivals := q.arrivals + 1,
      waiting := SMap.set q.waiting a (SMap.get [] q.waiting a ++ [{ w with arrival := q.arrivals }]) } }

/-- An access reaches an offset of this package: a Pool that is off wakes (R505), and an access to HBM or the Recipe Store waits at the arbiter
of its home Basin slice (R119, R241). -/
def Chip.memAccess (c : Chip) (requester cls : Nat) (tag : Option Word) (o : Nat) : Chip :=
  if o < storeEnd then c.queueAt (96 + sliceOf o) { emptyAt := tag, cls := cls, arrival := 0, requester := requester, off := o }
  else c.wakePool o

/-- Whether a core may begin an access to an offset of this package: one beyond its own Pool takes a tracker, for as long as it lasts (R219). -/
def Core.mayReach (k : Core) (fc o : Nat) : Bool := poolCore o = some fc || k.slotTrackers 1

/-- A core's access to an offset of this package: beyond its own Pool it is a transaction, which is counted (R219, R248). -/
def Chip.here (c : Chip) (fc : Nat) (who : Holder) (write : Bool) (tag : Option Word) (o : Nat) : Chip :=
  if poolCore o = some fc then c.wakePool o
  else
    let k := (c.core fc).count 0x30 1
    (c.setCore fc (if tag.isSome then k.count 0x34 1 else k)).memAccess (requesterOf fc who) (if write then 1 else 0) tag o

/-- Accesses of a core to offsets of this package, one after another. -/
def Chip.heres (c : Chip) (fc : Nat) (who : Holder) (write : Bool) (tag : Option Word) (offs : List Nat) : Chip :=
  offs.foldl (fun c o => c.here fc who write tag o) c

/-! How a Request ends (R38, R163, R170, R223, R230, R231). -/

/-- DETAIL of the form SOURCE, CAUSE (R38). -/
def detailOf (source cause : Nat) : BitVec 32 := BitVec.ofNat 32 (source * 2 ^ 24 + cause % 2 ^ 24)

/-- DETAIL of ABORT_REMOTE: package number and whether it was refused by lock tag (Table 3). -/
def detailRemote (pkg : Nat) (byTag : Bool) : BitVec 32 := BitVec.ofNat 32 (pkg % 4096 + if byTag then 4096 else 0)

/-- A completion waits for its entry in a window's ring (R412). -/
def Chip.pushCpl (c : Chip) (port w : Nat) (i : CplItem) : Chip :=
  let x := c.window port w
  c.setWindow port w { x with cplQ := x.cplQ ++ [i] }

/-- A Request ends with a status; the first end counts, and a Request whose delivery has begun ends normally (R34, R54). -/
def Chip.endReq (c : Chip) (ctx : Nat) (status : Nat) (detail : BitVec 32) : Chip :=
  match c.ctx ctx with
  | none => c
  | some x =>
    if x.ended.isSome || x.delivering then c
    else (c.setCtx ctx { x with ended := some (BitVec.ofNat 8 status, detail) }).pushCpl x.port x.window (.request ctx)

/-- The handles of a Request leave a Handle Queue (R223). -/
def purgeHq (ctx : Nat) (q : List Handle) : List Handle := q.filter (fun h => h.ctx ≠ some ctx)

/-- An engine under KILL (R231): queued commands of the Request go; one whose writes are outstanding stays until they land. -/
def Core.killEngine (k : Core) (ctx e : Nat) : Core :=
  let g := k.engine e
  let stays := fun (x : EngCmd) => x.phase = .worked ∧ k.engineOutstanding e = true
  let q := g.queue.filter (fun x => x.ctx ≠ ctx ∨ stays x)
  let hit := g.inWork.any (fun x => x.ctx = ctx)
  let head := g.queue.head?.any (fun x => x.ctx = ctx)
  k.setEngine e { g with
    queue := q.map (fun x => if x.ctx = ctx then { x with killed := true } else x),
    got := if hit then [] else g.got,
    asked := if hit then [] else g.asked,
    wait := if hit || head then none else g.wait }

/-- Whether an engine of a core still holds a command that a slot issued. -/
def Core.slotCommands (k : Core) (slot : Nat) : Bool :=
  (List.range 6).any (fun e => (k.engine e).queue.any (fun x => x.slot = slot))

/-- A slot under KILL: it stops issuing, and is free once its engine commands have stopped (R170). A slot in Double Fault is
left to the Management Controller (R177). -/
def Core.killSlot (k : Core) (ctx i : Nat) : Core :=
  let s := k.slot i
  match s.task with
  | some t =>
    if t.ctx = ctx ∧ s.doubleFault = false then
      (if k.slotCommands i then k.setSlot i { s with stopped := true, wait := none, pend := none, swGot := [] } else k.setSlot i Slot.reset)
    else k
  | none => k

/-- A core under KILL: engines, slots, handles, and its outstanding reads, whose data is discarded when it comes; the trackers of slice
reads, which no answer names, are free at once. -/
def Core.kill (k : Core) (ctx : Nat) : Core :=
  let k1 := (List.range 6).foldl (fun k e => k.killEngine ctx e) k
  let k2 := (List.range 8).foldl (fun k i => k.killSlot ctx i) k1
  { k2 with
    frameQ := k2.frameQ.filter (fun e => e.ctx ≠ ctx),
    hqs := k2.hqs.map (fun p => (p.1, purgeHq ctx p.2)),
    trks := (k2.trks.filter (fun t => t.ctx ≠ ctx ∨ t.addr < 2 ^ 100)).map (fun t =>
      if t.ctx = ctx ∧ (t.kind = .read ∨ t.kind = .reserve ∨ t.kind = .storeCond) then { t with holder := .gone } else t) }

/-- The handles of a Request leave every Handle Queue of the package (R223). -/
def Chip.purgeHandles (c : Chip) (ctx : Nat) : Chip :=
  { c with
    cores := c.cores.map (fun p => (p.1, { p.2 with hqs := p.2.hqs.map (fun q => (q.1, purgeHq ctx q.2)) })),
    dieHqs := c.dieHqs.map (fun p => (p.1, purgeHq ctx p.2)) }

/-- KILL reaches every task, engine command, waiting text job and decode unit of a Request (R46, R170, R223, R231). -/
def Chip.killReq (c : Chip) (ctx : Nat) : Chip :=
  { c with
    cores := c.cores.map (fun p => (p.1, p.2.kill ctx)),
    dieHqs := c.dieHqs.map (fun p => (p.1, purgeHq ctx p.2)),
    txu := { c.txu with jobs := c.txu.jobs.filter (fun j => j.ctx ≠ ctx) },
    vid := { c.vid with
      jobs := c.vid.jobs.filter (fun j => j.ctx ≠ ctx),
      units := c.vid.units.filter (fun u => u.ctx ≠ ctx) },
    req := { c.req with placeQ := c.req.placeQ.filter (fun p => p.1 ≠ ctx) },
    ports := c.ports.map (fun p => (p.1, { p.2 with reads := p.2.reads.map (fun r => if r.ctx = ctx then { r with reader := .gone } else r) })) }

/-! Quiesce (R53). -/

/-- Whether nothing of a core's tasks, engine commands, stores and remote operations is left. -/
def Core.atRest (k : Core) : Bool :=
  k.slots.all (fun p => p.2.task.isNone) && k.engines.all (fun p => p.2.queue.isEmpty) && k.storeBuf.isEmpty && k.frameQ.isEmpty && k.trks.isEmpty

/-- Whether QUIESCED holds: QUIESCE_REQ is 1 and no context, task, engine command or remote operation remains (R53). -/
def Chip.atRest (c : Chip) : Bool := bit c.req.control 0 && c.req.ctxs.isEmpty && c.cores.all (fun p => p.2.atRest)

/-- QUIESCED follows its condition; where it is reached, RQT_EVENT says so (R53, R57). -/
def Chip.checkQuiesced (c : Chip) : Chip :=
  let q := c.atRest
  { c with req := { c.req with
      quiesced := q, events := if q && !c.req.quiesced then c.req.events ||| 2 else c.req.events } }

/-! Exceptions (R153 to R168). -/

/-- XCAUSE (Table 2): INT, FETCH, INFO and CODE. -/
def xcauseOf (int fetch : Bool) (info code : Nat) : Word :=
  BitVec.ofNat 64 ((if int then 2 ^ 63 else 0) + (if fetch then 2 ^ 20 else 0) + info * 256 + code)

/-- ILLEGAL. -/
def xIllegal : Word := xcauseOf false false 0 1
/-- ALIGN_FAULT. -/
def xAlign : Word := xcauseOf false false 0 2
/-- MEM_FAULT on data. -/
def xMem : Word := xcauseOf false false 0 3
/-- MEM_FAULT on fetch. -/
def xFetch : Word := xcauseOf false true 0 3

/-- DEPTH of XSTATUS (Table 4). -/
def depthOf (x : Word) : Nat := bits x 11 8

/-- The end of a task by an exception (R160, R163): the slot stops and the Request completes with the status of Table 5. -/
def Chip.excEnd (c : Chip) (l : Loc) (cause : Word) : Chip :=
  let s := c.slot l
  match s.task with
  | none => c
  | some t =>
    let code := bits cause 7 0
    (c.setSlot l { s with stopped := true, wait := none }).endReq t.ctx (if code = 2 ∨ code = 3 then 0x10 else 0x14)
      (detailOf l.fc.toNat (bits cause 23 0))

/-- The Request of a slot's task, 0 where none holds it. -/
def Slot.ctxNum (s : Slot) : Nat := match s.task with | some t => t.ctx | none => 0

/-- Where a register of the Core Fault Record entry of a slot is kept (R169). -/
def cfrKey (l : Loc) (i : Nat) : Nat := l.fc.toNat * 64 + l.slot.toNat * 8 + i

/-- Double Fault (R166, R167): the slot stops, writes nothing to memory, and its Core Fault Record entry is filled. -/
def Chip.doubleFault (c : Chip) (l : Loc) (reason : Nat) (cause epc addr : Word) : Chip :=
  let s := c.slot l
  let state : Word := BitVec.ofNat 64 (2 ^ 63 + reason * 2 ^ 16 + depthOf s.xstatus * 256 + bits cause 7 0)
  let put := fun m i v => SMap.set m (cfrKey l i) v
  let ctx : Word := BitVec.ofNat 64 s.ctxNum
  let c1 := c.setSlot l { s with stopped := true, doubleFault := true, wait := none }
  { c1 with cfr := put (put (put (put (put (put c1.cfr 0 state) 1 epc) 2 cause) 3 addr) 4 s.xsp) 5 ctx }

/-- The frame of Table 6 of the exceptions chapter, as sixteen 8-byte values. -/
def frameWords (s : Slot) (cause epc addr : Word) : List Word :=
  [epc, cause, addr, s.xstatus, s.fpflags, s.swpShift, s.bsrchBase, s.bsrchEdges] ++
    (List.range 8).map (fun i => s.xr (BitVec.ofNat 5 (i + 1)))

/-- Sixteen 8-byte stores of a slot, in order (R165). -/
def frameStores (slot ctx : Nat) : Word → List Word → List SbEntry
  | _, [] => []
  | a, v :: t => { slot := slot, addr := a, size := 8, data := v, strict := false, sent := false, trk := 0, ctx := ctx } ::
    frameStores slot ctx (a + 8) t

/-- Whether a frame address is valid (R165). -/
def Chip.frameOk (c : Chip) (fc : Nat) (f : Word) : Bool := f.toNat % 128 = 0 && c.inOwnPool fc f 128

/-- The slot's state as its handler begins (R161): exception registers, XSP, DEPTH and IE, pc, and no reservation (R145). The entry of the
reservation at its home slice, of which the slice is not told, stays there until a later event takes it (DESIGN CHOICE, log 14). -/
def Slot.enter (s : Slot) (cause epc addr : Word) : Slot :=
  { s with
    xcause := cause, xepc := epc, xaddr := addr, xsp := s.xsp - 128,
    xstatus := setBits (setBits s.xstatus 8 4 (depthOf s.xstatus + 1)) 0 1 0,
    pc := s.xvec &&& ~~~(3 : Word), rsv := none, wait := none, swGot := [] }

/-- Frame stores enter the store buffer as it has room for them, 16 entries in all; a slot whose frame is in goes on (R130, R131, R165). -/
def Core.refill (k : Core) : Core :=
  let q := k.storeBuf ++ k.frameQ
  let left := q.drop 16
  let goes := fun (i : Nat) (s : Slot) => s.pend.any (fun p => p.dst = .frame) && !(left.any (fun e => e.slot = i))
  { k with
    storeBuf := q.take 16, frameQ := left,
    slots := k.slots.map (fun p => (p.1, if goes p.1 p.2 then { p.2 with pend := none, wait := none } else p.2)) }

/-- A slot puts the stores of its frame into the store buffer; while some find it full, the slot waits (R131, R165). -/
def Chip.pushFrame (c : Chip) (l : Loc) (frame : List SbEntry) : Chip :=
  let k := c.core l.fc.toNat
  let q := k.storeBuf ++ k.frameQ ++ frame
  let k1 := { k with storeBuf := q.take 16, frameQ := q.drop 16 }
  let waits := { c.slot l with wait := some .storeDrain, pend := some { dst := .frame, want := [], got := [] } }
  c.setCore l.fc.toNat (if q.drop 16 = [] then k1 else (k1.setSlot l.slot.toNat waits).count (0x10 + Cause.storeDrain.index) 1)

/-- Taking an exception or interrupt (R160, R161, R166). The record of a handler that cannot be fetched holds the exception that was being
taken, not the fault of that fetch (DESIGN CHOICE, log 11). -/
def Chip.exc (c : Chip) (l : Loc) (cause epc addr : Word) : Chip :=
  let s := c.slot l
  let f := s.xsp - 128
  if s.xvec &&& ~~~(3 : Word) = 0 then c.excEnd l cause
  else if !c.frameOk l.fc.toNat f then c.doubleFault l 1 cause epc addr
  else if depthOf s.xstatus = 15 then c.doubleFault l 2 cause epc addr
  else
    let frame := frameStores l.slot.toNat s.ctxNum f (frameWords s cause epc addr)
    let c1 := (c.setSlot l (s.enter cause epc addr)).pushFrame l frame
    if c.fetchable (s.xvec &&& ~~~(3 : Word)) then c1 else c1.doubleFault l 3 cause epc addr

/-- An exception of the instruction at pc (Table 3 of the exceptions chapter). -/
def Chip.fault (c : Chip) (l : Loc) (cause addr : Word) : Chip := c.exc l cause (c.slot l).pc addr

/-- The slot goes on at an address; one that cannot be fetched raises MEM_FAULT at the target (R107). -/
def Chip.landed (c : Chip) (l : Loc) : Chip :=
  let pc := (c.slot l).pc
  if c.fetchable pc then c else c.exc l xFetch pc pc

/-- Whether a core's clock runs for its tasks: in Run, or draining towards Freewheel or Off (R502, R503). -/
def Chip.fcRuns (c : Chip) (fc : Nat) : Bool :=
  let d := c.dom (2 * fc)
  d.state = .run || (d.state = .turningOff && !d.begun)

/-- An instruction issues from a slot: one that holds a task, has not stopped and waits for no answer, on a core that runs. A pc
that cannot be fetched takes the fault of R107 in its place. Any other slot issues nothing. -/
def Chip.issue (c : Chip) (l : Loc) (f : Slot → Chip) : Chip :=
  let s := c.slot l
  if s.task.isSome && !s.stopped && s.pend.isNone && c.fcRuns l.fc.toNat then
    (if c.fetchable s.pc then f s else c.exc l xFetch s.pc s.pc)
  else c

/-- HBM_UNCORR is logged for an uncorrectable error in data of an address of this package's HBM (Table 3 of the Management chapter). -/
def Chip.logUncorr (c : Chip) (own : Option Nat) (a : Word) (ctx : Nat) : Chip :=
  match c.access own a 1 false with
  | some t =>
    if t.pkg = none ∧ (t.row = .hbm ∨ t.row = .store) then
      c.log 0x0011 2 (0x70 + channelOf t.off / 16) (leBytes 8 t.off ++ leBytes 4 (2 ^ 31 + ctx) ++ [BitVec.ofNat 8 (channelOf t.off)])
    else c
  | none => c

/-- An uncorrectable error met by a slot's access at an address (R157): its Request ends with ABORT_ECC. -/
def Chip.slotEcc (c0 : Chip) (l : Loc) (a : Word) : Chip :=
  let s := c0.slot l
  let c := c0.logUncorr (some l.fc.toNat) a s.ctxNum
  (c.setSlot l { s with stopped := true, wait := none }).endReq s.ctxNum 0x11 (detailOf l.fc.toNat 0x40)

/-- An error of the command at the head of an engine (R208, R230): the Request ends. -/
def Chip.engineError (c : Chip) (fc e : Nat) (x : EngCmd) (status code : Nat) : Chip :=
  c.endReq x.ctx status (detailOf fc (2 ^ 23 + e * 2 ^ 20 + x.seq.toNat % 4096 * 256 + code))

end Sys2Proof.Machine
end

