-- ==== Sys2Proof/Machine/Fec.lean ====
section
/-! DEFINITION. What a codeword is on the wire (R428): its header, its message symbols, the parity of RS(544,514) over GF(2^10), and the
PAM4 levels of its eight lanes. -/

namespace Sys2Proof.Machine

/-- A symbol of GF(2^10) times x: the field of IEEE 802.3 Clause 91, with x^10 + x^3 + 1. -/
def gfX (a : Nat) : Nat := if a < 512 then 2 * a else (2 * a) ^^^ 0x409

/-- The product of two symbols over n bits of the second. -/
def gfMul : Nat → Nat → Nat → Nat
  | 0, _, _ => 0
  | n + 1, a, b => (if b % 2 = 1 then a else 0) ^^^ gfMul n (gfX a) (b / 2)

/-- The product of the factors x + α^j for j below n, without its leading 1, highest degree first. -/
def rsGenerator : Nat → List Nat
  | 0 => []
  | n + 1 =>
    let p := rsGenerator n
    let root := (List.range n).foldl (fun a _ => gfX a) 1
    List.zipWith (fun a b => a ^^^ gfMul 10 root b) (p ++ [0]) (1 :: p)

/-- One message symbol enters the encoder. -/
def rsStep (g r : List Nat) (m : Nat) : List Nat :=
  let f := m ^^^ r.headD 0
  List.zipWith (fun a b => a ^^^ gfMul 10 f b) (r.drop 1 ++ [0]) g

/-- The 30 parity symbols of a message, whose first symbol is the coefficient of highest degree. -/
def rsParity (msg : List Nat) : List Nat := msg.foldl (rsStep (rsGenerator 30)) (List.replicate 30 0)

/-- The 20-bit codeword header (Table 1). -/
def codewordHeader (kind : BitVec 2) (num : Byte) : Nat := kind.toNat * 2 ^ 18 + num.toNat * 2 ^ 10

/-- The 514 message symbols: the header's bits, then those of the five slots, ten to a symbol. -/
def messageSymbols (kind : BitVec 2) (num : Byte) (slots : List (List Byte)) : List Nat :=
  let m := codewordHeader kind num + leNat (slots.flatMap (fun s => sliceB s 0 128)) * 2 ^ 20
  (List.range 514).map (fun k => (m >>> (10 * k)) % 1024)

/-- The PAM4 level of two bits, the one sent first in front: the Gray code of Clause 120. -/
def pamLevel (a b : Bool) : BitVec 2 := if a then (if b then 2 else 3) else (if b then 1 else 0)

/-- The five levels of a symbol, its least significant bit pair first. -/
def symbolLevels (s : Nat) : List (BitVec 2) := (List.range 5).map (fun i => pamLevel (s.testBit (2 * i)) (s.testBit (2 * i + 1)))

/-- What each of the eight lanes sends of a codeword: symbol i is sent on lane i mod 8. -/
def wireLanes (kind : BitVec 2) (num : Byte) (slots : List (List Byte)) : List (List (BitVec 2)) :=
  let msg := messageSymbols kind num slots
  let all := msg ++ rsParity msg
  (List.range 8).map (fun l => (List.range 68).flatMap (fun i => symbolLevels (all.getD (8 * i + l) 0)))

/-- A codeword as it leaves a link. -/
def wireCodeword (link : Nat) (kind : BitVec 2) (num : Byte) (slots : List (List Byte)) : Out :=
  .codeword link kind num slots (wireLanes kind num slots)

end Sys2Proof.Machine
end

