-- ==== Sys2Proof/Machine/Crypto.lean ====
section
/-! DEFINITION. SHA-384 (FIPS 180-4) and the verification of ECDSA P-384 signatures (FIPS 186-5), which R47, R49 and
R532 to R536 name: the spec names the standards and does not repeat them, so these texts are PRESUMED from them. -/

namespace Sys2Proof.Machine

/-- The integer root search of nthRoot: one bit of the root after another, from bit n down. -/
def rootBits (k v : Nat) : Nat → Nat → Nat
  | 0, r => r
  | n + 1, r => if (r + 2 ^ n) ^ k ≤ v then rootBits k v n (r + 2 ^ n) else rootBits k v n r

/-- The first 80 primes. -/
def primes80 : List Nat :=
  [2, 3, 5, 7, 11, 13, 17, 19, 23, 29, 31, 37, 41, 43, 47, 53, 59, 61, 67, 71, 73, 79, 83, 89, 97, 101, 103, 107, 109, 113] ++
  [127, 131, 137, 139, 149, 151, 157, 163, 167, 173, 179, 181, 191, 193, 197, 199, 211, 223, 227, 229, 233, 239, 241, 251] ++
  [257, 263, 269, 271, 277, 281, 283, 293, 307, 311, 313, 317, 331, 337, 347, 349, 353, 359, 367, 373, 379, 383, 389, 397] ++
  [401, 409]

/-- The round constants: the first 64 fraction bits of the cube roots of the first 80 primes. -/
def shaK : List Word := primes80.map (fun p => BitVec.ofNat 64 (rootBits 3 (p * 2 ^ 192) 68 0))

/-- The initial value of SHA-384: the first 64 fraction bits of the square roots of the ninth to sixteenth primes. -/
def sha384Init : List Word := ((primes80.drop 8).take 8).map (fun p => BitVec.ofNat 64 (rootBits 2 (p * 2 ^ 128) 68 0))

/-- The big-endian number in a list of bytes (R7). -/
def beNat (l : List Byte) : Nat := l.foldl (fun n b => 256 * n + b.toNat) 0

/-- A number as n big-endian bytes (R7). -/
def beBytes (n v : Nat) : List Byte := (leBytes n v).reverse

/-- The message schedule: the last sixteen words, newest first, extended n times; the result newest first. -/
def shaExtend : Nat → List Word → List Word
  | 0, w => w
  | n + 1, w =>
    let a := w.getD 14 0
    let b := w.getD 1 0
    let s0 := a.rotateRight 1 ^^^ a.rotateRight 8 ^^^ (a >>> 7)
    let s1 := b.rotateRight 19 ^^^ b.rotateRight 61 ^^^ (b >>> 6)
    shaExtend n ((s1 + w.getD 6 0 + s0 + w.getD 15 0) :: w)

/-- One round on the eight working words. -/
def shaRound (h : List Word) (kw : Word) : List Word :=
  let a := h.getD 0 0
  let b := h.getD 1 0
  let c := h.getD 2 0
  let e := h.getD 4 0
  let f := h.getD 5 0
  let g := h.getD 6 0
  let t1 := h.getD 7 0 + (e.rotateRight 14 ^^^ e.rotateRight 18 ^^^ e.rotateRight 41) + ((e &&& f) ^^^ (~~~e &&& g)) + kw
  let t2 := (a.rotateRight 28 ^^^ a.rotateRight 34 ^^^ a.rotateRight 39) + ((a &&& b) ^^^ (a &&& c) ^^^ (b &&& c))
  [t1 + t2, a, b, c, h.getD 3 0 + t1, e, f, g]

/-- One block of 128 bytes. -/
def shaBlock (h : List Word) (block : List Byte) : List Word :=
  let w0 := (List.range 16).map (fun i => BitVec.ofNat 64 (beNat (sliceB block (8 * i) 8)))
  let w := (shaExtend 64 w0.reverse).reverse
  List.zipWith (fun x y => x + y) h ((List.zipWith (fun k x => k + x) shaK w).foldl shaRound h)

/-- The blocks of a padded message. -/
def shaBlocks : Nat → List Byte → List Word → List Word
  | 0, _, h => h
  | n + 1, l, h => shaBlocks n (l.drop 128) (shaBlock h (l.take 128))

/-- SHA-384: the 48-byte octet string of R7. -/
def sha384 (l : List Byte) : List Byte :=
  let n := l.length
  let padded := l ++ (0x80 : Byte) :: List.replicate ((239 - n % 128) % 128) 0 ++ beBytes 16 (8 * n)
  ((shaBlocks (padded.length / 128) padded sha384Init).take 6).flatMap (fun w => beBytes 8 w.toNat)

/-- The field prime of P-384. -/
def p384P : Nat := 2 ^ 384 - 2 ^ 128 - 2 ^ 96 + 2 ^ 32 - 1
/-- The order of the base point of P-384. -/
def p384N : Nat :=
  0xFFFFFFFFFFFFFFFFFFFFFFFFFFFFFFFFFFFFFFFFFFFFFFFFC7634D81F4372DDF581A0DB248B0A77AECEC196ACCC52973
/-- The coefficient b of P-384. -/
def p384B : Nat :=
  0xB3312FA7E23EE7E4988E056BE3F82D19181D9C6EFE8141120314088F5013875AC656398D8A2ED19D2A85C8EDD3EC2AEF
/-- The base point of P-384. -/
def p384G : Nat × Nat :=
  (0xAA87CA22BE8B05378EB1C71EF320AD746E1D3B628BA79B9859F741E082542A385502F25DBF55296C3A545E3872760AB7,
   0x3617DE4A96262C6F5D9E98BF9292DC29F8F41DBD289A147CE9DA3113B5F0B8C00A60B1CE1D7E819D7A431D7C90EA0E5F)

/-- A power modulo m, by the bits of the exponent from bit n down. -/
def powMod (m b e : Nat) : Nat → Nat
  | 0 => 1 % m
  | n + 1 =>
    let r := powMod m b (e / 2) n
    let q := r * r % m
    if e % 2 = 1 then q * b % m else q

/-- The inverse modulo a prime. -/
def invMod (m a : Nat) : Nat := powMod m (a % m) (m - 2) 384

/-- The sum of two points of P-384; none is the point at infinity. -/
def ecAdd : Option (Nat × Nat) → Option (Nat × Nat) → Option (Nat × Nat)
  | none, q => q
  | p, none => p
  | some (x1, y1), some (x2, y2) =>
    let p := p384P
    if x1 = x2 ∧ (y1 + y2) % p = 0 then none
    else
      let s := if x1 = x2 then (3 * x1 * x1 + (p - 3)) * invMod p (2 * y1) % p
               else (y2 + p - y1) * invMod p ((x2 + p - x1) % p) % p
      let x3 := (s * s + 2 * p - x1 - x2) % p
      some (x3, (s * ((x1 + p - x3) % p) + p - y1) % p)

/-- A multiple of a point, by the n low bits of the factor. -/
def ecMul (q : Option (Nat × Nat)) (e : Nat) : Nat → Option (Nat × Nat)
  | 0 => none
  | n + 1 =>
    let r := ecMul q (e / 2) n
    let d := ecAdd r r
    if e % 2 = 1 then ecAdd d q else d

/-- Whether 97 bytes are an uncompressed point of P-384 (R7). -/
def p384Key (key : List Byte) : Option (Nat × Nat) :=
  let x := beNat (sliceB key 1 48)
  let y := beNat (sliceB key 49 48)
  if key.length = 97 ∧ key.head? = some 4 ∧ x < p384P ∧ y < p384P ∧ y * y % p384P = (x * x * x + (p384P - 3) * x + p384B) % p384P
  then some (x, y) else none

/-- ECDSA verification over a SHA-384 digest (R7, R532): key, digest, signature r then s. -/
def ecdsaOk (key digest sig : List Byte) : Bool :=
  match p384Key key with
  | none => false
  | some q =>
    let r := beNat (sliceB sig 0 48)
    let s := beNat (sliceB sig 48 48)
    if r = 0 ∨ p384N ≤ r ∨ s = 0 ∨ p384N ≤ s then false
    else
      let w := invMod p384N s
      match ecAdd (ecMul (some p384G) (beNat digest * w % p384N) 384) (ecMul (some q) (r * w % p384N) 384) with
      | none => false
      | some (x, _) => x % p384N == r

end Sys2Proof.Machine
end

