-- ==== Sys2Proof/Machine/Route.lean ====
section
/-! DEFINITION. Routes over the torus (R461 to R470), the flits of a message (R437, R471) and how a message enters the network. -/

namespace Sys2Proof.Machine

/-! Directions 0 to 5 are +X, -X, +Y, -Y, +Z, -Z (R426). -/

/-- The next coordinate along a ring of size n. -/
def ringNext (n : Nat) (up : Bool) (a : Nat) : Nat := if up then (a + 1) % n else (a + n - 1) % n

/-- The package next to one in a direction. -/
def Chip.neighbour (c : Chip) (p dir : Nat) : Nat :=
  let up : Bool := dir % 2 = 0
  if dir / 2 = 0 then ringNext c.nx up (pkgX p) * 256 + pkgY p * 16 + pkgZ p
  else if dir / 2 = 1 then pkgX p * 256 + ringNext c.ny up (pkgY p) * 16 + pkgZ p
  else pkgX p * 256 + pkgY p * 16 + ringNext c.nz up (pkgZ p)

/-- The other end of a link: the neighbour's link of the opposite direction with the same index. -/
def Chip.otherEnd (c : Chip) (e : Nat × Nat) : Nat × Nat :=
  (c.neighbour e.1 (e.2 / 4), (if e.2 / 4 % 2 = 0 then e.2 + 4 else e.2 - 4))

/-- The size of a dimension and a coordinate in it. -/
def Chip.dimOf (c : Chip) (k p : Nat) : Nat × Nat :=
  if k = 0 then (c.nx, pkgX p) else if k = 1 then (c.ny, pkgY p) else (c.nz, pkgZ p)

/-- The links of a direction of a package that are in the epoch's link set, ascending (R464). -/
def Chip.setLinks (c : Chip) (p dir : Nat) : List Nat := ((List.range 4).map (fun i => 4 * dir + i)).filter (fun n => (p, n) ∈ c.net.links)

/-- Whether a link of this package is up (R432). -/
def Link.up (k : Link) : Bool := k.state = .isolated || k.state = .active

/-- Whether a package is live and an S9: a partner device is a fault for transit (R488). -/
def Chip.liveS9 (c : Chip) (p : Nat) : Bool := p ∈ c.net.live && p ∉ c.net.partners

/-- An arc of n hops in a direction is free (R468 step 1); the package it ends at. -/
def Chip.walkArc (c : Chip) (d dir : Nat) : Nat → Nat → Option Nat
  | 0, p => some p
  | n + 1, p =>
    let q := c.neighbour p dir
    if (c.setLinks p dir).isEmpty then none
    else if q ≠ d ∧ c.liveS9 q = false then none
    else c.walkArc d dir n q

/-- The leg of a dimension from a package towards d: its direction, its hops and where it ends; the shorter free arc, + when they
are equally long. -/
def Chip.leg (c : Chip) (d k p : Nat) : Option (Option Nat × Nat × Nat) :=
  let n := (c.dimOf k p).1
  let a := (c.dimOf k p).2
  let b := (c.dimOf k d).2
  if a = b then some (none, 0, p)
  else
    let np := (b + n - a) % n
    let nm := (a + n - b) % n
    match c.walkArc d (2 * k) np p, c.walkArc d (2 * k + 1) nm p with
    | some q, some r => if np ≤ nm then some (some (2 * k), np, q) else some (some (2 * k + 1), nm, r)
    | some q, none => some (some (2 * k), np, q)
    | none, some r => some (some (2 * k + 1), nm, r)
    | none, none => none

/-- The direct route from one package to another: its first direction and its hops (R468 step 1). -/
def Chip.direct (c : Chip) (p d : Nat) : Option (Nat × Nat) :=
  match c.leg d 0 p with
  | none => none
  | some x =>
    match c.leg d 1 x.2.2 with
    | none => none
    | some y =>
      match c.leg d 2 y.2.2 with
      | none => none
      | some z =>
        match x.1, y.1, z.1 with
        | some dir, _, _ => some (dir, x.2.1 + y.2.1 + z.2.1)
        | none, some dir, _ => some (dir, x.2.1 + y.2.1 + z.2.1)
        | none, none, some dir => some (dir, x.2.1 + y.2.1 + z.2.1)
        | none, none, none => some (6, 0)

/-- The waypoint of R468 step 2: fewest hops in all, then the lowest number. -/
def Chip.waypoint (c : Chip) (d : Nat) : Option (Nat × Nat) :=
  let cands := c.net.live.filterMap (fun w =>
    if w = c.self ∨ w = d ∨ c.liveS9 w = false then none
    else match c.direct c.self w, c.direct w d with
      | some a, some b => some (a.2 + b.2, w, a.1)
      | _, _ => none)
  (cands.foldl (fun best x =>
    match best with
    | none => some x
    | some y => if x.1 < y.1 ∨ (x.1 = y.1 ∧ x.2.1 < y.2.1) then some x else some y) none).map (fun x => (x.2.1, x.2.2))

/-- An entry of the Route Table: its direction (6 own package, 7 unreachable) and its waypoint (R468, R489). -/
structure RouteEntry where
  dir : Nat
  via : Option Nat
  deriving DecidableEq, Repr

/-- The Route Table entry of destination d. -/
def Chip.route (c : Chip) (d : Nat) : RouteEntry :=
  if d = c.self then ⟨6, none⟩
  else if c.inGeom d = false then ⟨7, none⟩
  else
    match c.direct c.self d with
    | some x => ⟨x.1, none⟩
    | none =>
      match c.waypoint d with
      | some w => ⟨w.2, some w.1⟩
      | none => ⟨7, none⟩

/-- Whether operations may be issued to a package: it is in the geometry, not lost, and has a route (R470). -/
def Chip.reachable (c : Chip) (d : Nat) : Bool := d ∈ c.net.live && (c.route d).dir < 6

/-- A network counter: 0 EPOCHS, 1 FREEZE_NS, 2 OPS_ENDED, 3 NET_DISCARDED, 4 CONF_COMBINED, 5 CONF_MERGED, 6 WAYPOINT_FWD. -/
def Chip.netCount (c : Chip) (i n : Nat) : Chip :=
  { c with net := { c.net with counters := SMap.set c.net.counters i (SMap.get 0 c.net.counters i + BitVec.ofNat 64 n) } }

/-- The virtual channel of a message type, none for a type that Table 2 does not list (R472). -/
def vcOf (t : Nat) : Option Nat :=
  if 0x01 ≤ t ∧ t ≤ 0x06 then some 0
  else if (0x11 ≤ t ∧ t ≤ 0x14) ∨ t = 0x1F then some 1
  else if 0x21 ≤ t ∧ t ≤ 0x26 then some 2
  else if t = 0x31 then some 3
  else if (0x41 ≤ t ∧ t ≤ 0x43) ∨ (0x48 ≤ t ∧ t ≤ 0x4C) then some 4
  else if 0x51 ≤ t ∧ t ≤ 0x53 then some 5
  else none

/-- A flit as the router offers it: the link layer fills bytes 0x00 to 0x05 and FCRC; LEN is the bytes of data in it (R437, R471). -/
def flitOf (m : Msg) (vc dclass frag txn : Nat) (data : List Byte) : List Byte :=
  leBytes 6 0 ++ [BitVec.ofNat 8 (vc + 8 * dclass + 16 * frag), m.mtype] ++ leBytes 2 m.dest.toNat ++ leBytes 2 m.src.toNat ++
    leBytes 4 0 ++ leBytes 8 m.addr.toNat ++ leBytes 4 m.lockTag.toNat ++ leBytes 2 txn ++
    [if data.length = 0 then m.len else BitVec.ofNat 8 (Nat.min 64 data.length % 64), m.cause] ++
    leBytes 8 m.position.toNat ++ leBytes 2 m.final.toNat ++ leBytes 2 0 ++ leBytes 4 m.ctx.toNat ++ sliceB data 0 64 ++
    leBytes 16 0

/-- The fragments of a payload beyond the first: FRAG 2, and 3 for the last (R471). -/
def fragRest (m : Msg) (vc dclass : Nat) : Nat → Nat → List Byte → List (List Byte)
  | 0, _, _ => []
  | n + 1, k, data =>
    flitOf m vc dclass (if data.length ≤ 64 then 3 else 2) k data ::
      (if data.length ≤ 64 then [] else fragRest m vc dclass n (k + 1) (data.drop 64))

/-- The flits of a message: one flit, or fragments in order with their chunk numbers in TXN. -/
def flitsOf (m : Msg) (vc dclass : Nat) : List (List Byte) :=
  if m.data.length ≤ 64 then [flitOf m vc dclass 0 m.txn.toNat m.data]
  else flitOf m vc dclass 1 0 m.data :: fragRest m vc dclass m.data.length 1 (m.data.drop 64)

/-- The input port of what this package itself sends; 0 to 23 are the links (R467). -/
def ownPort : Nat := 24

/-- Flits that came by an input port wait at a link for their turn (R467). -/
def Link.offer (k : Link) (port vc : Nat) (flits : List (List Byte)) : Link :=
  { k with txq := SMap.set k.txq (port * 6 + vc) (SMap.get [] k.txq (port * 6 + vc) ++ flits) }

/-- DCLASS on a hop: 1 when the link is the dateline link of its dimension (R461, R465). -/
def Chip.dateline (c : Chip) (p dir : Nat) : Bool :=
  let n := (c.dimOf (dir / 2) p).1
  let a := (c.dimOf (dir / 2) p).2
  if dir % 2 = 0 then a = n - 1 else a = 0

/-- A message goes out on one link. -/
def Chip.sendOn (c : Chip) (n : Nat) (m : Msg) : Chip :=
  match vcOf m.mtype.toNat with
  | none => c
  | some vc =>
    let dclass := if c.dateline c.self (n / 4) then 1 else 0
    let k := c.link n
    (c.setLink n (k.offer ownPort vc (flitsOf m vc dclass))).emit (.net m)

/-- A message of this package enters the network (R463, R464, R469): by its Route Table entry, on the link that R464 names; a
message whose link is down, or that has no route, is discarded and counted. -/
def Chip.inject (c : Chip) (m : Msg) : Chip :=
  let r := c.route m.dest.toNat
  let m1 := match r.via with
    | none => m
    | some w => { m with dest := BitVec.ofNat 12 w, final := BitVec.ofNat 16 (m.dest.toNat + 0x8000) }
  let ls := c.setLinks c.self r.dir
  let vc := (vcOf m.mtype.toNat).getD 0
  match ls[(c.self + 3 * m1.dest.toNat + vc) % ls.length]? with
  | none => c.netCount 3 (flitsOf m1 vc 0).length
  | some n => if (c.link n).up then c.sendOn n m1 else c.netCount 3 (flitsOf m1 vc 0).length

/-- Whether a message waits out a Freeze: new operations on channels 0, 2, 3 and 5, not answers (R484). -/
def Chip.frozenMsg (c : Chip) (m : Msg) : Bool :=
  let t := m.mtype.toNat
  (c.net.phase = .freeze || c.net.phase = .drained) && (t ≤ 0x06 || (0x21 ≤ t && t ≤ 0x31) || t = 0x52 || t = 0x53)

/-- A message is sent, or held until Resume. -/
def Chip.send (c : Chip) (m : Msg) : Chip :=
  if c.frozenMsg m then { c with net := { c.net with held := c.net.held ++ [m] } } else c.inject m

/-! Slice reads that meet at this router (R269, R476). -/

/-- NET_CONF.MERGE (R478). -/
def Chip.merging (c : Chip) : Bool := bit c.net.conf 1

/-- Whether a slice read names the row, member and lock tag of one that is unanswered here, of another package. -/
def Merge.same (e : Merge) (m : Msg) : Bool :=
  e.table = bits m.addr 5 0 && e.row = fieldB m.data 0 8 && e.member = m.dest.toNat && e.tag = m.lockTag && !e.relayed &&
    e.first ≠ m.src.toNat

/-- The unanswered read that a slice read may join. -/
def Chip.openRead (c : Chip) (m : Msg) : Option Merge := c.conf.merges.find? (fun e => e.same m)

/-- A slice read waits for a copy of another's answer. -/
def Chip.joinRead (c : Chip) (e : Merge) (m : Msg) : Chip :=
  ({ c with conf := { c.conf with
    merges := { e with requesters := e.requesters ++ [(m.src.toNat, m.ctx.toNat)] } :: c.conf.merges.erase e } }).netCount 5 1

/-- A slice read whose answer this router will carry is remembered until then. -/
def Chip.noteRead (c : Chip) (m : Msg) : Chip :=
  { c with conf := { c.conf with
    merges := { table := bits m.addr 5 0, row := fieldB m.data 0 8, member := m.dest.toNat, tag := m.lockTag, first := m.src.toNat,
                relayed := false, requesters := [] } :: c.conf.merges } }

/-- A slice read of this package: it joins one of another package that is unanswered here, or goes out. -/
def Chip.askSlice (c : Chip) (m : Msg) : Chip :=
  if c.merging && m.cause = 0 then
    match c.openRead m with
    | some e => c.joinRead e m
    | none => (c.noteRead m).send m
  else c.send m

/-- The lock tag of this package: the first four bytes of the lock digest (R51). -/
def Chip.lockTag (c : Chip) : BitVec 32 := BitVec.ofNat 32 (fieldB c.rcp.lockDigest 0 4)

/-- A message of this package with no payload. -/
def Chip.blankMsg (c : Chip) (mtype dest : Nat) : Msg :=
  { mtype := BitVec.ofNat 8 mtype, src := BitVec.ofNat 12 c.self, dest := BitVec.ofNat 12 dest, addr := 0, lockTag := c.lockTag,
    txn := 0, len := 0, cause := 0, position := 0, final := 0, ctx := 0, data := [] }

/-- The ADDR of a Request or Bulk message (Table 1 of the network chapter). -/
def addrField (t : Target) : Word :=
  BitVec.ofNat 64 (t.off % 2 ^ 50 + (if t.wp then 2 ^ 61 else 0) + t.ty * 2 ^ 62)

/-- TXN: issuing core and tracker. -/
def txnOf (fc id : Nat) : BitVec 16 := BitVec.ofNat 16 (fc * 1024 + id % 1024)

/-- The message type of a transaction. -/
def TrkKind.mtype : TrkKind → Nat
  | .read => 0x01
  | .write => 0x02
  | .reserve => 0x03
  | .storeCond => 0x04
  | .storeBuf => 0x02
  | .message => 0x31
  | .ownMessage => 0x31
  | .bulk => 0x53
  | .bcast => 0x52

/-- Whether a transaction is one of a core, which its performance counters see (R248). -/
def Holder.counts : Holder → Bool
  | .text => false
  | .video => false
  | _ => true

/-- The slot in bits [19:17] of the CTX field of RSV_RD and STC, which the home needs to tell the reservations of one core apart (R145;
DESIGN CHOICE, log 14). -/
def Holder.slotBits (h : Holder) (kind : TrkKind) : Nat :=
  match h with
  | .slot k => if kind = .reserve ∨ kind = .storeCond then k % 8 * 2 ^ 17 else 0
  | _ => 0

/-- A transaction to another package: a tracker is taken and the message sent; its number comes back (R219, R471). -/
def Chip.remote (c : Chip) (fc : Nat) (who : Holder) (kind : TrkKind) (t : Target) (pkg size : Nat) (data : List Byte) (ctx : Nat)
    (tag : Word) : Chip × Nat :=
  let k := c.core fc
  let id := k.freeTrk
  let trk : Trk := { id := id, holder := who, kind := kind, addr := t.key, size := size, pkg := pkg, ctx := ctx, stream := k.streamOf who }
  let k1 := { k with trks := trk :: k.trks }
  let c1 := c.setCore fc (if who.counts then k1.count 0x30 1 else k1)
  let m := { c.blankMsg kind.mtype pkg with
    addr := addrField t, txn := txnOf fc id, len := BitVec.ofNat 8 (size % 64), position := tag,
    ctx := BitVec.ofNat 32 (ctx + who.slotBits kind), data := data }
  (c1.send m, id)

end Sys2Proof.Machine
end

