-- ==== Sys2Proof/Machine/RegRead.lean ====
section
/-! DEFINITION. What a read of a device register returns (R9, R12, R13, R572, R574, R578, R580, R581), block by block. -/

namespace Sys2Proof.Machine

/-- A number as a register value. -/
def w64 (n : Nat) : Word := BitVec.ofNat 64 n

/-- One bit of a register value. -/
def bitAt (b : Bool) (i : Nat) : Nat := if b then 2 ^ i else 0

/-- Register i of a six-register digest (R52). -/
def digestWord (d : List Byte) (i : Nat) : Word := w64 (fieldB d (8 * i) 8)

/-- The current frequency of a core's island in MHz (R498, R514). -/
def Chip.curMhz (c : Chip) (n : Nat) : Nat := SMap.get 2200 c.pwr.curMhz n

/-- Whether a core's counters can be read (R580). -/
def Chip.statOn (c : Chip) (n : Nat) : Bool :=
  let d := (c.dom (2 * n)).state
  d = .run || d = .freewheel || d = .turningOff

/-- ID block (R579). -/
def readId (c : Chip) (o : Nat) : Word :=
  if o = 0x00 then 0x4D5302160000B000
  else if o = 0x08 then Config.idSerial
  else if o = 0x10 then 0x0404041020180640
  else if o = 0x18 then c.tide
  else if o = 0x20 then SMap.get 0 c.scratch 0
  else if o = 0x28 then SMap.get 0 c.scratch 1
  else 0

/-- CSTAT block of a core (R580). -/
def readCstat (c : Chip) (n o : Nat) : Word :=
  let k := c.core n
  if c.statOn n = false then 0
  else if o < 0x68 then SMap.get 0 k.stall (o / 8)
  else if 0x80 ≤ o ∧ o < 0x100 then (SMap.get 0 k.pmc ((o - 0x80) / 8)).setWidth 64
  else if o = 0x100 then k.pmwrap.setWidth 64
  else if o = 0x108 then k.cycles
  else if o = 0x110 then w64 ((List.range 8).foldl (fun a i => a + bitAt (k.slot i).task.isSome i) 0)
  else 0

/-- RQT_STATUS (Table 7 of the Request chapter). -/
def rqtStatus (c : Chip) : Word := w64 (bitAt c.req.quiesced 63 + c.req.ctxs.length)

/-- RQT block (R57). -/
def readRqt (c : Chip) (o : Nat) : Word :=
  if o = 0x00 then rqtStatus c
  else if o = 0x08 then c.req.control
  else if o = 0x10 then c.req.weir
  else if 0x18 ≤ o ∧ o ≤ 0x30 then SMap.get 0 c.req.weirVec ((o - 0x18) / 8)
  else if o = 0x38 then c.req.events.setWidth 64
  else if o = 0x40 then c.req.admitted
  else if o = 0x48 then c.req.rejected
  else if o = 0x50 then c.req.admitStall
  else if o = 0x58 then c.req.admitStallEvents
  else if o = 0x60 then c.req.placeWait
  else 0

/-- The code of a staging status (R57). -/
def StageStatus.code : StageStatus → Nat
  | .idle => 0
  | .verifying => 1
  | .valid => 2
  | .badSignature => 3
  | .badFormat => 4

/-- The area that Recipe Slot n owns (R58). -/
def Rcp.area (r : Rcp) (n : Nat) : Nat := if n = 0 then r.area0 else if n = 1 then r.area1 else if n = 2 then r.area2 else r.area3

/-- RCP_LOCK_STATUS (R57). -/
def lockStatus (c : Chip) : Word :=
  w64 (c.rcp.lastResult.toNat * 256 + bitAt c.rst.bringupMode 1 + bitAt c.rcp.locked 0)

/-- RCP block (R57). -/
def readRcp (c : Chip) (o : Nat) : Word :=
  let r := c.rcp
  if o = 0x00 then lockStatus c
  else if 0x10 ≤ o ∧ o ≤ 0x38 then digestWord r.lockDigest ((o - 0x10) / 8)
  else if 0x40 ≤ o ∧ o ≤ 0x68 then SMap.get 0 r.expect ((o - 0x40) / 8)
  else if o = 0x80 then r.stageAddr
  else if o = 0x88 then r.stageLen
  else if o = 0x98 then w64 (r.stageArea * 16 + r.stageStatus.code)
  else if 0xA0 ≤ o ∧ o ≤ 0xC8 then (if r.stageStatus = .valid then digestWord r.stageDigest ((o - 0xA0) / 8) else 0)
  else if 0x100 ≤ o ∧ o < 0x200 then
    let n := (o - 0x100) / 0x40
    let q := (o - 0x100) % 0x40
    let s := r.slot n
    if q = 0x08 then w64 (r.area n * 4096 + s.last.toNat * 256 + bitAt s.ready 0)
    else if 0x10 ≤ q ∧ q ≤ 0x38 then digestWord s.digest ((q - 0x10) / 8)
    else 0
  else 0

/-- ARB block (R244): channels 0 to 95, then slices 96 to 127. -/
def readArb (c : Chip) (o : Nat) : Word :=
  if o < 0x300 then (SMap.get Arbiter.reset c.arbs (o / 8)).ctl
  else if 0x400 ≤ o ∧ o < 0x500 then (SMap.get Arbiter.reset c.arbs (96 + (o - 0x400) / 8)).ctl
  else 0

/-- EMB_STATUS (R258). -/
def embStatus (c : Chip) : Word :=
  w64 (bitAt c.emb.poisonFull 63 + c.emb.poison.length * 2 ^ 52 + c.emb.hot.length * 2 ^ 32 + c.emb.remap.length)

/-- EMB block (R258). -/
def readEmb (c : Chip) (o : Nat) : Word :=
  if o = 0x00 then c.emb.ctrl
  else if o = 0x08 then embStatus c
  else if 0x100 ≤ o ∧ o < 0x400 then SMap.get 0 c.emb.shload ((o - 0x100) / 8)
  else if 0x1000 ≤ o then
    let t := c.table ((o - 0x1000) / 0x80)
    let q := (o - 0x1000) % 0x80
    if q = 0x00 then t.cfg
    else if q = 0x08 then t.rows
    else if q = 0x10 then t.base
    else if q = 0x18 then t.salt
    else if q = 0x20 then t.scale
    else if q = 0x28 then t.spare
    else if q = 0x30 then t.version.setWidth 64
    else if q = 0x38 then t.dropOor
    else if q = 0x40 then t.dropMissing
    else if q = 0x48 then t.hrcHits
    else if q = 0x50 then t.poisonHits
    else 0
  else 0

/-- Vocabulary slot n (R353). -/
def Txu.voc (t : Txu) (n : Nat) : Voc := SMap.get Voc.reset t.vocs n

/-- TXU block (R355). -/
def readTxu (c : Chip) (o : Nat) : Word :=
  if o < 0x800 then
    let v := c.txu.voc (o / 0x80)
    let q := o % 0x80
    if q = 0x00 then v.base
    else if q = 0x08 then v.len
    else if q = 0x18 then v.state.setWidth 64
    else if 0x20 ≤ q ∧ q ≤ 0x48 then digestWord v.digest ((q - 0x20) / 8)
    else 0
  else if o = 0x800 then c.txu.jobCount
  else if o = 0x808 then c.txu.byteCount
  else if o = 0x810 then c.txu.replaced
  else if o = 0x818 then c.txu.waitNs
  else 0

/-- VID block (R379). -/
def readVid (c : Chip) (o : Nat) : Word :=
  if o = 0x00 then c.vid.dpbBase
  else if o = 0x08 then c.vid.dpbSize
  else if o = 0x10 then c.vid.contexts
  else if o = 0x20 then c.vid.unitCount
  else if o = 0x28 then c.vid.pixels
  else if o = 0x30 then c.vid.waitNs
  else if o = 0x38 then c.vid.badUnits
  else 0

/-- CFR block (R169). -/
def readCfr (c : Chip) (o : Nat) : Word :=
  if o % 0x40 < 0x30 then SMap.get 0 c.cfr (o / 0x200 * 64 + o / 0x40 % 8 * 8 + o % 0x40 / 8) else 0

/-- PORT_STATUS (Table 4 of the port chapter): DEGRADED at any rate and width but 64 or 32 GT/s and x16 or x8 (R396). -/
def portStatus (c : Chip) (n : Nat) : Word :=
  let p := c.port n
  let good := (p.rate.toNat = 5 || p.rate.toNat = 6) && (p.width.toNat = 3 || p.width.toNat = 4)
  w64 (c.self * 2 ^ 20 + n * 2 ^ 16 + bitAt (p.linkUp && !good) 8 + p.width.toNat * 16 + p.rate.toNat)

/-- WINw_STATUS (Table 5 of the port chapter). -/
def winStatus (x : Window) : Word :=
  w64 (bitAt x.err 63 + bitAt (0 < x.active) 62 + x.queue.length * 2 ^ 32 + x.partialBytes.length)

/-- The block of a window (R421). -/
def readWin (x : Window) (q : Nat) : Word :=
  if q = 0x00 then x.ctrl
  else if q = 0x08 then winStatus x
  else if q = 0x10 then x.accepted.setWidth 64
  else if q = 0x18 then x.taken.setWidth 64
  else if q = 0x20 then x.overrun
  else if q = 0x28 then x.badWrite
  else if q = 0x38 then x.cwbAddr
  else if q = 0x40 then x.recBase
  else if q = 0x48 then x.ringCfg
  else if q = 0x50 then x.cplBase
  else if q = 0x58 then x.recHead
  else if q = 0x60 then x.recTail
  else if q = 0x68 then x.cplHead
  else if q = 0x70 then x.cplTail
  else if q = 0x78 then x.irq
  else 0

/-- A port block (R421). -/
def readPort (c : Chip) (n o : Nat) : Word :=
  let p := c.port n
  if o = 0x00 then portStatus c n
  else if o = 0x08 then p.err.setWidth 64
  else if o = 0x10 then p.errVec
  else if o = 0x18 then p.aper
  else if o = 0x20 then p.fabWin
  else if o = 0x28 then p.discarded
  else if o = 0x30 then p.access.setWidth 64
  else if 0x1000 ≤ o ∧ o < 0x3000 then readWin (p.window ((o - 0x1000) / 0x80)) (o % 0x80)
  else if 0x3000 ≤ o ∧ o < 0x3200 then (p.window ((o - 0x3000) / 8)).deliverWait
  else 0

/-- The code of a link state (Table 2 of the link chapter). -/
def LinkState.code : LinkState → Nat
  | .disabled => 0
  | .detect => 1
  | .poll => 2
  | .eq => 3
  | .config => 4
  | .isolated => 5
  | .active => 6
  | .retrain => 7
  | .failed => 8

/-- LINK_STATUS (R454). -/
def linkStatus (k : Link) : Word :=
  w64 (k.peerPkg.toNat * 2 ^ 52 + k.peerLink.toNat * 2 ^ 47 + bitAt k.peerS9 46 + bitAt k.testPass 9 + bitAt k.testDone 8 +
    bitAt k.reversed 7 + k.state.code)

/-- A link block (R454). -/
def readLink (k : Link) (o : Nat) : Word :=
  if o = 0x00 then k.ctrl
  else if o = 0x08 then linkStatus k
  else if o = 0x10 then k.err.setWidth 64
  else if o = 0x18 then k.polarity.setWidth 64
  else if 0x20 ≤ o ∧ o ≤ 0x70 then SMap.get 0 k.counters ((o - 0x20) / 8)
  else 0

/-- Whether a package of the geometry is lost: before a package has joined, every other package is (R483, R557). -/
def Chip.isLost (c : Chip) (p : Nat) : Bool := c.inGeom p && p ≠ c.self && !(p ∈ c.net.live)

/-- The code of an epoch phase (R489). -/
def NetPhase.code : NetPhase → Nat
  | .run => 0
  | .collect => 1
  | .freeze => 2
  | .drained => 3

/-- RTE_D (R489). -/
def rteWord (e : RouteEntry) : Word :=
  match e.via with
  | some w => w64 (2 ^ 28 + w * 2 ^ 16 + e.dir)
  | none => w64 e.dir

/-- NET block (R489). -/
def readNet (c : Chip) (o : Nat) : Word :=
  if o = 0x00 then c.net.geom
  else if o = 0x08 then w64 (c.net.phase.code * 2 ^ 32 + c.net.epoch.toNat)
  else if o = 0x10 then c.net.timeout
  else if o = 0x18 then c.net.conf
  else if o = 0x28 then w64 ((List.range 24).foldl (fun a n => a + bitAt ((c.self, n) ∈ c.net.links) n) 0)
  else if o = 0x30 then c.net.coord.setWidth 64
  else if 0x40 ≤ o ∧ o ≤ 0x70 then SMap.get 0 c.net.counters ((o - 0x40) / 8)
  else if 0x200 ≤ o ∧ o < 0x400 then
    w64 ((List.range 64).foldl (fun a j => a + bitAt (c.isLost (64 * ((o - 0x200) / 8) + j)) j) 0)
  else if 0x8000 ≤ o then rteWord (c.route ((o - 0x8000) / 8))
  else 0

/-- The code of a domain state (R514). -/
def DomState.code : DomState → Nat
  | .off => 0
  | .freewheel => 1
  | .run => 2
  | .turningOn => 3
  | .turningOff => 4
  | .selfTest => 5
  | .failed => 6

/-- The code of a latched request (R514). -/
def Pending.code : Pending → Nat
  | .none => 0
  | .on => 1
  | .off => 2
  | .freewheel => 3

/-- PWR_DOMd (Table 5 of the power chapter). -/
def domWord (d : Domain) : Word := w64 (bitAt d.auto 8 + d.latch.code * 16 + d.state.code)

/-- PWR block (R514). -/
def readPwr (c : Chip) (o : Nat) : Word :=
  let p := c.pwr
  if o < 8 * 236 then domWord (c.dom (o / 8))
  else if o = 0x800 then p.policy
  else if o = 0x808 then w64 (p.measured.toNat * 2 ^ 16 + bits p.cap 15 0)
  else if o = 0x810 then w64 (p.hottest.toNat * 2 ^ 24 + bits p.therm 15 0)
  else if o = 0x818 then p.err.setWidth 64
  else if o = 0x820 then p.thermNs
  else if o = 0x828 then p.transitions
  else if 0x900 ≤ o ∧ o < 0xB00 then
    let n := (o - 0x900) / 8
    w64 ((SMap.get 2200 p.maxMhz n).toNat * 2 ^ 16 + c.curMhz n)
  else 0

/-- The slot that is not running (R537). -/
def Mc.other (m : Mc) : FwSlot := if m.runB then m.slotA else m.slotB
/-- The slot that runs. -/
def Mc.running_ (m : Mc) : FwSlot := if m.runB then m.slotB else m.slotA
/-- Whether a firmware slot may boot: valid, and its ROLLBACK not below the blown fuses (R535). -/
def Mc.bootable (m : Mc) (s : FwSlot) : Bool := s.valid && m.fuses ≤ s.rollback

/-- MC_STATUS (R540). -/
def mcStatus (m : Mc) : Word :=
  w64 (m.fuses * 2 ^ 32 + bitAt m.runB 16 + bitAt m.trial 15 + bitAt m.jtagOpen 14 + bitAt m.recovery 13)

/-- MC_FW_VER (R540). -/
def mcFwVer (m : Mc) : Word :=
  w64 ((if m.bootable m.other then m.other.version.toNat else 0) * 2 ^ 32 + m.running_.version.toNat)

/-- The reset value of THR_Ti without a THRESHOLDS item: CRIT 105 °C and WARN 95 °C, in 1/16 °C (R540). -/
def thrTReset : Word := 0x069005F0

/-- MC block (R540). -/
def readMc (c : Chip) (o : Nat) : Word :=
  let m := c.mc
  if o = 0x000 then mcStatus m
  else if o = 0x008 then mcFwVer m
  else if o = 0x010 then m.fwAddr
  else if o = 0x018 then m.fwLen
  else if o = 0x028 then m.fwStatus.setWidth 64
  else if o = 0x030 then m.events.setWidth 64
  else if 0x038 ≤ o ∧ o ≤ 0x050 then SMap.get 0 m.irqVec ((o - 0x38) / 8)
  else if o = 0x060 then m.cfgAddr
  else if o = 0x070 then m.cfgStatus.setWidth 64
  else if o = 0x078 then m.nonce
  else if o = 0x080 then m.cfg.seq
  else if o = 0x100 then m.seqNext
  else if o = 0x108 then m.logAck
  else if o = 0x110 then m.logLost
  else if o = 0x118 then m.logDropped
  else if o = 0x120 then m.logRate
  else if o = 0x128 then m.rdSeq
  else if o = 0x130 then m.rdStatus.setWidth 64
  else if 0x140 ≤ o ∧ o ≤ 0x178 then w64 (fieldB m.rdData (o - 0x140) 8)
  else if 0x200 ≤ o ∧ o < 0x380 then w64 (wrapInt 16 (SMap.get 0 m.temps ((o - 0x200) / 8)))
  else if 0x400 ≤ o ∧ o < 0x580 then SMap.get thrTReset m.thrT ((o - 0x400) / 8)
  else if 0x600 ≤ o ∧ o < 0x6C0 then w64 (SMap.get 0 m.volts ((o - 0x600) / 8) % 2 ^ 16)
  else if 0x700 ≤ o ∧ o < 0x7C0 then SMap.get 0 m.thrV ((o - 0x700) / 8)
  else if 0x800 ≤ o ∧ o < 0x880 then
    let r := SMap.get (0, 0) m.rails ((o - 0x800) / 8)
    w64 (r.1 % 2 ^ 16 * 2 ^ 32 + r.2 % 2 ^ 32)
  else if 0x900 ≤ o ∧ o < 0x980 then SMap.get 0 m.thrI ((o - 0x900) / 8)
  else 0

/-- The code of a start-up phase (R565). -/
def BootPhase.code : BootPhase → Nat
  | .mcBoot => 0
  | .rails => 1
  | .training => 2
  | .bringup => 3
  | .discovered => 4
  | .joined => 5

/-- RST_STATUS (R565). -/
def rstStatus (r : Rst) : Word := w64 (bitAt r.warm 16 + bitAt r.hbmReady 8 + r.phase.code)

/-- RST block (R565). -/
def readRst (c : Chip) (o : Nat) : Word :=
  if o = 0x08 then rstStatus c.rst
  else if o = 0x10 then w64 (c.rst.bad.toNat * 2 ^ 24 + c.rst.qualified.toNat)
  else if o = 0x18 then c.rst.restarts
  else 0

/-- Whether the registers outside the ID, PWR, MC and RST blocks cannot be reached: from a write of WARM until PHASE reaches TRAINING
(R578), and while their blocks have no power or clock. They read 0 and take no write. -/
def Chip.blackout (c : Chip) : Bool := c.rst.warmDue || !c.hubOn

/-- The 64-bit register at an offset of the device register space; reserved offsets and write-only registers read 0 (R9, R13, R581). -/
def regRead (c : Chip) (o : Nat) : Word :=
  if o < 0x30 then readId c o
  else if 0xB0000 ≤ o ∧ o < 0xB1000 then readPwr c (o - 0xB0000)
  else if 0xC0000 ≤ o ∧ o < 0xC1000 then readMc c (o - 0xC0000)
  else if 0xD0000 ≤ o ∧ o < 0xD0020 then readRst c (o - 0xD0000)
  else if c.blackout then 0
  else if 0x10000 ≤ o ∧ o < 0x18000 then readCstat c ((o - 0x10000) / 0x200) ((o - 0x10000) % 0x200)
  else if 0x40000 ≤ o ∧ o < 0x40068 then readRqt c (o - 0x40000)
  else if 0x41000 ≤ o ∧ o < 0x41200 then readRcp c (o - 0x41000)
  else if 0x42000 ≤ o ∧ o < 0x42100 then SMap.get 0 c.rmap ((o - 0x42000) / 8)
  else if 0x43000 ≤ o ∧ o < 0x43500 then readArb c (o - 0x43000)
  else if 0x44000 ≤ o ∧ o < 0x47000 then readEmb c (o - 0x44000)
  else if 0x47000 ≤ o ∧ o < 0x47C00 then readTxu c (o - 0x47000)
  else if 0x47C00 ≤ o ∧ o < 0x47C40 then readVid c (o - 0x47C00)
  else if 0x48000 ≤ o ∧ o < 0x50000 then readCfr c (o - 0x48000)
  else if 0x50000 ≤ o ∧ o < 0x90000 then readPort c ((o - 0x50000) / 0x10000) ((o - 0x50000) % 0x10000)
  else if 0x90000 ≤ o ∧ o < 0x96000 then readLink (c.link ((o - 0x90000) / 0x400)) ((o - 0x90000) % 0x400)
  else if 0x98000 ≤ o ∧ o < 0xA8000 then readNet c (o - 0x98000)
  else 0

/-- Whether an access has a size and alignment that registers take (R399, R572). -/
def regAligned (o size : Nat) : Bool := (size = 8 && o % 8 = 0) || (size = 4 && o % 4 = 0)

/-- A read of 4 or 8 bytes (R572): the upper half lies at an offset whose value mod 8 is 4. -/
def regLoad (c : Chip) (o size : Nat) : Word :=
  let v := regRead c (o / 8 * 8)
  if size = 8 then v else if o % 8 = 4 then w64 (bits v 63 32) else w64 (bits v 31 0)

end Sys2Proof.Machine
end

