-- ==== Sys2Proof/Machine/Encode.lean ====
section
/-! DEFINITION. The words of the instruction formats (Table 3 of the instruction set): XADDR holds the word of an instruction that
raises ILLEGAL (Table 2 of the exceptions chapter). -/

namespace Sys2Proof.Machine

/-- Format I: op, rd, ra, IMM16. -/
def wordI (op : Nat) (rd ra : Reg) (imm : BitVec 16) : Word :=
  w64 (op * 2 ^ 26 + rd.toNat * 2 ^ 21 + ra.toNat * 2 ^ 16 + imm.toNat)

/-- Format B: op, ra, rb, OFF16. -/
def wordB (op : Nat) (ra rb : Reg) (off : BitVec 16) : Word := wordI op ra rb off

/-- Formats V and VM: op, vd, va, vb, MASK, TYPE, FUNC or MODE. -/
def wordV (op : Nat) (vd va vb : Reg) (mask : BitVec 3) (ty func : BitVec 4) : Word :=
  w64 (op * 2 ^ 26 + vd.toNat * 2 ^ 21 + va.toNat * 2 ^ 16 + vb.toNat * 2 ^ 11 + mask.toNat * 2 ^ 8 + ty.toNat * 2 ^ 4 + func.toNat)

/-- Format VC: op, vd, va, SRCTYPE, MASK, TYPE, PART. -/
def wordVC (op : Nat) (vd va : Reg) (src : BitVec 4) (mask : BitVec 3) (ty part : BitVec 4) : Word :=
  w64 (op * 2 ^ 26 + vd.toNat * 2 ^ 21 + va.toNat * 2 ^ 16 + src.toNat * 2 ^ 12 + mask.toNat * 2 ^ 8 + ty.toNat * 2 ^ 4 + part.toNat)

/-- Format SW: op, ra, rb, rc, TYPE, FUNC. -/
def wordSW (op : Nat) (ra rb rc : Reg) (ty func : BitVec 4) : Word := wordV op ra rb rc 0 ty func

/-- VLD and VST: TYPE, MODE (3 for VLD only), and 2-byte elements at least for MODE 2 (R89). -/
def vmemLegal (load : Bool) (t mode : Nat) : Bool := tyOk t && (mode ≤ 2 || (load && mode = 3)) && !(mode = 2 && tyBits t < 16)
/-- VINT (R91). -/
def vintLegal (t func : Nat) : Bool := tyInt t && (t ≠ 0 || vintAllowsI4 func)
/-- VFP (R92). -/
def vfpLegal (t func : Nat) : Bool := (tyFmt t).isSome && func ≤ 11
/-- VCMP (R96). -/
def vcmpLegal (t func : Nat) : Bool := tyOk t && t ≠ 0 && func ≤ 5
/-- VMISC (R97): reductions 11 to 13 take integers, 14 floats. -/
def vmiscLegal (t func : Nat) : Bool :=
  tyOk t && func ≤ 14 && !(11 ≤ func && func ≤ 13 && !tyInt t) && !(func = 14 && !(tyFmt t).isSome)
/-- VCVT: PART lies below the larger count divided by the smaller (R99). -/
def vcvtLegal (src t part : Nat) : Bool :=
  tyOk src && tyOk t && part < Nat.max (tyCount src) (tyCount t) / Nat.min (tyCount src) (tyCount t)
/-- SWEEP: no I4, VSCAN on integers only, and three different registers, none of them x0 (R100). -/
def sweepLegal (t func : Nat) (ra rb rc : Reg) : Bool :=
  tyOk t && t ≠ 0 && func ≤ 3 && !(func = 1 && !tyInt t) && ra ≠ rb && rb ≠ rc && ra ≠ rc && ra ≠ 0 && rb ≠ 0 && rc ≠ 0

/-- FUNC11 values of OP (Table 5). -/
def opFuncLegal (f : Nat) : Bool := f ≤ 9 || (0x10 ≤ f && f ≤ 0x16) || (0x18 ≤ f && f ≤ 0x1B) || (0x20 ≤ f && f ≤ 0x22)

/-- Whether the instruction set defines a word (R75, R78, R82 to R84, R89 to R100, Table 4). -/
def legalWord (w : BitVec 32) : Bool :=
  let n := w.toNat
  let op := n / 2 ^ 26
  let imm := n % 2 ^ 16
  let t := n / 16 % 16
  let f := n % 16
  if op = 0x01 then opFuncLegal (n % 2 ^ 11)
  else if op = 0x08 then imm / 2 ^ 14 ≠ 3
  else if 0x02 ≤ op ∧ op ≤ 0x0A then true
  else if 0x10 ≤ op ∧ op ≤ 0x16 then true
  else if 0x18 ≤ op ∧ op ≤ 0x25 then true
  else if op = 0x26 then imm % 4 ≠ 3
  else if op = 0x27 then imm % 16 ≤ 3
  else if op = 0x2A then imm / 2 ^ 13 ≤ 5
  else if 0x28 ≤ op ∧ op ≤ 0x2D then true
  else if op = 0x30 then vmemLegal true t f
  else if op = 0x31 then vmemLegal false t f
  else if op = 0x32 then vintLegal t f
  else if op = 0x33 then vfpLegal t f
  else if op = 0x34 then vcmpLegal t f
  else if op = 0x35 then vmiscLegal t f
  else if op = 0x36 then vcvtLegal (n / 2 ^ 12 % 16) t f
  else if op = 0x37 then
    sweepLegal t f (BitVec.ofNat 5 (n / 2 ^ 21)) (BitVec.ofNat 5 (n / 2 ^ 16)) (BitVec.ofNat 5 (n / 2 ^ 11))
  else false

/-- ILLEGAL with the instruction's word in XADDR. -/
def Chip.illegal (c : Chip) (l : Loc) (word : Word) : Chip := c.fault l xIllegal word

end Sys2Proof.Machine
end

