-- ==== Sys2Proof/Machine/Scalar.lean ====
section
/-! DEFINITION. The scalar instructions (R77, R78): one meaning each over two shared shapes. -/

namespace Sys2Proof.Machine

/-- An R-format operation of one slot: rd takes f of ra and rb, and the instruction retires (R77). -/
def Chip.alu (c : Chip) (l : Loc) (rd ra rb : Reg) (f : Word → Word → Word) : Chip :=
  c.issue l (fun s => c.retire l (s.setX rd (f (s.xr ra) (s.xr rb))))

/-- An I-format operation of one slot: rd takes f of ra (R78). -/
def Chip.aluI (c : Chip) (l : Loc) (rd ra : Reg) (f : Word → Word) : Chip :=
  c.issue l (fun s => c.retire l (s.setX rd (f (s.xr ra))))

/-- 1 or 0. -/
def flag (b : Bool) : Word := if b then 1 else 0

/-- Quotient rounded toward zero; divisor 0 gives all ones; -2^63 by -1 gives -2^63 (Table 5). -/
def divS (a b : Word) : Word := if b = 0 then BitVec.allOnes 64 else a.sdiv b
/-- Unsigned quotient; divisor 0 gives all ones. -/
def divU (a b : Word) : Word := if b = 0 then BitVec.allOnes 64 else a.udiv b
/-- Remainder with the sign of the dividend; divisor 0 gives the dividend. -/
def remS (a b : Word) : Word := if b = 0 then a else a.srem b
/-- Unsigned remainder; divisor 0 gives the dividend. -/
def remU (a b : Word) : Word := if b = 0 then a else a.umod b
/-- High half of the signed product. -/
def mulHi (a b : Word) : Word := BitVec.ofInt 64 (a.toInt * b.toInt / (2 ^ 64 : Int))
/-- High half of the unsigned product. -/
def mulHiU (a b : Word) : Word := w64 (a.toNat * b.toNat / 2 ^ 64)
/-- Leading zeros, 0 to 64. -/
def clz64 (a : Word) : Word := w64 (64 - bitLen a.toNat)
/-- Trailing zeros, 0 to 64. -/
def ctz64 (a : Word) : Word := w64 (((List.range 64).find? (fun i => a.getLsbD i)).getD 64)
/-- Set bits. -/
def popc64 (a : Word) : Word := w64 ((List.range 64).filter (fun i => a.getLsbD i)).length
/-- The shift amount rb[5:0]. -/
def shamt (b : Word) : Nat := b.toNat % 64
/-- SHI: SLL, SRL or SRA by the code in IMM16[15:14]; code 3 has no function. -/
def shiFn (code n : Nat) (a : Word) : Word := if code = 0 then a <<< n else if code = 1 then a >>> n else a.sshiftRight n

/-- ADD: ra + rb (R77). -/
def execAdd (l : Loc) (rd ra rb : Reg) (s : State) : Host.Outcome State Fault Refusal :=
  s.run (fun c => c.alu l rd ra rb (fun a b => a + b))

/-- SUB: ra − rb (R77). -/
def execSub (l : Loc) (rd ra rb : Reg) (s : State) : Host.Outcome State Fault Refusal :=
  s.run (fun c => c.alu l rd ra rb (fun a b => a - b))

/-- AND: bitwise AND (R77). -/
def execAnd (l : Loc) (rd ra rb : Reg) (s : State) : Host.Outcome State Fault Refusal :=
  s.run (fun c => c.alu l rd ra rb (fun a b => a &&& b))

/-- OR: bitwise OR (R77). -/
def execOr (l : Loc) (rd ra rb : Reg) (s : State) : Host.Outcome State Fault Refusal :=
  s.run (fun c => c.alu l rd ra rb (fun a b => a ||| b))

/-- XOR: bitwise XOR (R77). -/
def execXor (l : Loc) (rd ra rb : Reg) (s : State) : Host.Outcome State Fault Refusal :=
  s.run (fun c => c.alu l rd ra rb (fun a b => a ^^^ b))

/-- SLL: shift left by rb[5:0] (R77). -/
def execSll (l : Loc) (rd ra rb : Reg) (s : State) : Host.Outcome State Fault Refusal :=
  s.run (fun c => c.alu l rd ra rb (fun a b => a <<< shamt b))

/-- SRL: logical shift right by rb[5:0] (R77). -/
def execSrl (l : Loc) (rd ra rb : Reg) (s : State) : Host.Outcome State Fault Refusal :=
  s.run (fun c => c.alu l rd ra rb (fun a b => a >>> shamt b))

/-- SRA: arithmetic shift right by rb[5:0] (R77). -/
def execSra (l : Loc) (rd ra rb : Reg) (s : State) : Host.Outcome State Fault Refusal :=
  s.run (fun c => c.alu l rd ra rb (fun a b => a.sshiftRight (shamt b)))

/-- SLT: signed less-than (R77). -/
def execSlt (l : Loc) (rd ra rb : Reg) (s : State) : Host.Outcome State Fault Refusal :=
  s.run (fun c => c.alu l rd ra rb (fun a b => flag (a.slt b)))

/-- SLTU: unsigned less-than (R77). -/
def execSltu (l : Loc) (rd ra rb : Reg) (s : State) : Host.Outcome State Fault Refusal :=
  s.run (fun c => c.alu l rd ra rb (fun a b => flag (a.ult b)))

/-- MUL: low half of the product (R77). -/
def execMul (l : Loc) (rd ra rb : Reg) (s : State) : Host.Outcome State Fault Refusal :=
  s.run (fun c => c.alu l rd ra rb (fun a b => a * b))

/-- MULH: high half of the signed product (R77). -/
def execMulh (l : Loc) (rd ra rb : Reg) (s : State) : Host.Outcome State Fault Refusal :=
  s.run (fun c => c.alu l rd ra rb (fun a b => mulHi a b))

/-- MULHU: high half of the unsigned product (R77). -/
def execMulhu (l : Loc) (rd ra rb : Reg) (s : State) : Host.Outcome State Fault Refusal :=
  s.run (fun c => c.alu l rd ra rb (fun a b => mulHiU a b))

/-- DIV: signed quotient (R77). -/
def execDiv (l : Loc) (rd ra rb : Reg) (s : State) : Host.Outcome State Fault Refusal :=
  s.run (fun c => c.alu l rd ra rb (fun a b => divS a b))

/-- DIVU: unsigned quotient (R77). -/
def execDivu (l : Loc) (rd ra rb : Reg) (s : State) : Host.Outcome State Fault Refusal :=
  s.run (fun c => c.alu l rd ra rb (fun a b => divU a b))

/-- REM: signed remainder (R77). -/
def execRem (l : Loc) (rd ra rb : Reg) (s : State) : Host.Outcome State Fault Refusal :=
  s.run (fun c => c.alu l rd ra rb (fun a b => remS a b))

/-- REMU: unsigned remainder (R77). -/
def execRemu (l : Loc) (rd ra rb : Reg) (s : State) : Host.Outcome State Fault Refusal :=
  s.run (fun c => c.alu l rd ra rb (fun a b => remU a b))

/-- MIN: signed minimum (R77). -/
def execMin (l : Loc) (rd ra rb : Reg) (s : State) : Host.Outcome State Fault Refusal :=
  s.run (fun c => c.alu l rd ra rb (fun a b => if b.slt a then b else a))

/-- MAX: signed maximum (R77). -/
def execMax (l : Loc) (rd ra rb : Reg) (s : State) : Host.Outcome State Fault Refusal :=
  s.run (fun c => c.alu l rd ra rb (fun a b => if a.slt b then b else a))

/-- MINU: unsigned minimum (R77). -/
def execMinu (l : Loc) (rd ra rb : Reg) (s : State) : Host.Outcome State Fault Refusal :=
  s.run (fun c => c.alu l rd ra rb (fun a b => if b.ult a then b else a))

/-- MAXU: unsigned maximum (R77). -/
def execMaxu (l : Loc) (rd ra rb : Reg) (s : State) : Host.Outcome State Fault Refusal :=
  s.run (fun c => c.alu l rd ra rb (fun a b => if a.ult b then b else a))

/-- CLZ: leading zeros of ra (R77). -/
def execClz (l : Loc) (rd ra rb : Reg) (s : State) : Host.Outcome State Fault Refusal :=
  s.run (fun c => c.alu l rd ra rb (fun a _ => clz64 a))

/-- CTZ: trailing zeros of ra (R77). -/
def execCtz (l : Loc) (rd ra rb : Reg) (s : State) : Host.Outcome State Fault Refusal :=
  s.run (fun c => c.alu l rd ra rb (fun a _ => ctz64 a))

/-- POPC: set bits of ra (R77). -/
def execPopc (l : Loc) (rd ra rb : Reg) (s : State) : Host.Outcome State Fault Refusal :=
  s.run (fun c => c.alu l rd ra rb (fun a _ => popc64 a))

/-- ADDI: ra plus the sign-extended immediate (R78). -/
def execAddi (l : Loc) (rd ra : Reg) (imm : BitVec 16) (s : State) : Host.Outcome State Fault Refusal :=
  s.run (fun c => c.aluI l rd ra (fun a => a + sext16 imm))

/-- ANDI: AND with the zero-extended immediate (R78). -/
def execAndi (l : Loc) (rd ra : Reg) (imm : BitVec 16) (s : State) : Host.Outcome State Fault Refusal :=
  s.run (fun c => c.aluI l rd ra (fun a => a &&& imm.setWidth 64))

/-- ORI: OR with the zero-extended immediate (R78). -/
def execOri (l : Loc) (rd ra : Reg) (imm : BitVec 16) (s : State) : Host.Outcome State Fault Refusal :=
  s.run (fun c => c.aluI l rd ra (fun a => a ||| imm.setWidth 64))

/-- XORI: XOR with the zero-extended immediate (R78). -/
def execXori (l : Loc) (rd ra : Reg) (imm : BitVec 16) (s : State) : Host.Outcome State Fault Refusal :=
  s.run (fun c => c.aluI l rd ra (fun a => a ^^^ imm.setWidth 64))

/-- SLTI: signed less-than against the sign-extended immediate (R78). -/
def execSlti (l : Loc) (rd ra : Reg) (imm : BitVec 16) (s : State) : Host.Outcome State Fault Refusal :=
  s.run (fun c => c.aluI l rd ra (fun a => flag (a.slt (sext16 imm))))

/-- SLTIU: unsigned less-than against the sign-extended immediate (R78). -/
def execSltiu (l : Loc) (rd ra : Reg) (imm : BitVec 16) (s : State) : Host.Outcome State Fault Refusal :=
  s.run (fun c => c.aluI l rd ra (fun a => flag (a.ult (sext16 imm))))

/-- LIS: ra shifted left by 16, with the immediate below (R78). -/
def execLis (l : Loc) (rd ra : Reg) (imm : BitVec 16) (s : State) : Host.Outcome State Fault Refusal :=
  s.run (fun c => c.aluI l rd ra (fun a => (a <<< 16) ||| imm.setWidth 64))

/-- SHI: shift by IMM16[5:0]; code 3 in IMM16[15:14] raises ILLEGAL (R78). -/
def execShi (l : Loc) (rd ra : Reg) (imm : BitVec 16) (s : State) : Host.Outcome State Fault Refusal :=
  s.run (fun c =>
    if imm.toNat / 2 ^ 14 = 3 then c.issue l (fun _ => c.illegal l (wordI 0x08 rd ra imm))
    else c.aluI l rd ra (shiFn (imm.toNat / 2 ^ 14) (imm.toNat % 64)))

/-- LUI: the sign-extended immediate shifted left by 16 (R78). -/
def execLui (l : Loc) (rd : Reg) (imm : BitVec 16) (s : State) : Host.Outcome State Fault Refusal :=
  s.run (fun c => c.aluI l rd 0 (fun _ => sext16 imm <<< 16))

end Sys2Proof.Machine
end

