-- ==== Sys2Proof/Machine/Access.lean ====
section
/-! DEFINITION. How a task slot reads and writes memory (R76, R79, R113 to R134): checks, the store buffer, other packages, and
reservations (R144 to R146, R152). -/

namespace Sys2Proof.Machine

/-- Whether a slot's Device Strict store is still in the buffer: no younger access of the slot begins before it (R133). -/
def Core.strictWaits (k : Core) (slot : Nat) : Bool := k.storeBuf.any (fun e => e.slot = slot && e.strict)

/-- Why a Device Strict access of a slot must wait for its older accesses (R133). -/
def Core.olderWait (k : Core) (slot : Nat) : Option Cause :=
  if k.sbHolds slot then some .storeDrain else if k.slotOutstanding slot then some .lateRemote else none

/-- A loaded value in a register: sign- or zero-extended from n bytes (R79). -/
def extend (n : Nat) (sgn : Bool) (v : Nat) : Word := if sgn then BitVec.ofInt 64 (signed (8 * n) v) else w64 (v % 2 ^ (8 * n))

/-- A remote operation of a slot to a package that is lost or has no route ends its Request at once (R141, R470). -/
def Chip.slotRemoteEnd (c : Chip) (l : Loc) (pkg : Nat) : Chip :=
  let s := c.slot l
  (c.setSlot l { s with stopped := true, wait := none }).endReq s.ctxNum 0x15 (detailRemote pkg false)

/-- Whether a slot's transaction with another package can leave the core: the package is reachable, and a tracker is free (R219). -/
def Chip.slotLeaves (c : Chip) (l : Loc) (pkg : Nat) : Bool := c.reachable pkg && (c.core l.fc.toNat).slotTrackers 1

/-- A slot sends a read to another package and waits for the answer. -/
def Chip.slotRead (c : Chip) (l : Loc) (kind : TrkKind) (t : Target) (pkg size : Nat) (data : List Byte) (dst : LoadDst) : Chip :=
  if c.reachable pkg = false then c.slotRemoteEnd l pkg
  else if (c.core l.fc.toNat).slotTrackers 1 = false then c.stallSlot l .trackerFull
  else
    let r := c.remote l.fc.toNat (.slot l.slot.toNat) kind t pkg size data (c.slot l).ctxNum 0
    let c1 := r.1.stallSlot l .lateRemote
    c1.setSlot l { c1.slot l with pend := some { dst := dst, want := [(r.2, 0)], got := [] } }

/-- A load of a device register of this package (R115, R572, R574): 4 or 8 bytes. -/
def Chip.loadReg (c : Chip) (l : Loc) (s : Slot) (rd : Reg) (ea : Word) (n : Nat) (sgn : Bool) : Chip :=
  if gaPkg ea ≠ c.self then c.fault l xMem ea
  else if gaOff ea % n ≠ 0 then c.fault l xAlign ea
  else if n < 4 then c.fault l xMem ea
  else
    match (c.core l.fc.toNat).olderWait l.slot.toNat with
    | some w => c.stallSlot l w
    | none => c.retire l (s.setX rd (extend n sgn (regLoad c (gaOff ea) n).toNat))

/-- A load of n bytes that has passed its checks. -/
def Chip.loadAt (c : Chip) (l : Loc) (s : Slot) (rd : Reg) (t : Target) (n : Nat) (sgn ecc : Bool) : Chip :=
  let fc := l.fc.toNat
  match (if t.ty = 2 then (c.core fc).olderWait l.slot.toNat else none) with
  | some w => c.stallSlot l w
  | none =>
    match c.forward fc l.slot.toNat t.key n with
    | .wait => c.stallSlot l .storeDrain
    | .value v => c.retire l (s.setX rd (extend n sgn v))
    | .memory =>
      match t.pkg with
      | some p => c.slotRead l .read t p n [] (.scalar rd n sgn)
      | none =>
        match c.homeWait t with
        | some w => c.stallSlot l w
        | none =>
          if (c.core fc).mayReach fc t.off = false then c.stallSlot l .trackerFull
          else if ecc then c.slotEcc l (w64 t.off)
          else (c.here fc (.slot l.slot.toNat) false none t.off).retire l (s.setX rd (extend n sgn (if t.row = .basin then 0 else leNat (c.bytes t.off n))))

/-- Whether an address lies in a Device Strict region (R122). -/
def Chip.strictAt (c : Chip) (fc : Nat) (ea : Word) : Bool :=
  match c.access (some fc) ea 1 false with
  | some t => t.ty = 2
  | none => false

/-- A scalar load (R79). -/
def Chip.load (c : Chip) (l : Loc) (rd ra : Reg) (imm : BitVec 16) (n : Nat) (sgn ecc : Bool) : Chip :=
  c.issue l (fun s =>
    let ea := effAddr (s.xr ra) (sext16 imm)
    let fc := l.fc.toNat
    if (c.core fc).strictWaits l.slot.toNat then c.stallSlot l .storeDrain
    else if gaKind ea = 2 then c.loadReg l s rd ea n sgn
    else if c.strictAt fc ea && ea.toNat % n ≠ 0 then c.fault l xAlign ea
    else
      match c.access (some fc) ea n false with
      | none => c.fault l xMem ea
      | some t => c.loadAt l s rd t n sgn ecc)

/-- A scalar store (R79, R130, R131): it takes an entry of the store buffer. -/
def Chip.store (c : Chip) (l : Loc) (rs ra : Reg) (imm : BitVec 16) (n : Nat) : Chip :=
  c.issue l (fun s =>
    let ea := effAddr (s.xr ra) (sext16 imm)
    let fc := l.fc.toNat
    let k := c.core fc
    if k.strictWaits l.slot.toNat then c.stallSlot l .storeDrain
    else if c.strictAt fc ea && ea.toNat % n ≠ 0 then c.fault l xAlign ea
    else
      match c.access (some fc) ea n true with
      | none => c.fault l xMem ea
      | some t =>
        if 16 ≤ k.storeBuf.length + k.frameQ.length then c.stallSlot l .storeDrain
        else
          let e : SbEntry := { slot := l.slot.toNat, addr := ea, size := n, data := w64 ((s.xr rs).toNat % 2 ^ (8 * n)),
                               strict := t.ty = 2, sent := false, trk := 0, ctx := s.ctxNum }
          (c.setCore fc { k with storeBuf := k.storeBuf ++ [e] }).retire l s)

/-! Reservations (R144 to R146). -/

/-- The granule of an address: its Global Address without the low 8 bits. -/
def granuleOf (ea : Word) : Word := ea &&& ~~~(0xFF : Word)

/-- Who holds a reservation at a home slice: a slot of a core. -/
def slotHolder (l : Loc) : Nat := l.fc.toNat * 8 + l.slot.toNat

/-- A reservation set at its home slice on this package: the holder's older one goes, and with 64 held the slice's oldest one is lost
(R145). Entries stand oldest first: package, holder, granule number. -/
def Chip.reserveHome (c : Chip) (pkg who off : Nat) : Chip :=
  let old := c.rsvs.filter (fun r => ¬ (r.1 = pkg ∧ r.2.1 = who))
  let same := old.filter (fun r => sliceOf (r.2.2 * 256) = sliceOf off)
  let kept := if same.length < 64 then old else match same.head? with | none => old | some e => old.erase e
  { c with rsvs := kept ++ [(pkg, who, off / 256)] }

/-- Whether a holder has a reservation on the granule of an offset. -/
def Chip.reservedHome (c : Chip) (pkg who off : Nat) : Bool := (pkg, who, off / 256) ∈ c.rsvs

/-- A holder's reservation gone from its home slice. -/
def Chip.unreserveHome (c : Chip) (pkg who : Nat) : Chip := { c with rsvs := c.rsvs.filter (fun r => ¬ (r.1 = pkg ∧ r.2.1 = who)) }

/-- Whether the 4,096 cycles of a reservation have ended (R145). -/
def Core.rsvOver (k : Core) (s : Slot) : Bool := s.rsvAt.toNat + 4096 < k.cycles.toNat

/-- Whether an address may hold a reservation: NC or NS of Recipe-use HBM (R144). -/
def Target.reservable (t : Target) : Bool := t.row = .hbm && t.ty < 2

/-- LDRV (R81, R144). -/
def Chip.ldrv (c : Chip) (l : Loc) (rd ra : Reg) (imm : BitVec 16) (ecc : Bool) : Chip :=
  c.issue l (fun s =>
    let ea := effAddr (s.xr ra) (sext16 imm)
    let fc := l.fc.toNat
    if ea.toNat % 8 ≠ 0 then c.fault l xAlign ea
    else
      match c.access (some fc) ea 8 false with
      | none => c.fault l xMem ea
      | some t =>
        if t.reservable = false then c.fault l xMem ea
        else if (c.core fc).sbHolds l.slot.toNat then c.stallSlot l .storeDrain
        else
          match t.pkg with
          | some p => c.slotRead l .reserve t p 8 [] (.reserve rd t.key)
          | none =>
            match c.homeWait t with
            | some w => c.stallSlot l w
            | none =>
              if (c.core fc).mayReach fc t.off = false then c.stallSlot l .trackerFull
              else if ecc then c.slotEcc l ea
              else
                ((c.here fc (.slot l.slot.toNat) false none t.off).reserveHome c.self (slotHolder l) t.off).retire l
                  { s.setX rd (w64 (leNat (c.bytes t.off 8))) with rsv := some (granuleOf ea), rsvAt := (c.core fc).cycles })

/-- The granule of a reservation held by a slot is that of a target (R81, R108, R148). -/
def Chip.rsvMatches (c : Chip) (fc : Nat) (s : Slot) (t : Target) : Bool :=
  match s.rsv with
  | none => false
  | some g =>
    match c.access (some fc) g 1 false with
    | some u => u.key / 256 = t.key / 256 && u.pkg = t.pkg
    | none => false

/-- STCV (R81, R108, R144, R146, R152). One that stalls before it leaves the core keeps its reservation; one that waits at a home whose domain
is off has left within the count, which no longer ends it (R152). -/
def Chip.stcv (c : Chip) (l : Loc) (rd ra rb : Reg) : Chip :=
  c.issue l (fun s =>
    let ea := s.xr ra
    let fc := l.fc.toNat
    if ea.toNat % 8 ≠ 0 then c.fault l xAlign ea
    else
      match c.access (some fc) ea 8 true with
      | none => c.fault l xMem ea
      | some t =>
        if t.reservable = false then c.fault l xMem ea
        else if (c.core fc).sbHolds l.slot.toNat then c.stallSlot l .storeDrain
        else
          let gone := { s with rsv := none }
          let left := c.setSlot l { s with rsvAt := BitVec.allOnes 64 }
          if c.rsvMatches fc s t = false ∨ (c.core fc).rsvOver s = true then
            (c.unreserveHome c.self (slotHolder l)).retire l (gone.setX rd 1)
          else
            match t.pkg with
            | some p =>
              if c.slotLeaves l p then (c.setSlot l gone).slotRead l .storeCond t p 8 (leBytes 8 (s.xr rb).toNat) (.storeCond rd)
              else c.slotRead l .storeCond t p 8 [] (.storeCond rd)
            | none =>
              match c.homeWait t with
              | some w => left.stallSlot l w
              | none =>
                let c1 := c.here fc (.slot l.slot.toNat) true none t.off
                if (c.core fc).mayReach fc t.off = false then c.stallSlot l .trackerFull
                else if c.reservedHome c.self (slotHolder l) t.off then
                  ((c1.putAt t.off (leBytes 8 (s.xr rb).toNat)).unreserveHome c.self (slotHolder l)).retire l (gone.setX rd 0)
                else c1.retire l (gone.setX rd 1))

/-- The reservation count of a core ends: RSV.VALID is cleared (R145). -/
def Chip.rsvTimeout (c : Chip) (l : Loc) : Chip :=
  let s := c.slot l
  if s.rsv.isSome && (c.core l.fc.toNat).rsvOver s then
    (c.unreserveHome c.self (slotHolder l)).setSlot l { s with rsv := none }
  else c

/-! Draining (R132, R149). -/

/-- The oldest entry of a core's store buffer is performed at its home and leaves; one for another package leaves when it is
acknowledged, and one for a lost package ends its Request. -/
def Chip.drain (c : Chip) (fc : Nat) : Chip :=
  let k := c.core fc
  match k.storeBuf with
  | [] => c.setCore fc k.refill
  | e :: rest =>
    let pop := c.setCore fc { k with storeBuf := rest }.refill
    match c.access (some fc) e.addr e.size true with
    | none => pop
    | some t =>
      match t.pkg with
      | none =>
        if (c.homeWait t).isSome ∨ (e.strict = true ∧ k.slotOutstanding e.slot = true) ∨ k.mayReach fc t.off = false then c
        else (pop.here fc (.slot e.slot) true none t.off).putAt t.off (leBytes e.size e.data.toNat)
      | some p =>
        if e.sent then c
        else if c.reachable p = false then pop.endReq e.ctx 0x15 (detailRemote p false)
        else if k.slotTrackers 1 = false ∨ (e.strict = true ∧ k.slotOutstanding e.slot = true) then c
        else
          let r := c.remote fc (.slot e.slot) .storeBuf t p e.size (leBytes e.size e.data.toNat) e.ctx 0
          r.1.setCore fc { r.1.core fc with storeBuf := { e with sent := true, trk := r.2 } :: rest }

end Sys2Proof.Machine
end

