-- ==== Sys2Proof/Machine/LoadStore.lean ====
section
/-! DEFINITION. Scalar loads, stores and the reservation pair (R79, R81). -/

namespace Sys2Proof.Machine

/-- LB: 1 byte, sign-extended (R79). -/
def execLb (l : Loc) (rd ra : Reg) (imm : BitVec 16) (ecc : Bool) (s : State) : Host.Outcome State Fault Refusal :=
  s.run (fun c => c.load l rd ra imm 1 true ecc)

/-- LBU: 1 byte, zero-extended (R79). -/
def execLbu (l : Loc) (rd ra : Reg) (imm : BitVec 16) (ecc : Bool) (s : State) : Host.Outcome State Fault Refusal :=
  s.run (fun c => c.load l rd ra imm 1 false ecc)

/-- LH: 2 bytes, sign-extended (R79). -/
def execLh (l : Loc) (rd ra : Reg) (imm : BitVec 16) (ecc : Bool) (s : State) : Host.Outcome State Fault Refusal :=
  s.run (fun c => c.load l rd ra imm 2 true ecc)

/-- LHU: 2 bytes, zero-extended (R79). -/
def execLhu (l : Loc) (rd ra : Reg) (imm : BitVec 16) (ecc : Bool) (s : State) : Host.Outcome State Fault Refusal :=
  s.run (fun c => c.load l rd ra imm 2 false ecc)

/-- LW: 4 bytes, sign-extended (R79). -/
def execLw (l : Loc) (rd ra : Reg) (imm : BitVec 16) (ecc : Bool) (s : State) : Host.Outcome State Fault Refusal :=
  s.run (fun c => c.load l rd ra imm 4 true ecc)

/-- LWU: 4 bytes, zero-extended (R79). -/
def execLwu (l : Loc) (rd ra : Reg) (imm : BitVec 16) (ecc : Bool) (s : State) : Host.Outcome State Fault Refusal :=
  s.run (fun c => c.load l rd ra imm 4 false ecc)

/-- LD: 8 bytes, sign-extended (R79). -/
def execLd (l : Loc) (rd ra : Reg) (imm : BitVec 16) (ecc : Bool) (s : State) : Host.Outcome State Fault Refusal :=
  s.run (fun c => c.load l rd ra imm 8 true ecc)

/-- SB: the low 1 byte of rs (R79). -/
def execSb (l : Loc) (rs ra : Reg) (imm : BitVec 16) (s : State) : Host.Outcome State Fault Refusal :=
  s.run (fun c => c.store l rs ra imm 1)

/-- SH: the low 2 bytes of rs (R79). -/
def execSh (l : Loc) (rs ra : Reg) (imm : BitVec 16) (s : State) : Host.Outcome State Fault Refusal :=
  s.run (fun c => c.store l rs ra imm 2)

/-- SW: the low 4 bytes of rs (R79). -/
def execSw (l : Loc) (rs ra : Reg) (imm : BitVec 16) (s : State) : Host.Outcome State Fault Refusal :=
  s.run (fun c => c.store l rs ra imm 4)

/-- SD: the low 8 bytes of rs (R79). -/
def execSd (l : Loc) (rs ra : Reg) (imm : BitVec 16) (s : State) : Host.Outcome State Fault Refusal :=
  s.run (fun c => c.store l rs ra imm 8)

/-- LDRV: a load of 8 bytes that sets the slot's reservation (R81). -/
def execLdrv (l : Loc) (rd ra : Reg) (imm : BitVec 16) (ecc : Bool) (s : State) : Host.Outcome State Fault Refusal :=
  s.run (fun c => c.ldrv l rd ra imm ecc)

/-- STCV: a store of 8 bytes only under the slot's reservation (R81). -/
def execStcv (l : Loc) (rd ra rb : Reg) (s : State) : Host.Outcome State Fault Refusal := s.run (fun c => c.stcv l rd ra rb)

/-- STORE_BUFFER_DRAIN: the oldest buffered store of a core is performed (R132). -/
def execStoreBufferDrain (fc : BitVec 6) (s : State) : Host.Outcome State Fault Refusal := s.run (fun c => c.drain fc.toNat)

/-- RESERVATION_TIMEOUT: 4,096 cycles have ended (R145). -/
def execReservationTimeout (l : Loc) (s : State) : Host.Outcome State Fault Refusal := s.run (fun c => c.rsvTimeout l)

end Sys2Proof.Machine
end

