-- ==== Sys2Proof/Machine/Branch.lean ====
section
/-! DEFINITION. Branches and jumps (R80, R107). -/

namespace Sys2Proof.Machine

/-- A branch to pc + 4·sext(OFF16) when its condition holds. -/
def Chip.branch (c : Chip) (l : Loc) (ra rb : Reg) (off : BitVec 16) (cond : Word → Word → Bool) : Chip :=
  c.issue l (fun s =>
    if cond (s.xr ra) (s.xr rb) then (c.retireAt l s (s.pc + 4 * sext16 off) false).landed l else c.retire l s)

/-- BEQ: equal (R80). -/
def execBeq (l : Loc) (ra rb : Reg) (off : BitVec 16) (s : State) : Host.Outcome State Fault Refusal :=
  s.run (fun c => c.branch l ra rb off (fun a b => a = b))

/-- BNE: unequal (R80). -/
def execBne (l : Loc) (ra rb : Reg) (off : BitVec 16) (s : State) : Host.Outcome State Fault Refusal :=
  s.run (fun c => c.branch l ra rb off (fun a b => a ≠ b))

/-- BLT: signed less-than (R80). -/
def execBlt (l : Loc) (ra rb : Reg) (off : BitVec 16) (s : State) : Host.Outcome State Fault Refusal :=
  s.run (fun c => c.branch l ra rb off (fun a b => a.slt b))

/-- BGE: signed greater-or-equal (R80). -/
def execBge (l : Loc) (ra rb : Reg) (off : BitVec 16) (s : State) : Host.Outcome State Fault Refusal :=
  s.run (fun c => c.branch l ra rb off (fun a b => !(a.slt b)))

/-- BLTU: unsigned less-than (R80). -/
def execBltu (l : Loc) (ra rb : Reg) (off : BitVec 16) (s : State) : Host.Outcome State Fault Refusal :=
  s.run (fun c => c.branch l ra rb off (fun a b => a.ult b))

/-- BGEU: unsigned greater-or-equal (R80). -/
def execBgeu (l : Loc) (ra rb : Reg) (off : BitVec 16) (s : State) : Host.Outcome State Fault Refusal :=
  s.run (fun c => c.branch l ra rb off (fun a b => !(a.ult b)))

/-- JAL: rd takes pc + 4 and pc takes pc + 4·sext(OFF21) (R80). -/
def execJal (l : Loc) (rd : Reg) (off : BitVec 21) (s : State) : Host.Outcome State Fault Refusal :=
  s.run (fun c => c.issue l (fun t =>
    (c.retireAt l (t.setX rd (t.pc + 4)) (t.pc + 4 * off.signExtend 64) false).landed l))

/-- JALR: rd takes pc + 4 and pc takes ra + sext(IMM16) with bits [1:0] cleared, ra read first (R80). -/
def execJalr (l : Loc) (rd ra : Reg) (imm : BitVec 16) (s : State) : Host.Outcome State Fault Refusal :=
  s.run (fun c => c.issue l (fun t =>
    (c.retireAt l (t.setX rd (t.pc + 4)) ((t.xr ra + sext16 imm) &&& ~~~(3 : Word)) false).landed l))

end Sys2Proof.Machine
end

