-- ==== Sys2Proof/Machine/System.lean ====
section
/-! DEFINITION. Fences (R82, R136), SYS (R83), return from exceptions (R162 to R166), and the core state registers (R104, R105,
R112, R158, R178), with the stream registers (R212 to R217). -/

namespace Sys2Proof.Machine

/-! Fences. -/

/-- Whether a slot's earlier accesses on this package are performed: vector and local accesses are at once, so only its buffered
stores count (R136). -/
def Core.fenceLDone (k : Core) (slot : Nat) : Bool := !(k.sbHolds slot)

/-- Whether all of a slot's earlier accesses and Short Messages are performed everywhere (R136). -/
def Core.fenceGDone (k : Core) (slot : Nat) : Bool := !(k.sbHolds slot) && !(k.slotOutstanding slot)

/-- The engines that ENGINES names: 0 means all six (R82). -/
def fenceEngines (m : BitVec 6) : List Nat := (List.range 6).filter (fun e => m = 0 || m.getLsbD e)

/-- Whether every command that a slot issued to the named engines is complete, its DONE put included (R82, R207). -/
def Core.fenceEDone (k : Core) (slot : Nat) (m : BitVec 6) : Bool :=
  (fenceEngines m).all (fun e => !((k.engine e).queue.any (fun x => x.slot = slot)))

/-- FENCE.L (R82, R136). -/
def execFenceL (l : Loc) (s : State) : Host.Outcome State Fault Refusal :=
  s.run (fun c => c.issue l (fun t =>
    if (c.core l.fc.toNat).fenceLDone l.slot.toNat then c.retire l t else c.stallSlot l .fenceWait))

/-- FENCE.G (R82, R136). -/
def execFenceG (l : Loc) (s : State) : Host.Outcome State Fault Refusal :=
  s.run (fun c => c.issue l (fun t =>
    if (c.core l.fc.toNat).fenceGDone l.slot.toNat then c.retire l t else c.stallSlot l .fenceWait))

/-- FENCE.E (R82, R136). -/
def execFenceE (l : Loc) (engines : BitVec 6) (s : State) : Host.Outcome State Fault Refusal :=
  s.run (fun c => c.issue l (fun t =>
    if (c.core l.fc.toNat).fenceEDone l.slot.toNat engines then c.retire l t else c.stallSlot l .fenceWait))

/-! SYS. -/

/-- A stage of a Request in a state (R61). -/
def Chip.setStage (c : Chip) (ctx stage : Nat) (st : StageState) : Chip :=
  match c.ctx ctx with
  | some x => c.setCtx ctx { x with stages := SMap.set x.stages stage st }
  | none => c

/-- TEND: waits as FENCE.E on all engines and as FENCE.L, reports the stage complete and frees the slot (R83). -/
def execTend (l : Loc) (s : State) : Host.Outcome State Fault Refusal :=
  s.run (fun c => c.issue l (fun t =>
    let k := c.core l.fc.toNat
    if k.fenceEDone l.slot.toNat 0 && k.fenceLDone l.slot.toNat then
      let c1 := (c.retire l t).setSlot l Slot.reset
      match t.task with
      | some k => c1.setStage k.ctx k.stage .reported
      | none => c1
    else c.stallSlot l .fenceWait))

/-- YIELD: no effect but the advance of pc (R83). -/
def execYield (l : Loc) (s : State) : Host.Outcome State Fault Refusal :=
  s.run (fun c => c.issue l (fun t => c.retire l t))

/-- TRAP: completes, then raises TRAP with its code; XEPC is the next word (R83, R155, R159). -/
def execTrap (l : Loc) (code : BitVec 12) (s : State) : Host.Outcome State Fault Refusal :=
  s.run (fun c => c.issue l (fun t => (c.retire l t).exc l (xcauseOf false false code.toNat 4) (t.pc + 4) 0))

/-- The words of a frame as the slot reads them (Table 6 of the exceptions chapter). -/
def Chip.frameRead (c : Chip) (l : Loc) (f : Word) (i : Nat) : Word :=
  w64 (leNat (c.slotBytes l.fc.toNat l.slot.toNat (c.localOff (some l.fc.toNat) f + 8 * i) 8))

/-- The slot after ERET restores the frame (R162): DEPTH falls by 1, and reserved bits read 0. -/
def Slot.leave (s : Slot) (word : Nat → Word) : Slot :=
  let x := (List.range 8).foldl (fun (t : Slot) i => t.setX (BitVec.ofNat 5 (i + 1)) (word (8 + i))) s
  { x with
    fpflags := word 4 &&& 0x1F, swpShift := word 5 &&& 0x3F, bsrchBase := word 6, bsrchEdges := word 7 &&& 0x1FFFF,
    xstatus := setBits (word 3 &&& 7) 8 4 (depthOf s.xstatus - 1), xsp := s.xsp + 128 }

/-- ERET (R162 to R166): ILLEGAL at DEPTH 0; Double Fault on an invalid XSP; with ABORT in the frame the Request ends; else the
frame is restored. The Core Fault Record values of an ERET that fails are not stated: they are free. -/
def execEret (l : Loc) (s : State) : Host.Outcome State Fault Refusal :=
  s.run (fun c => c.issue l (fun t =>
    if depthOf t.xstatus = 0 then c.illegal l (wordI 0x27 0 0 3)
    else if !c.frameOk l.fc.toNat t.xsp then
      c.spend.spend.spend.doubleFault l 4 c.free c.spend.free c.spend.spend.free
    else if bit (c.frameRead l t.xsp 3) 2 then c.excEnd l (c.frameRead l t.xsp 1)
    else (c.retireAt l (t.leave (c.frameRead l t.xsp)) (c.frameRead l t.xsp 0 &&& ~~~(3 : Word)) false).landed l))

/-! Streams (R212 to R217). -/

/-- DIR (Table 3 of the streams chapter): true for OUT. -/
def Stream.out (t : Stream) : Bool := bit t.cfg 44
/-- BUF, the Pool offset of slot 0. -/
def Stream.buf (t : Stream) : Nat := bits t.cfg 43 29 * 32
/-- SLOT_SIZE in bytes: 0 means 4,096 units. -/
def Stream.slotBytes (t : Stream) : Nat := (if bits t.cfg 28 17 = 0 then 4096 else bits t.cfg 28 17) * 32
/-- SLOTS: 0 means 64; 1 and 2 act as 3. -/
def Stream.slots (t : Stream) : Nat :=
  let n := bits t.cfg 16 11
  if n = 0 then 64 else if n < 3 then 3 else n
/-- MODE: 0 DIRECT, 1 RING, 2 PINGPONG; 3 acts as 0. -/
def Stream.mode (t : Stream) : Nat := bits t.cfg 10 9 % 3
/-- LIMIT: 0 acts as 1, above 256 as 256. -/
def Stream.limit (t : Stream) : Nat := clampNat 1 256 (bits t.cfg 8 0)
/-- The Pool offset of slot j (R213). -/
def Stream.slotAt (t : Stream) (j : Nat) : Nat := (t.buf + j * t.slotBytes) % 2 ^ 20

/-- FILLED: slots that hold data; in PINGPONG, the full halves. -/
def Stream.holding (t : Stream) : Nat := if t.mode = 2 then (if t.half0 then 1 else 0) + (if t.half1 then 1 else 0) else t.filled

/-- STRs_CFG as it reads (Table 3). -/
def Stream.cfgWord (t : Stream) : Word := w64 (t.head * 2 ^ 58 + t.tail * 2 ^ 52 + t.holding * 2 ^ 45 + bits t.cfg 44 0)

/-- Whether a command naming a stream is queued or running on a core (R214). -/
def Core.streamBusy (k : Core) (i : Nat) : Bool :=
  (List.range 6).any (fun e => (k.engine e).queue.any (fun x => fieldB x.bytes 2 1 % 64 = i))

/-- A configuring write, or one that takes only LIMIT (R214, R234). -/
def Stream.configure (t : Stream) (busy : Bool) (v : Word) : Stream :=
  if busy then { t with cfg := setBits t.cfg 0 9 v.toNat } else { Stream.reset with cfg := w64 (bits v 44 0) }

/-- Why MFS STRs_RING stalls, if it does: the program end has no slot (Table 4). -/
def Stream.ringWait (t : Stream) : Option Cause :=
  if t.mode = 1 then
    (if t.out then (if t.filled = t.slots then some .ringFull else none) else (if t.filled = 0 then some .ringEmpty else none))
  else none

/-- What MFS STRs_RING returns (Table 4, R217). -/
def Stream.ringWord (t : Stream) : Word :=
  if t.mode = 1 then w64 ((SMap.get 0xFFFFFFFF t.slotSeq t.tail).toNat * 2 ^ 32 + t.slotAt t.tail)
  else if t.mode = 2 then w64 (t.halfSeq.toNat * 2 ^ 32 + bitAt t.half1 1 + bitAt t.half0 0)
  else 0

/-- Whether the program end holds a half: one that is full of an IN stream, one that is not of an OUT stream (R215). -/
def Stream.programHalf (t : Stream) (i : Nat) : Bool := (if i = 0 then t.half0 else t.half1) ≠ t.out

/-- The next half at the program end after it has handed over the halves that v names (Table 3, Table 4). -/
def Stream.tailAfter (t : Stream) (v : Word) : Nat :=
  let gives := fun i => bit v i && t.programHalf i
  if gives (t.tail % 2) then (if gives (1 - t.tail % 2) then t.tail % 2 else 1 - t.tail % 2) else t.tail

/-- Slots handed over by the program end (Table 4, R233). -/
def Stream.handOver (t : Stream) (v : Word) : Stream :=
  if t.mode = 1 then
    let n := Nat.min (bits v 6 0) (if t.out then t.slots - t.filled else t.filled)
    { t with tail := (t.tail + n) % t.slots, filled := if t.out then t.filled + n else t.filled - n }
  else if t.mode = 2 then
    { t with tail := t.tailAfter v, half0 := if bit v 0 then t.out else t.half0, half1 := if bit v 1 then t.out else t.half1 }
  else t

/-- A write of STRs_CFG by a slot. -/
def Chip.strCfg (c : Chip) (l : Loc) (i : Nat) (v : Word) (s : Slot) : Chip :=
  let k := c.core l.fc.toNat
  (c.setCore l.fc.toNat (k.setStream i ((k.stream i).configure (k.streamBusy i) v))).retire l s

/-- A read of STRs_RING by a slot. -/
def Chip.strRing (c : Chip) (l : Loc) (rd : Reg) (i : Nat) (s : Slot) : Chip :=
  let t := (c.core l.fc.toNat).stream i
  match t.ringWait with
  | some w => c.stallSlot l w
  | none => c.retire l (s.setX rd t.ringWord)

/-- A write of STRs_RING by a slot. -/
def Chip.strHand (c : Chip) (l : Loc) (i : Nat) (v : Word) (s : Slot) : Chip :=
  let k := c.core l.fc.toNat
  (c.setCore l.fc.toNat (k.setStream i ((k.stream i).handOver v))).retire l s

/-- STR_CFG_WRITE: MTS to STRs_CFG (R214). -/
def execStrCfgWrite (l : Loc) (stream : BitVec 6) (rs : Reg) (s : State) : Host.Outcome State Fault Refusal :=
  s.run (fun c => c.issue l (fun t => c.strCfg l stream.toNat (t.xr rs) t))

/-- STR_RING_READ: MFS of STRs_RING (R215). -/
def execStrRingRead (l : Loc) (rd : Reg) (stream : BitVec 6) (s : State) : Host.Outcome State Fault Refusal :=
  s.run (fun c => c.issue l (fun t => c.strRing l rd stream.toNat t))

/-- STR_RING_HANDOVER: MTS to STRs_RING (R215, R233). -/
def execStrRingHandover (l : Loc) (stream : BitVec 6) (rs : Reg) (s : State) : Host.Outcome State Fault Refusal :=
  s.run (fun c => c.issue l (fun t => c.strHand l stream.toNat (t.xr rs) t))

/-! Core state registers (Table 11 of the instruction set). -/

/-- The base of Recipe Store area a (R58). -/
def areaBase (a : Nat) : Nat := storeBase + a * 2 ^ 30

/-- A register of the Request that owns a slot's task (R105). -/
def reqReg (c : Chip) (x : Ctx) (ctx n : Nat) : Word :=
  if n = 0x010 then w64 (fieldB x.desc 0x00 8)
  else if n = 0x011 then w64 (fieldB x.desc 0x28 8)
  else if n = 0x012 then w64 (fieldB x.desc 0x30 8)
  else if n = 0x013 then w64 (fieldB x.desc 0x0C 4)
  else if n = 0x014 then w64 ctx
  else if n = 0x015 then w64 (fieldB x.desc 0x08 1 % 4)
  else if n = 0x016 then w64 (fieldB x.desc 0x09 1)
  else if n = 0x017 then w64 (fieldB x.desc 0x10 8)
  else if n = 0x018 then w64 (leNat (c.bytes (areaBase x.area + 8) 8))
  else w64 (areaBase x.area)

/-- RSV (SNUM 0x041): VALID and the granule bits. A reservation whose home is this package shows its loss there. -/
def rsvWord (c : Chip) (l : Loc) (s : Slot) : Word :=
  match s.rsv with
  | none => 0
  | some g =>
    match c.access (some l.fc.toNat) g 1 false with
    | some t =>
      if t.pkg = none ∧ c.reservedHome c.self (slotHolder l) t.off = false then 0
      else w64 (2 ^ 63 + bits g 49 8 * 2 ^ 8)
    | none => 0

/-- The value of core state register SNUM (R104); absent numbers read 0. -/
def Chip.snum (c : Chip) (l : Loc) (s : Slot) (n : Nat) : Word :=
  let k := c.core l.fc.toNat
  if n = 0x000 then w64 (c.self * 2 ^ 16 + l.fc.toNat)
  else if n = 0x001 then w64 l.slot.toNat
  else if n = 0x002 then c.tide
  else if n = 0x003 then k.cycles
  else if 0x010 ≤ n ∧ n ≤ 0x019 then
    match s.task with
    | some t => match c.ctx t.ctx with
      | some x => reqReg c x t.ctx n
      | none => 0
    | none => 0
  else if n = 0x020 then s.xsp
  else if n = 0x021 then s.xcause
  else if n = 0x022 then s.xepc
  else if n = 0x023 then s.xaddr
  else if n = 0x024 then s.xstatus
  else if n = 0x025 then s.xvec
  else if n = 0x030 then s.swpShift
  else if n = 0x031 then s.bsrchBase
  else if n = 0x032 then s.bsrchEdges
  else if n = 0x040 then s.fpflags
  else if n = 0x041 then rsvWord c l s
  else if 0x100 ≤ n ∧ n < 0x110 then (SMap.get 0 k.pmc (n - 0x100)).setWidth 64
  else if 0x110 ≤ n ∧ n < 0x120 then (SMap.get 0 k.pmsel (n - 0x110)).setWidth 64
  else if n = 0x120 then k.pmwrap.setWidth 64
  else if n = 0x121 then k.pmie.setWidth 64
  else if 0x200 ≤ n ∧ n ≤ 0x20C then SMap.get 0 k.stall (n - 0x200)
  else if 0x400 ≤ n ∧ n < 0x480 then (if n % 2 = 0 then (k.stream ((n - 0x400) / 2)).cfgWord else (k.stream ((n - 0x400) / 2)).ringWord)
  else 0

/-- MFS (R104); a read of STRs_RING may stall (R215). -/
def execMfs (l : Loc) (rd : Reg) (snum : BitVec 12) (s : State) : Host.Outcome State Fault Refusal :=
  s.run (fun c => c.issue l (fun t =>
    let n := snum.toNat
    if 0x400 ≤ n ∧ n < 0x480 ∧ n % 2 = 1 then c.strRing l rd ((n - 0x400) / 2) t
    else c.retire l (t.setX rd (c.snum l t n))))

/-- A write of a core-scope performance register (R104, R112, R171): clearing a PMWRAP bit withdraws its pending event. -/
def Core.perfWrite (k : Core) (n : Nat) (v : Word) : Core :=
  if 0x100 ≤ n ∧ n < 0x110 then { k with pmc := SMap.set k.pmc (n - 0x100) (v.setWidth 48) }
  else if 0x110 ≤ n ∧ n < 0x120 then { k with pmsel := SMap.set k.pmsel (n - 0x110) (v.setWidth 12) }
  else if n = 0x120 then
    { k with pmwrap := k.pmwrap &&& ~~~(v.setWidth 16), pmPending := k.pmPending.filter (fun i => !(v.getLsbD i)) }
  else if n = 0x121 then { k with pmie := v.setWidth 16 }
  else k

/-- A write of a slot-scope register (R104, R158, R178): read-only fields and registers keep their value. -/
def Slot.regWrite (s : Slot) (n : Nat) (v : Word) : Slot :=
  if n = 0x020 then { s with xsp := v }
  else if n = 0x024 then { s with xstatus := setBits s.xstatus 0 3 v.toNat }
  else if n = 0x025 then { s with xvec := v }
  else if n = 0x030 then { s with swpShift := v &&& 0x3F }
  else if n = 0x031 then { s with bsrchBase := v }
  else if n = 0x032 then { s with bsrchEdges := v &&& 0x1FFFF }
  else if n = 0x040 then { s with fpflags := clearOnes s.fpflags v }
  else s

/-- MTS (R104): writes as the access codes direct; absent and RO registers ignore it. An event of its own cycle, its retirement, counts on
the value of PMCn that it overwrites, and sets PMWRAP (R10, R112). -/
def execMts (l : Loc) (rs : Reg) (snum : BitVec 12) (s : State) : Host.Outcome State Fault Refusal :=
  s.run (fun c => c.issue l (fun t =>
    let n := snum.toNat
    if 0x400 ≤ n ∧ n < 0x480 then
      (if n % 2 = 0 then c.strCfg l ((n - 0x400) / 2) (t.xr rs) t else c.strHand l ((n - 0x400) / 2) (t.xr rs) t)
    else if 0x100 ≤ n ∧ n < 0x110 then
      let d := c.retire l t
      d.setCore l.fc.toNat ((d.core l.fc.toNat).perfWrite n (t.xr rs))
    else (c.setCore l.fc.toNat ((c.core l.fc.toNat).perfWrite n (t.xr rs))).retire l (t.regWrite n (t.xr rs))))

/-- ILLEGAL_WORD: a word that the instruction set does not define raises ILLEGAL (R75). A defined word is no such event. -/
def execIllegalWord (l : Loc) (word : BitVec 32) (s : State) : Host.Outcome State Fault Refusal :=
  s.run (fun c => if legalWord word then c else c.issue l (fun _ => c.illegal l (word.setWidth 64)))

end Sys2Proof.Machine
end

