-- ==== Sys2Proof/Machine/Queues.lean ====
section
/-! DEFINITION. ENQ (R84, R85), Handle Queues (R87, R221), Short Messages (R88, R224, R225) and PFH (R86). -/

namespace Sys2Proof.Machine

/-! Handle Queues: numbers 0 to 63 are the core's, 64 to 127 the die's shared queues (R87). -/

/-- The handles of a queue as a core numbers it, oldest first. -/
def Chip.hq (c : Chip) (fc q : Nat) : List Handle :=
  if q < 64 then SMap.get [] (c.core fc).hqs q else SMap.get [] c.dieHqs (fc / 32 * 64 + (q - 64))

/-- A queue replaced. -/
def Chip.setHq (c : Chip) (fc q : Nat) (l : List Handle) : Chip :=
  if q < 64 then c.setCore fc { c.core fc with hqs := SMap.set (c.core fc).hqs q l }
  else { c with dieHqs := SMap.set c.dieHqs (fc / 32 * 64 + (q - 64)) l }

/-- The depth of a queue: 32 for a core's, 64 for a die's (R221). -/
def hqDepth (q : Nat) : Nat := if q < 64 then 32 else 64

/-- Whether a queue has room. -/
def Chip.hqRoom (c : Chip) (fc q : Nat) : Bool := (c.hq fc q).length < hqDepth q

/-- A 63-bit handle joins a queue. -/
def Chip.hqAdd (c : Chip) (fc q : Nat) (v : Word) (ctx : Option Nat) : Chip :=
  c.setHq fc q (c.hq fc q ++ [{ val := w64 (bits v 62 0), ctx := ctx }])

/-- All ones: nothing was done (R85, R87). -/
def allOnes64 : Word := BitVec.allOnes 64

/-- HQPUT (R87, R138). -/
def execHqput (l : Loc) (rd ra : Reg) (nb : Bool) (queue : BitVec 7) (s : State) : Host.Outcome State Fault Refusal :=
  s.run (fun c => c.issue l (fun t =>
    let fc := l.fc.toNat
    if (c.core fc).fenceLDone l.slot.toNat = false then c.stallSlot l .fenceWait
    else if c.hqRoom fc queue.toNat then (c.hqAdd fc queue.toNat (t.xr ra) (some t.ctxNum)).retire l (t.setX rd 0)
    else if nb then c.retire l (t.setX rd 1)
    else c.stallSlot l .hqFull))

/-- HQGET (R87). -/
def execHqget (l : Loc) (rd : Reg) (nb : Bool) (queue : BitVec 7) (s : State) : Host.Outcome State Fault Refusal :=
  s.run (fun c => c.issue l (fun t =>
    let fc := l.fc.toNat
    match c.hq fc queue.toNat with
    | h :: rest => (c.setHq fc queue.toNat rest).retire l (t.setX rd h.val)
    | [] => if nb then c.retire l (t.setX rd allOnes64) else c.stallSlot l .hqEmpty))

/-! Engine commands. -/

/-- A command joins an engine's queue (R85). -/
def Core.enqueue (k : Core) (e slot ctx : Nat) (bytes : List Byte) : Core :=
  let g := k.engine e
  let x : EngCmd := { seq := g.next, slot := slot, ctx := ctx, bytes := bytes, phase := .queued, handle := none, start := [], seen := none,
                      prog := 0, sub := [], killed := false }
  k.setEngine e { g with queue := g.queue ++ [x], next := g.next + 1 }

/-- ENQ (R84, R85, R138). A command that its engine has started still counts among the 16 until it completes (DESIGN CHOICE, log 53). -/
def execEnq (l : Loc) (rd ra : Reg) (engine : BitVec 3) (block : Bool) (s : State) : Host.Outcome State Fault Refusal :=
  s.run (fun c => c.issue l (fun t =>
    let fc := l.fc.toNat
    let a := t.xr ra
    let e := engine.toNat
    let k := c.core fc
    if 6 ≤ e then c.illegal l (wordI 0x2A rd ra (BitVec.ofNat 16 (e * 2 ^ 13 + bitAt block 12)))
    else if a.toNat % 64 ≠ 0 then c.fault l xAlign a
    else if c.inOwnPool fc a 64 = false then c.fault l xMem a
    else if k.fenceLDone l.slot.toNat = false then c.stallSlot l .fenceWait
    else if 16 ≤ (k.engine e).queue.length then
      (if block then c.stallSlot l .engineBusy else c.retire l (t.setX rd allOnes64))
    else
      (c.setCore fc (k.enqueue e l.slot.toNat t.ctxNum (c.bytes (c.localOff (some fc) a) 64))).retire l
        (t.setX rd ((k.engine e).next.setWidth 64))))

/-! Short Messages. -/

/-- Whether DEST_ADDR is a 64-byte-aligned address of a Pool window of an existing package, or of the Self Pool (R224). -/
def Chip.smTarget (c : Chip) (fc : Nat) (a : Word) : Option Target :=
  match c.access (some fc) a 64 true with
  | some t => if t.ty = 3 ∧ a.toNat % 64 = 0 then some t else none
  | none => none

/-- The Short Messages of a core whose credit has not come back: 16 at most (Table 7 of the streams chapter). -/
def Core.smInFlight (k : Core) : Nat := (k.trks.filter (fun t => t.kind = .message || t.kind = .ownMessage)).length

/-- SMSG (R88, R138, R224, R225). -/
def execSmsg (l : Loc) (ra : Reg) (s : State) : Host.Outcome State Fault Refusal :=
  s.run (fun c => c.issue l (fun t =>
    let fc := l.fc.toNat
    let a := t.xr ra
    let k := c.core fc
    if a.toNat % 64 ≠ 0 then c.fault l xAlign a
    else if c.inOwnPool fc a 64 = false then c.fault l xMem a
    else if k.fenceLDone l.slot.toNat = false then c.stallSlot l .fenceWait
    else
      let b := c.bytes (c.localOff (some fc) a) 64
      let dest := w64 (fieldB b 0 8)
      match c.smTarget fc dest with
      | none => c.fault l xMem dest
      | some u =>
        if 16 ≤ k.smInFlight then c.stallSlot l .hqFull
        else if k.slotTrackers 1 = false ∧ ¬ (u.pkg = none ∧ poolCore u.off = some fc) then c.stallSmsg l
        else
          match u.pkg with
          | some p =>
            if c.reachable p = false then c.slotRemoteEnd l p
            else (c.remote fc (.slot l.slot.toNat) .message u p 64 b t.ctxNum 0).1.retire l t
          | none =>
            let id := k.freeTrk
            let own : Bool := poolCore u.off = some fc
            let trk : Trk := { id := id, holder := .slot l.slot.toNat, kind := if own then .ownMessage else .message, addr := u.key, size := 64, pkg := c.self,
                               ctx := t.ctxNum, stream := none }
            let m := { c.blankMsg 0x31 c.self with
              addr := addrField u, txn := txnOf fc id, ctx := BitVec.ofNat 32 t.ctxNum, data := b }
            let k1 := { k with trks := trk :: k.trks }
            let c1 := (c.setCore fc (if own then k1 else k1.count 0x30 1)).wakePool u.off
            let dst := (u.off - poolBase) / poolSize
            (c1.setCore dst { c1.core dst with smWaiting := (c1.core dst).smWaiting ++ [m] }).retire l t))

/-- PFH brings a line toward the Basin: no architectural effect, no fault; a line of another package is asked of it (R86, R133, R175). -/
def execPfh (l : Loc) (hint ra : Reg) (imm : BitVec 16) (s : State) : Host.Outcome State Fault Refusal :=
  s.run (fun c => c.issue l (fun t =>
    let ea := effAddr (t.xr ra) (sext16 imm)
    let c1 := match c.access (some l.fc.toNat) ea 1 false with
      | some u => match u.pkg with
        | some p =>
          if hint.toNat ≤ 1 ∧ u.ty ≠ 2 ∧ c.reachable p = true then
            c.send { c.blankMsg 0x05 p with addr := addrField u, ctx := BitVec.ofNat 32 t.ctxNum }
          else c
        | none => c
      | none => c
    c1.retire l t))

end Sys2Proof.Machine
end

