-- ==== Sys2Proof/Machine/VecMem.lean ====
section
/-! DEFINITION. VLD and VST (R89, R90, R134). -/

namespace Sys2Proof.Machine

/-- The TYPE by which elements move: I4 moves byte pairs, as U8, but in a broadcast (R89). -/
def moveTy (t mode : Nat) : Nat := if t = 0 ∧ mode ≠ 3 then 2 else t

/-- The address of element i under MODE (R76, R89). -/
def elemAddr (s : Slot) (t mode : Nat) (ra rb : Reg) (i : Nat) : Word :=
  let w := tyBytes t
  let off : Word :=
    if mode = 0 then w64 (i * w)
    else if mode = 1 then w64 i * s.xr rb
    else if mode = 2 then w64 (elemAt (tyBits t) (s.vr rb) i * w)
    else 0
  effAddr (s.xr ra) off

/-- Whether an element may be part of a vector access: it can be reached, is not Device Strict (R90), and lies in the row and type of the
first active element (R128, which a vector access as a whole meets: DEDUCED, log 13). -/
def Chip.vecFits (c : Chip) (fc : Nat) (a : Word) (n : Nat) (write : Bool) (first : Option Target) : Bool :=
  match c.access (some fc) a n write with
  | none => false
  | some t => t.ty ≠ 2 && first.all (fun f => f.row = t.row && f.ty = t.ty)

/-- The address of the first active element that faults (R90, R128, R156). -/
def Chip.vecFault (c : Chip) (fc : Nat) (addr : Nat → Word) (n : Nat) (write : Bool) (active : List Nat) : Option Word :=
  let first := active.head?.bind (fun i => c.access (some fc) (addr i) n write)
  (active.find? (fun i => !(c.vecFits fc (addr i) n write first))).map addr

/-- An element of a vector access as the slot finds it. -/
inductive ElemSrc where
  | value (v : Nat) | wait (w : Cause) | remote (t : Target) (pkg : Nat)
  deriving DecidableEq, Repr

/-- Where element i of a load comes from: the store buffer, this package, or another one. -/
def Chip.elemSrc (c : Chip) (l : Loc) (a : Word) (n : Nat) : ElemSrc :=
  match c.access (some l.fc.toNat) a n false with
  | none => .value 0
  | some t =>
    match c.forward l.fc.toNat l.slot.toNat t.key n with
    | .wait => .wait .storeDrain
    | .value v => .value v
    | .memory =>
      match t.pkg with
      | some p => .remote t p
      | none => match c.homeWait t with
        | some w => .wait w
        | none => if (c.core l.fc.toNat).mayReach l.fc.toNat t.off then .value (leNat (c.bytes t.off n)) else .wait .trackerFull

/-- The cause of the lowest-numbered element that does not have its value, where some element keeps the load from starting: a read of
another package counts LATE_REMOTE (R246). -/
def firstWait (l : List (Nat × ElemSrc)) : Option Cause :=
  let waits := l.filterMap (fun p => match p.2 with
    | .value _ => none
    | .wait w => some w
    | .remote _ _ => some .lateRemote)
  if waits.all (fun w => w = .lateRemote) then none else waits.head?

/-- The values that a vector load already has. -/
def gotElems : List (Nat × ElemSrc) → SMap Word
  | [] => []
  | (i, .value v) :: t => (i, w64 v) :: gotElems t
  | _ :: t => gotElems t

/-- The elements that other packages must answer. -/
def remoteElems : List (Nat × ElemSrc) → List (Nat × Target × Nat)
  | [] => []
  | (i, .remote t p) :: r => (i, t, p) :: remoteElems r
  | _ :: r => remoteElems r

/-- A vector register after a load: active elements take what came; a broadcast of I4 takes the low nibble. -/
def loadedReg (t mode : Nat) (active : List Nat) (got : SMap Word) (old : VReg) : VReg :=
  let u := moveTy t mode
  BitVec.ofNat 1024 (packElems (tyBits u) ((List.range (tyCount u)).map (fun i =>
    if i ∈ active then (SMap.get 0 got (if mode = 3 then 0 else i)).toNat % 2 ^ tyBits u else elemAt (tyBits u) old i)))

/-- Reads for the elements of other packages, in element order; their trackers and elements. -/
def Chip.askElems (c : Chip) (l : Loc) (n : Nat) : List (Nat × Target × Nat) → Chip × List (Nat × Nat)
  | [] => (c, [])
  | (i, t, p) :: rest =>
    let r := c.remote l.fc.toNat (.slot l.slot.toNat) .read t p n [] (c.slot l).ctxNum 0
    let q := Chip.askElems r.1 l n rest
    (q.1, (r.2, i) :: q.2)

/-- The local offsets of element addresses. -/
def Chip.localOffs (c : Chip) (fc : Nat) (addr : Nat → Word) (is : List Nat) : List Nat :=
  is.filterMap (fun i => match c.access (some fc) (addr i) 1 false with
    | some t => if t.pkg = none then some t.off else none
    | none => none)

/-- The local offsets that a load's elements reach: one that the store buffer serves reaches none (R130). -/
def Chip.loadOffs (c : Chip) (l : Loc) (addr : Nat → Word) (n : Nat) (is : List Nat) : List Nat :=
  is.filterMap (fun i => match c.access (some l.fc.toNat) (addr i) n false with
    | some t => if t.pkg = none ∧ c.forward l.fc.toNat l.slot.toNat t.key n = .memory then some t.off else none
    | none => none)

/-- VLD (R89, R90). -/
def execVld (l : Loc) (vd ra rb : Reg) (mask : BitVec 3) (ty mode : BitVec 4) (ecc : Bool) (s : State) :
    Host.Outcome State Fault Refusal :=
  s.run (fun c => c.issue l (fun x =>
    let t := ty.toNat
    let m := mode.toNat
    let fc := l.fc.toNat
    if vmemLegal true t m = false then c.illegal l (wordV 0x30 vd ra rb mask ty mode)
    else
      let u := moveTy t m
      let w := tyBytes u
      let active := activeElems u (x.mr mask)
      let reads := if m = 3 then active.take 1 else active
      let addr := elemAddr x u m ra rb
      let key := fun i => if m = 3 then 0 else i
      if (x.xr ra).toNat % w ≠ 0 then c.fault l xAlign (x.xr ra)
      else if (c.core fc).strictWaits l.slot.toNat then c.stallSlot l .storeDrain
      else
        match c.vecFault fc addr w false reads with
        | some a => c.fault l xMem a
        | none =>
          let src := reads.map (fun i => (key i, c.elemSrc l (addr i) w))
          match firstWait src with
          | some k => c.stallSlot l k
          | none =>
            match remoteElems src with
            | [] =>
              if ecc && !reads.isEmpty then c.slotEcc l (addr (reads.headD 0))
              else (c.heres fc (.slot l.slot.toNat) false none (c.loadOffs l addr w reads)).retireVec l (x.setV vd (loadedReg t m active (gotElems src) (x.vr vd)))
            | (i, a, p) :: rest =>
              if c.reachable p = false then c.slotRemoteEnd l p
              else if (c.core fc).slotTrackers (rest.length + 1) = false then c.stallSlot l .trackerFull
              else
                let r := c.askElems l w ((i, a, p) :: rest)
                let c1 := r.1.stallSlot l .lateRemote
                c1.setSlot l { c1.slot l with
                  pend := some { dst := .vector vd ty mode active, want := r.2, got := gotElems src } }))

/-- The bytes that element i of a store writes. -/
def storeElem (u : Nat) (v : VReg) (i : Nat) : List Byte := leBytes (tyBytes u) (elemAt (tyBits u) v i)

/-- The cells that a store's local elements write, in element order (R90). -/
def Chip.storeCells (c : Chip) (fc : Nat) (addr : Nat → Word) (u : Nat) (v : VReg) : List Nat → List (Nat × Byte)
  | [] => []
  | i :: rest =>
    (match c.access (some fc) (addr i) (tyBytes u) true with
     | some t => if t.pkg = none then cellsAt t.off (storeElem u v i) else []
     | none => []) ++ Chip.storeCells c fc addr u v rest

/-- Writes of a store's elements to another package, in element order. -/
def Chip.sendElems (c : Chip) (l : Loc) (addr : Nat → Word) (u : Nat) (v : VReg) : List Nat → Chip
  | [] => c
  | i :: rest =>
    match c.access (some l.fc.toNat) (addr i) (tyBytes u) true with
    | some t =>
      match t.pkg with
      | some p =>
        let r := c.remote l.fc.toNat (.slot l.slot.toNat) .write t p (tyBytes u) (storeElem u v i) (c.slot l).ctxNum 0
        Chip.sendElems r.1 l addr u v rest
      | none => Chip.sendElems c l addr u v rest
    | none => Chip.sendElems c l addr u v rest

/-- Why a store of elements must wait: an overlap with a buffered store of its slot (R134), or a power domain. -/
def Chip.storeWait (c : Chip) (l : Loc) (addr : Nat → Word) (n : Nat) : List Nat → Option Cause
  | [] => none
  | i :: rest =>
    match c.access (some l.fc.toNat) (addr i) n true with
    | none => Chip.storeWait c l addr n rest
    | some t =>
      if !(c.sbOverlap l.fc.toNat l.slot.toNat t.key n).isEmpty then some .storeDrain
      else match (if t.pkg = none then c.homeWait t else none) with
        | some w => some w
        | none =>
          if t.pkg = none ∧ (c.core l.fc.toNat).mayReach l.fc.toNat t.off = false then some .trackerFull
          else Chip.storeWait c l addr n rest

/-- The package of the first element of another package, if any. -/
def Chip.elemPkg (c : Chip) (fc : Nat) (addr : Nat → Word) : List Nat → Option Nat
  | [] => none
  | i :: rest =>
    match c.access (some fc) (addr i) 1 false with
    | some t => match t.pkg with
      | some p => some p
      | none => Chip.elemPkg c fc addr rest
    | none => Chip.elemPkg c fc addr rest

/-- VST (R89, R90, R134). -/
def execVst (l : Loc) (vd ra rb : Reg) (mask : BitVec 3) (ty mode : BitVec 4) (s : State) : Host.Outcome State Fault Refusal :=
  s.run (fun c => c.issue l (fun x =>
    let t := ty.toNat
    let m := mode.toNat
    let fc := l.fc.toNat
    if vmemLegal false t m = false then c.illegal l (wordV 0x31 vd ra rb mask ty mode)
    else
      let u := moveTy t m
      let w := tyBytes u
      let active := activeElems u (x.mr mask)
      let addr := elemAddr x u m ra rb
      if (x.xr ra).toNat % w ≠ 0 then c.fault l xAlign (x.xr ra)
      else if (c.core fc).strictWaits l.slot.toNat then c.stallSlot l .storeDrain
      else
        match c.vecFault fc addr w true active with
        | some a => c.fault l xMem a
        | none =>
          match c.storeWait l addr w active with
          | some k => c.stallSlot l k
          | none =>
            match c.elemPkg fc addr active with
            | some p =>
              if c.reachable p = false then c.slotRemoteEnd l p
              else if (c.core fc).slotTrackers active.length = false then c.stallSlot l .trackerFull
              else (c.sendElems l addr u (x.vr vd) active).retireVec l x
            | none =>
              ((c.heres fc (.slot l.slot.toNat) true none (c.localOffs fc addr active)).put (c.storeCells fc addr u (x.vr vd) active)).retireVec l x))

end Sys2Proof.Machine
end

