-- ==== Sys2Proof/Machine/Vector.lean ====
section
/-! DEFINITION. VINT (R91), VFP (R92 to R95), VCMP (R96), VMISC (R97, R98) and VCVT (R99): one meaning each over shared shapes. -/

namespace Sys2Proof.Machine

/-- VINT FUNC 0 to 14 (R91, R106): active elements of vd take f of va and vb. -/
def Chip.vint (c : Chip) (l : Loc) (func : BitVec 4) (vd va vb : Reg) (mask : BitVec 3) (ty : BitVec 4) : Chip :=
  c.issue l (fun s =>
    let t := ty.toNat
    let w := tyBits t
    if vintLegal t func.toNat = false then c.illegal l (wordV 0x32 vd va vb mask ty func)
    else
      c.retireVec l (s.setV vd (mapElems t (s.mr mask) (s.vr vd)
        (fun i => vintElem t func.toNat (elemAt w (s.vr va) i) (elemAt w (s.vr vb) i)))))

/-- VFP (R92, R95): active elements of vd take f of vd, va and vb, and FPFLAGS gathers their flags. -/
def Chip.vfp (c : Chip) (l : Loc) (func : BitVec 4) (vd va vb : Reg) (mask : BitVec 3) (ty : BitVec 4) : Chip :=
  c.issue l (fun s =>
    let t := ty.toNat
    let w := tyBits t
    match tyFmt t with
    | none => c.illegal l (wordV 0x33 vd va vb mask ty func)
    | some f =>
      let r := mapFlags t (s.mr mask) (s.vr vd)
        (fun i => vfpElem f func.toNat (elemAt w (s.vr vd) i) (elemAt w (s.vr va) i) (elemAt w (s.vr vb) i))
      c.retireVec l ((s.setV vd r.1).raise r.2))

/-- VCMP (R96): all lane bits of mD take the comparison; inactive elements give 0. -/
def Chip.vcmp (c : Chip) (l : Loc) (func : BitVec 4) (vd va vb : Reg) (mask : BitVec 3) (ty : BitVec 4) : Chip :=
  c.issue l (fun s =>
    let t := ty.toNat
    if vcmpLegal t func.toNat = false then c.illegal l (wordV 0x34 vd va vb mask ty func)
    else
      let r := vcmpMask t func.toNat (s.mr mask) (s.vr va) (s.vr vb)
      c.retireVec l ((s.setM (lowReg vd) r.1).raise r.2))

/-- A VMISC function on the slot's registers, once its TYPE is allowed (R75, R97). -/
def Chip.vmisc (c : Chip) (l : Loc) (func : BitVec 4) (vd va vb : Reg) (mask : BitVec 3) (ty : BitVec 4) (f : Nat → Slot → Slot) : Chip :=
  c.issue l (fun s =>
    if vmiscLegal ty.toNat func.toNat = false then c.illegal l (wordV 0x35 vd va vb mask ty func)
    else c.retireVec l (f ty.toNat s))

/-- Elements of TYPE whose predicate in a mask register is 1 (R97 MPOPC, MFIRST). -/
def onElems (t : Nat) (m : MReg) : List Nat := activeElems t m

/-- VADD: FUNC 0 of Table 7 (R91). -/
def execVadd (l : Loc) (vd va vb : Reg) (mask : BitVec 3) (ty : BitVec 4) (s : State) : Host.Outcome State Fault Refusal :=
  s.run (fun c => c.vint l 0 vd va vb mask ty)

/-- VSUB: FUNC 1 of Table 7 (R91). -/
def execVsub (l : Loc) (vd va vb : Reg) (mask : BitVec 3) (ty : BitVec 4) (s : State) : Host.Outcome State Fault Refusal :=
  s.run (fun c => c.vint l 1 vd va vb mask ty)

/-- VMUL: FUNC 2 of Table 7 (R91). -/
def execVmul (l : Loc) (vd va vb : Reg) (mask : BitVec 3) (ty : BitVec 4) (s : State) : Host.Outcome State Fault Refusal :=
  s.run (fun c => c.vint l 2 vd va vb mask ty)

/-- VMULH: FUNC 3 of Table 7 (R91). -/
def execVmulh (l : Loc) (vd va vb : Reg) (mask : BitVec 3) (ty : BitVec 4) (s : State) : Host.Outcome State Fault Refusal :=
  s.run (fun c => c.vint l 3 vd va vb mask ty)

/-- VMIN: FUNC 4 of Table 7 (R91). -/
def execVmin (l : Loc) (vd va vb : Reg) (mask : BitVec 3) (ty : BitVec 4) (s : State) : Host.Outcome State Fault Refusal :=
  s.run (fun c => c.vint l 4 vd va vb mask ty)

/-- VMAX: FUNC 5 of Table 7 (R91). -/
def execVmax (l : Loc) (vd va vb : Reg) (mask : BitVec 3) (ty : BitVec 4) (s : State) : Host.Outcome State Fault Refusal :=
  s.run (fun c => c.vint l 5 vd va vb mask ty)

/-- VAND: FUNC 6 of Table 7 (R91). -/
def execVand (l : Loc) (vd va vb : Reg) (mask : BitVec 3) (ty : BitVec 4) (s : State) : Host.Outcome State Fault Refusal :=
  s.run (fun c => c.vint l 6 vd va vb mask ty)

/-- VOR: FUNC 7 of Table 7 (R91). -/
def execVor (l : Loc) (vd va vb : Reg) (mask : BitVec 3) (ty : BitVec 4) (s : State) : Host.Outcome State Fault Refusal :=
  s.run (fun c => c.vint l 7 vd va vb mask ty)

/-- VXOR: FUNC 8 of Table 7 (R91). -/
def execVxor (l : Loc) (vd va vb : Reg) (mask : BitVec 3) (ty : BitVec 4) (s : State) : Host.Outcome State Fault Refusal :=
  s.run (fun c => c.vint l 8 vd va vb mask ty)

/-- VSLL: FUNC 9 of Table 7 (R91). -/
def execVsll (l : Loc) (vd va vb : Reg) (mask : BitVec 3) (ty : BitVec 4) (s : State) : Host.Outcome State Fault Refusal :=
  s.run (fun c => c.vint l 9 vd va vb mask ty)

/-- VSRL: FUNC 10 of Table 7 (R91). -/
def execVsrl (l : Loc) (vd va vb : Reg) (mask : BitVec 3) (ty : BitVec 4) (s : State) : Host.Outcome State Fault Refusal :=
  s.run (fun c => c.vint l 10 vd va vb mask ty)

/-- VSRA: FUNC 11 of Table 7 (R91). -/
def execVsra (l : Loc) (vd va vb : Reg) (mask : BitVec 3) (ty : BitVec 4) (s : State) : Host.Outcome State Fault Refusal :=
  s.run (fun c => c.vint l 11 vd va vb mask ty)

/-- VADDS: FUNC 12 of Table 7 (R91). -/
def execVadds (l : Loc) (vd va vb : Reg) (mask : BitVec 3) (ty : BitVec 4) (s : State) : Host.Outcome State Fault Refusal :=
  s.run (fun c => c.vint l 12 vd va vb mask ty)

/-- VSUBS: FUNC 13 of Table 7 (R91). -/
def execVsubs (l : Loc) (vd va vb : Reg) (mask : BitVec 3) (ty : BitVec 4) (s : State) : Host.Outcome State Fault Refusal :=
  s.run (fun c => c.vint l 13 vd va vb mask ty)

/-- VABSD: FUNC 14 of Table 7 (R91). -/
def execVabsd (l : Loc) (vd va vb : Reg) (mask : BitVec 3) (ty : BitVec 4) (s : State) : Host.Outcome State Fault Refusal :=
  s.run (fun c => c.vint l 14 vd va vb mask ty)

/-- VSEL: va where the predicate is 1, else vb; every element is written (R91). -/
def execVsel (l : Loc) (vd va vb : Reg) (mask : BitVec 3) (ty : BitVec 4) (s : State) : Host.Outcome State Fault Refusal :=
  s.run (fun c => c.issue l (fun x =>
    let t := ty.toNat
    if vintLegal t 15 = false then c.illegal l (wordV 0x32 vd va vb mask ty 15)
    else c.retireVec l (x.setV vd (mapElems t (x.mr mask) (x.vr vb) (fun i => elemAt (tyBits t) (x.vr va) i)))))

/-- VFADD: FUNC 0 of Table 8 (R92). -/
def execVfadd (l : Loc) (vd va vb : Reg) (mask : BitVec 3) (ty : BitVec 4) (s : State) : Host.Outcome State Fault Refusal :=
  s.run (fun c => c.vfp l 0 vd va vb mask ty)

/-- VFSUB: FUNC 1 of Table 8 (R92). -/
def execVfsub (l : Loc) (vd va vb : Reg) (mask : BitVec 3) (ty : BitVec 4) (s : State) : Host.Outcome State Fault Refusal :=
  s.run (fun c => c.vfp l 1 vd va vb mask ty)

/-- VFMUL: FUNC 2 of Table 8 (R92). -/
def execVfmul (l : Loc) (vd va vb : Reg) (mask : BitVec 3) (ty : BitVec 4) (s : State) : Host.Outcome State Fault Refusal :=
  s.run (fun c => c.vfp l 2 vd va vb mask ty)

/-- VFDIV: FUNC 3 of Table 8 (R92). -/
def execVfdiv (l : Loc) (vd va vb : Reg) (mask : BitVec 3) (ty : BitVec 4) (s : State) : Host.Outcome State Fault Refusal :=
  s.run (fun c => c.vfp l 3 vd va vb mask ty)

/-- VFMIN: FUNC 4 of Table 8 (R92). -/
def execVfmin (l : Loc) (vd va vb : Reg) (mask : BitVec 3) (ty : BitVec 4) (s : State) : Host.Outcome State Fault Refusal :=
  s.run (fun c => c.vfp l 4 vd va vb mask ty)

/-- VFMAX: FUNC 5 of Table 8 (R92). -/
def execVfmax (l : Loc) (vd va vb : Reg) (mask : BitVec 3) (ty : BitVec 4) (s : State) : Host.Outcome State Fault Refusal :=
  s.run (fun c => c.vfp l 5 vd va vb mask ty)

/-- VFMA: FUNC 6 of Table 8 (R92). -/
def execVfma (l : Loc) (vd va vb : Reg) (mask : BitVec 3) (ty : BitVec 4) (s : State) : Host.Outcome State Fault Refusal :=
  s.run (fun c => c.vfp l 6 vd va vb mask ty)

/-- VFSQRT: FUNC 7 of Table 8 (R92). -/
def execVfsqrt (l : Loc) (vd va vb : Reg) (mask : BitVec 3) (ty : BitVec 4) (s : State) : Host.Outcome State Fault Refusal :=
  s.run (fun c => c.vfp l 7 vd va vb mask ty)

/-- VFLOG1P: FUNC 8 of Table 8 (R92). -/
def execVflog1p (l : Loc) (vd va vb : Reg) (mask : BitVec 3) (ty : BitVec 4) (s : State) : Host.Outcome State Fault Refusal :=
  s.run (fun c => c.vfp l 8 vd va vb mask ty)

/-- VFABS: FUNC 9 of Table 8 (R92). -/
def execVfabs (l : Loc) (vd va vb : Reg) (mask : BitVec 3) (ty : BitVec 4) (s : State) : Host.Outcome State Fault Refusal :=
  s.run (fun c => c.vfp l 9 vd va vb mask ty)

/-- VFNEG: FUNC 10 of Table 8 (R92). -/
def execVfneg (l : Loc) (vd va vb : Reg) (mask : BitVec 3) (ty : BitVec 4) (s : State) : Host.Outcome State Fault Refusal :=
  s.run (fun c => c.vfp l 10 vd va vb mask ty)

/-- VFCLAMP: FUNC 11 of Table 8 (R92). -/
def execVfclamp (l : Loc) (vd va vb : Reg) (mask : BitVec 3) (ty : BitVec 4) (s : State) : Host.Outcome State Fault Refusal :=
  s.run (fun c => c.vfp l 11 vd va vb mask ty)

/-- VCMP_EQ (R96 FUNC 0). -/
def execVcmpEq (l : Loc) (vd va vb : Reg) (mask : BitVec 3) (ty : BitVec 4) (s : State) : Host.Outcome State Fault Refusal :=
  s.run (fun c => c.vcmp l 0 vd va vb mask ty)

/-- VCMP_NE (R96 FUNC 1). -/
def execVcmpNe (l : Loc) (vd va vb : Reg) (mask : BitVec 3) (ty : BitVec 4) (s : State) : Host.Outcome State Fault Refusal :=
  s.run (fun c => c.vcmp l 1 vd va vb mask ty)

/-- VCMP_LT (R96 FUNC 2). -/
def execVcmpLt (l : Loc) (vd va vb : Reg) (mask : BitVec 3) (ty : BitVec 4) (s : State) : Host.Outcome State Fault Refusal :=
  s.run (fun c => c.vcmp l 2 vd va vb mask ty)

/-- VCMP_LE (R96 FUNC 3). -/
def execVcmpLe (l : Loc) (vd va vb : Reg) (mask : BitVec 3) (ty : BitVec 4) (s : State) : Host.Outcome State Fault Refusal :=
  s.run (fun c => c.vcmp l 3 vd va vb mask ty)

/-- VCMP_GT (R96 FUNC 4). -/
def execVcmpGt (l : Loc) (vd va vb : Reg) (mask : BitVec 3) (ty : BitVec 4) (s : State) : Host.Outcome State Fault Refusal :=
  s.run (fun c => c.vcmp l 4 vd va vb mask ty)

/-- VCMP_GE (R96 FUNC 5). -/
def execVcmpGe (l : Loc) (vd va vb : Reg) (mask : BitVec 3) (ty : BitVec 4) (s : State) : Host.Outcome State Fault Refusal :=
  s.run (fun c => c.vcmp l 5 vd va vb mask ty)

/-- MAND: bitwise AND of masks; MASK is ignored (R97 FUNC 0). -/
def execMand (l : Loc) (vd va vb : Reg) (mask : BitVec 3) (ty : BitVec 4) (s : State) : Host.Outcome State Fault Refusal :=
  s.run (fun c => c.vmisc l 0 vd va vb mask ty (fun _ x =>
    x.setM (lowReg vd) (x.mr (lowReg va) &&& x.mr (lowReg vb))))

/-- MOR: bitwise OR of masks; MASK is ignored (R97 FUNC 1). -/
def execMor (l : Loc) (vd va vb : Reg) (mask : BitVec 3) (ty : BitVec 4) (s : State) : Host.Outcome State Fault Refusal :=
  s.run (fun c => c.vmisc l 1 vd va vb mask ty (fun _ x =>
    x.setM (lowReg vd) (x.mr (lowReg va) ||| x.mr (lowReg vb))))

/-- MXOR: bitwise XOR of masks; MASK is ignored (R97 FUNC 2). -/
def execMxor (l : Loc) (vd va vb : Reg) (mask : BitVec 3) (ty : BitVec 4) (s : State) : Host.Outcome State Fault Refusal :=
  s.run (fun c => c.vmisc l 2 vd va vb mask ty (fun _ x =>
    x.setM (lowReg vd) (x.mr (lowReg va) ^^^ x.mr (lowReg vb))))

/-- MANDN: mA and not mB; MASK is ignored (R97 FUNC 3). -/
def execMandn (l : Loc) (vd va vb : Reg) (mask : BitVec 3) (ty : BitVec 4) (s : State) : Host.Outcome State Fault Refusal :=
  s.run (fun c => c.vmisc l 3 vd va vb mask ty (fun _ x =>
    x.setM (lowReg vd) (x.mr (lowReg va) &&& ~~~(x.mr (lowReg vb)))))

/-- MNOT: not mA; MASK is ignored (R97 FUNC 4). -/
def execMnot (l : Loc) (vd va vb : Reg) (mask : BitVec 3) (ty : BitVec 4) (s : State) : Host.Outcome State Fault Refusal :=
  s.run (fun c => c.vmisc l 4 vd va vb mask ty (fun _ x =>
    x.setM (lowReg vd) (~~~(x.mr (lowReg va)))))

/-- MPOPC: elements of TYPE whose predicate in mA is 1 (R97 FUNC 5). -/
def execMpopc (l : Loc) (vd va vb : Reg) (mask : BitVec 3) (ty : BitVec 4) (s : State) : Host.Outcome State Fault Refusal :=
  s.run (fun c => c.vmisc l 5 vd va vb mask ty (fun t x =>
    x.setX vd (w64 (onElems t (x.mr (lowReg va))).length)))

/-- MFIRST: the lowest such element, or all ones (R97 FUNC 6). -/
def execMfirst (l : Loc) (vd va vb : Reg) (mask : BitVec 3) (ty : BitVec 4) (s : State) : Host.Outcome State Fault Refusal :=
  s.run (fun c => c.vmisc l 6 vd va vb mask ty (fun t x =>
    x.setX vd (match onElems t (x.mr (lowReg va)) with | i :: _ => w64 i | [] => allOnes64)))

/-- VBCAST: active elements take the low bits of xA (R97 FUNC 7). -/
def execVbcast (l : Loc) (vd va vb : Reg) (mask : BitVec 3) (ty : BitVec 4) (s : State) : Host.Outcome State Fault Refusal :=
  s.run (fun c => c.vmisc l 7 vd va vb mask ty (fun t x =>
    x.setV vd (mapElems t (x.mr mask) (x.vr vd) (fun _ => (x.xr va).toNat % 2 ^ tyBits t))))

/-- VEXT: xD takes element xB mod n (R97 FUNC 8). -/
def execVext (l : Loc) (vd va vb : Reg) (mask : BitVec 3) (ty : BitVec 4) (s : State) : Host.Outcome State Fault Refusal :=
  s.run (fun c => c.vmisc l 8 vd va vb mask ty (fun t x =>
    x.setX vd (elemScalar t (elemAt (tyBits t) (x.vr va) ((x.xr vb).toNat % tyCount t)))))

/-- VINS: element xB mod n takes the low bits of xA; MASK is ignored (R97 FUNC 9). -/
def execVins (l : Loc) (vd va vb : Reg) (mask : BitVec 3) (ty : BitVec 4) (s : State) : Host.Outcome State Fault Refusal :=
  s.run (fun c => c.vmisc l 9 vd va vb mask ty (fun t x =>
    x.setV vd (mapElems t (BitVec.allOnes 128) (x.vr vd) (fun i =>
      if i = (x.xr vb).toNat % tyCount t then (x.xr va).toNat % 2 ^ tyBits t else elemAt (tyBits t) (x.vr vd) i))))

/-- VCOMPRESS: the active elements in order from element 0, then zeros (R97 FUNC 10). -/
def execVcompress (l : Loc) (vd va vb : Reg) (mask : BitVec 3) (ty : BitVec 4) (s : State) : Host.Outcome State Fault Refusal :=
  s.run (fun c => c.vmisc l 10 vd va vb mask ty (fun t x =>
    x.setV vd (BitVec.ofNat 1024 (packElems (tyBits t)
      ((activeElems t (x.mr mask)).map (fun i => elemAt (tyBits t) (x.vr va) i))))))

/-- VREDSUM: the sum of the active elements modulo 2^64 (R97 FUNC 11). -/
def execVredsum (l : Loc) (vd va vb : Reg) (mask : BitVec 3) (ty : BitVec 4) (s : State) : Host.Outcome State Fault Refusal :=
  s.run (fun c => c.vmisc l 11 vd va vb mask ty (fun t x => x.setX vd (vredElem t 11 (x.mr mask) (x.vr va) 0)))

/-- VREDMIN: the minimum of the active elements (R97 FUNC 12); with none active its value is free. -/
def execVredmin (l : Loc) (vd va vb : Reg) (mask : BitVec 3) (ty : BitVec 4) (s : State) : Host.Outcome State Fault Refusal :=
  s.run (fun c => c.spend.vmisc l 12 vd va vb mask ty (fun t x => x.setX vd (vredElem t 12 (x.mr mask) (x.vr va) c.free)))

/-- VREDMAX: the maximum of the active elements (R97 FUNC 13); with none active its value is free. -/
def execVredmax (l : Loc) (vd va vb : Reg) (mask : BitVec 3) (ty : BitVec 4) (s : State) : Host.Outcome State Fault Refusal :=
  s.run (fun c => c.spend.vmisc l 13 vd va vb mask ty (fun t x => x.setX vd (vredElem t 13 (x.mr mask) (x.vr va) c.free)))

/-- VFREDSUM: the tree sum of R98 over the active elements (R97 FUNC 14). -/
def execVfredsum (l : Loc) (vd va vb : Reg) (mask : BitVec 3) (ty : BitVec 4) (s : State) : Host.Outcome State Fault Refusal :=
  s.run (fun c => c.issue l (fun x =>
    let t := ty.toNat
    match tyFmt t with
    | none => c.illegal l (wordV 0x35 vd va vb mask ty 14)
    | some f =>
      let r := treeSum f 6 ((List.range (tyCount t)).map (fun i =>
        if laneOn (tyBits t) (x.mr mask) i then some (elemAt (tyBits t) (x.vr va) i) else none))
      c.retireVec l ((x.setX vd (w64 r.1)).raise r.2)))

/-- VCVT (R99). -/
def execVcvt (l : Loc) (vd va : Reg) (srcTy : BitVec 4) (mask : BitVec 3) (ty part : BitVec 4) (s : State) :
    Host.Outcome State Fault Refusal :=
  s.run (fun c => c.issue l (fun x =>
    if vcvtLegal srcTy.toNat ty.toNat part.toNat = false then c.illegal l (wordVC 0x36 vd va srcTy mask ty part)
    else
      let r := vcvtReg srcTy.toNat ty.toNat part.toNat (x.mr mask) (x.vr vd) (x.vr va)
      c.retireVec l ((x.setV vd r.1).raise r.2)))

end Sys2Proof.Machine
end

