-- ==== Sys2Proof/Machine/Sweep.lean ====
section
/-! DEFINITION. The resumable sweeps VHIST, VSCAN, VFILL and BSRCH (R100, R101, R110, R111, R173). -/

namespace Sys2Proof.Machine

/-- How an element of a sweep ends. -/
inductive SwStep where
  | next (c : Chip) (x : Slot)
  | fault (a : Word)
  | wait (w : Cause)
  | ask (t : Target) (pkg n : Nat)
  | dead (pkg : Nat)
  | ecc (a : Word)

/-- Bytes that a sweep reads. -/
inductive SwRead where
  | bytes (b : List Byte)
  | fault (a : Word)
  | wait (w : Cause)
  | ask (t : Target) (pkg n : Nat)

/-- The bytes that another package has answered, if all are there. -/
def gotBytes (got : SMap Byte) (key : Nat) : Nat → Option (List Byte)
  | 0 => some []
  | n + 1 =>
    match SMap.find got key, gotBytes got (key + 1) n with
    | some b, some r => some (b :: r)
    | _, _ => none

/-- n bytes at an address as a sweep reads them; a Device Strict region faults as for every vector access (R90). -/
def Chip.swRead (c : Chip) (l : Loc) (x : Slot) (a : Word) (n : Nat) (write : Bool) : SwRead :=
  match c.access (some l.fc.toNat) a n write with
  | none => .fault a
  | some t =>
    if t.ty = 2 then .fault a
    else if !(c.sbOverlap l.fc.toNat l.slot.toNat t.key n).isEmpty then .wait .storeDrain
    else
      match t.pkg with
      | none => match c.homeWait t with
        | some w => .wait w
        | none => if (c.core l.fc.toNat).mayReach l.fc.toNat t.off then .bytes (c.bytes t.off n) else .wait .trackerFull
      | some p => match gotBytes x.swGot t.key n with
        | some b => .bytes b
        | none => .ask t p n

/-- A sweep's read of this package's memory is a transaction (R219); one of another package was counted when it was sent. -/
def Chip.swHere (c : Chip) (l : Loc) (a : Word) : Chip :=
  match c.access (some l.fc.toNat) a 1 false with
  | none => c
  | some t => if t.pkg = none then c.here l.fc.toNat (.slot l.slot.toNat) false none t.off else c

/-- Bytes written by a sweep: on this package at once, to another by a message, after which bytes answered before from there no longer
count (R134). -/
def Chip.swWrite (c : Chip) (l : Loc) (x : Slot) (a : Word) (data : List Byte) : SwStep :=
  match c.access (some l.fc.toNat) a data.length true with
  | none => .fault a
  | some t =>
    if t.ty = 2 then .fault a
    else if !(c.sbOverlap l.fc.toNat l.slot.toNat t.key data.length).isEmpty then .wait .storeDrain
    else
      match t.pkg with
      | none => match c.homeWait t with
        | some w => .wait w
        | none =>
          if (c.core l.fc.toNat).mayReach l.fc.toNat t.off then
            .next ((c.here l.fc.toNat (.slot l.slot.toNat) true none t.off).putAt t.off data) x
          else .wait .trackerFull
      | some p =>
        if c.reachable p = false then .dead p
        else if (c.core l.fc.toNat).slotTrackers 1 = false then .wait .trackerFull
        else .next (c.remote l.fc.toNat (.slot l.slot.toNat) .write t p data.length data x.ctxNum 0).1
          { x with swGot := x.swGot.filter (fun g => g.1 < t.key || t.key + data.length ≤ g.1) }

/-- A sweep's registers after one element: ra advanced, rb decremented, rc as given (R100). -/
def Slot.swept (x : Slot) (ra rb rc : Reg) (w : Nat) (rcv : Word) : Slot :=
  ((x.setX ra (x.xr ra + w64 w)).setX rb (x.xr rb - 1)).setX rc rcv

/-- VHIST on one element: the counter of its digit rises by 1 (R100). -/
def vhistStep (l : Loc) (ra rb rc : Reg) (t : Nat) (c : Chip) (x : Slot) : SwStep :=
  match c.swRead l x (x.xr ra) (tyBytes t) false with
  | .fault a => .fault a
  | .wait w => .wait w
  | .ask u p n => .ask u p n
  | .bytes b =>
    let digit := keyOf t (leNat b) / 2 ^ bits x.swpShift 5 0 % 2048
    let a := effAddr (x.xr rc) (w64 (4 * digit))
    match c.swRead l x a 4 true with
    | .bytes v =>
      match ((c.swHere l (x.xr ra)).swHere l a).swWrite l x a (leBytes 4 (leNat v + 1)) with
      | .next c1 y => .next c1 (y.swept ra rb rc (tyBytes t) (y.xr rc))
      | other => other
    | .fault a => .fault a
    | .wait w => .wait w
    | .ask u p n => .ask u p n

/-- VSCAN on one element: e and the running total change places, the total growing by e (R100). -/
def vscanStep (l : Loc) (ra rb rc : Reg) (t : Nat) (c : Chip) (x : Slot) : SwStep :=
  match c.swRead l x (x.xr ra) (tyBytes t) true with
  | .fault a => .fault a
  | .wait w => .wait w
  | .ask u p n => .ask u p n
  | .bytes b =>
    let m := 2 ^ tyBits t
    match (c.swHere l (x.xr ra)).swWrite l x (x.xr ra) (leBytes (tyBytes t) ((x.xr rc).toNat % m)) with
    | .next c1 y => .next c1 (y.swept ra rb rc (tyBytes t) (w64 (((x.xr rc).toNat + leNat b) % m)))
    | other => other

/-- VFILL on one element (R100). -/
def vfillStep (l : Loc) (ra rb rc : Reg) (t : Nat) (c : Chip) (x : Slot) : SwStep :=
  match c.swWrite l x (x.xr ra) (leBytes (tyBytes t) ((x.xr rc).toNat % 2 ^ tyBits t)) with
  | .next c1 y => .next c1 (y.swept ra rb rc (tyBytes t) (y.xr rc))
  | other => other

/-- The edges of BSRCH from one on, as keys (R100); the first that cannot be read ends it. -/
def Chip.edges (c : Chip) (l : Loc) (x : Slot) (t : Nat) : Nat → Nat → Except SwRead (List Nat)
  | 0, _ => .ok []
  | n + 1, j =>
    match c.swRead l x (effAddr x.bsrchBase (w64 (j * tyBytes t))) (tyBytes t) false with
    | .bytes b =>
      match c.edges l x t n (j + 1) with
      | .ok r => .ok (keyOf t (leNat b) :: r)
      | .error e => .error e
    | other => .error other

/-- Whether keys ascend. -/
def ascending : List Nat → Bool
  | a :: b :: t => a ≤ b && ascending (b :: t)
  | _ => true

/-- How many edges have a key at or below an element's; over edges that do not ascend, some number from 0 to the edge count (R100). -/
def edgeCount (keys : List Nat) (k : Nat) : Nat :=
  if ascending keys then (keys.filter (fun d => d ≤ k)).length else Config.unorderedEdges keys k % (keys.length + 1)

/-- BSRCH on one element (R100). -/
def bsrchStep (l : Loc) (ra rb rc : Reg) (t : Nat) (c : Chip) (x : Slot) : SwStep :=
  match c.swRead l x (x.xr ra) (tyBytes t) false with
  | .fault a => .fault a
  | .wait w => .wait w
  | .ask u p n => .ask u p n
  | .bytes b =>
    match c.edges l x t (Nat.min (bits x.bsrchEdges 16 0) 65536) 0 with
    | .error (.fault a) => .fault a
    | .error (.wait w) => .wait w
    | .error (.ask u p n) => .ask u p n
    | .error (.bytes _) => .next c x
    | .ok keys =>
      let at_ := fun j => effAddr x.bsrchBase (w64 (j * tyBytes t))
      let c0 := (List.range keys.length).foldl (fun c j => c.swHere l (at_ j)) (c.swHere l (x.xr ra))
      match c0.swWrite l x (x.xr rc) (leBytes 4 (edgeCount keys (keyOf t (leNat b)))) with
      | .next c1 y => .next c1 (y.swept ra rb rc (tyBytes t) (x.xr rc + 4))
      | other => other

/-- How a sweep ends for now. -/
inductive SwEnd where
  | finished (c : Chip) (x : Slot)
  | stopped (c : Chip) (x : Slot)
  | broken (c : Chip) (x : Slot) (why : SwStep)

/-- Elements one after another: `done` are past; a pending interrupt stops the sweep at an element boundary (R101, R173). -/
def sweepRun (step : Nat → Chip → Slot → SwStep) (stops : Slot → Nat → Bool) : Nat → Nat → Chip → Slot → SwEnd
  | 0, passed, c, x => if stops x passed then .stopped c x else .finished c x
  | n + 1, passed, c, x =>
    if stops x passed then .stopped c x
    else
      match step passed c x with
      | .next c1 y => sweepRun step stops n (passed + 1) c1 y
      | why => .broken c x why

/-- Whether a pending interrupt stops a sweep here: BSRCH at any element boundary, the others where ra is a multiple of 1,024 or rb
is 0 (R173). -/
def sweepStops (func : Nat) (ra rb : Reg) (intr : Option Nat) (x : Slot) (passed : Nat) : Bool :=
  match intr with
  | none => false
  | some n => n ≤ passed && (func = 3 || (x.xr ra).toNat % 1024 = 0 || x.xr rb = 0)

/-- The address of a read of a sweep's element: 0 is the element at ra, j + 1 edge j of BSRCH. -/
def sweepReadAt (func : Nat) (ra : Reg) (w : Nat) (x : Slot) (read : Nat) : Word :=
  if func = 3 ∧ 0 < read then effAddr x.bsrchBase (w64 ((read - 1) * w)) else x.xr ra

/-- An element whose step meets an uncorrectable error in a read of this package's memory (R157): `ecc` names the element and the read. -/
def sweepEcc (l : Loc) (func : Nat) (ra : Reg) (w : Nat) (ecc : Option (Nat × Nat)) (step : Chip → Slot → SwStep)
    (c : Chip) (x : Slot) (passed : Nat) : SwStep :=
  let a := sweepReadAt func ra w x (ecc.elim 0 (fun p => p.2))
  if ecc.any (fun p => p.1 = passed && (p.2 = 0 || (func = 3 && p.2 ≤ Nat.min (bits x.bsrchEdges 16 0) 65536))) then
    match c.swRead l x a w false with
    | .bytes _ => if (c.access (some l.fc.toNat) a 1 false).any (fun t => t.pkg = none) then .ecc a else step c x
    | _ => step c x
  else step c x

/-- A sweep over the elements that rb counts (R100, R101, R111): its registers hold its progress wherever it stops. A VHIST whose 2,048
counters do not all lie in the core's own Pool faults before the first element, whatever its digits (DESIGN CHOICE, log 11). -/
def Chip.sweep (c : Chip) (l : Loc) (func : Nat) (ra rb rc : Reg) (ty : BitVec 4) (intr : Option Nat) (ecc : Option (Nat × Nat))
    (step : Chip → Slot → SwStep) : Chip :=
  c.issue l (fun s =>
    if sweepLegal ty.toNat func ra rb rc = false then c.illegal l (wordSW 0x37 ra rb rc ty (BitVec.ofNat 4 func))
    else if (c.core l.fc.toNat).strictWaits l.slot.toNat then c.stallSlot l .storeDrain
    else if func = 0 && (s.xr rb ≠ 0) && !(c.inOwnPool l.fc.toNat (s.xr rc) 8192) then c.fault l xMem (s.xr rc)
    else
      let try_ := fun passed c x => sweepEcc l func ra (tyBytes ty.toNat) ecc step c x passed
      match sweepRun try_ (sweepStops func ra rb intr) (s.xr rb).toNat 0 c s with
      | .finished c1 x => c1.retireVec l { x with swGot := [] }
      | .stopped c1 x => c1.setSlot l { x with wait := none, swGot := [] }
      | .broken c1 x why =>
        let c2 := c1.setSlot l x
        match why with
        | .next _ _ => c2
        | .fault a => c2.fault l xMem a
        | .wait w => c2.stallSlot l w
        | .ask t p n => c2.slotRead l .read t p n [] (.sweep t.key)
        | .dead p => (c1.setSlot l { x with swGot := [] }).slotRemoteEnd l p
        | .ecc a => (c1.setSlot l { x with swGot := [] }).slotEcc l a)

/-- VHIST (R100). -/
def execVhist (l : Loc) (ra rb rc : Reg) (ty : BitVec 4) (events : SweepEvents) (s : State) :
    Host.Outcome State Fault Refusal :=
  s.run (fun c => c.sweep l 0 ra rb rc ty events.intr events.ecc (vhistStep l ra rb rc ty.toNat))

/-- VSCAN (R100). -/
def execVscan (l : Loc) (ra rb rc : Reg) (ty : BitVec 4) (events : SweepEvents) (s : State) :
    Host.Outcome State Fault Refusal :=
  s.run (fun c => c.sweep l 1 ra rb rc ty events.intr events.ecc (vscanStep l ra rb rc ty.toNat))

/-- VFILL (R100). -/
def execVfill (l : Loc) (ra rb rc : Reg) (ty : BitVec 4) (intr : Option Nat) (s : State) : Host.Outcome State Fault Refusal :=
  s.run (fun c => c.sweep l 2 ra rb rc ty intr none (vfillStep l ra rb rc ty.toNat))

/-- BSRCH (R100). -/
def execBsrch (l : Loc) (ra rb rc : Reg) (ty : BitVec 4) (events : SweepEvents) (s : State) :
    Host.Outcome State Fault Refusal :=
  s.run (fun c => c.sweep l 3 ra rb rc ty events.intr events.ecc (bsrchStep l ra rb rc ty.toNat))

end Sys2Proof.Machine
end

