-- ==== Sys2Proof/Machine/CoreEvents.lean ====
section
/-! DEFINITION. Events at a core: counter wraps and their interrupt (R171, R172, R179). -/

namespace Sys2Proof.Machine

/-- Whether an event number is one that a counter can count (Table 4 of the stall accounting). -/
def countedEvent (e : Nat) : Bool :=
  (1 ≤ e && e ≤ 3) || (0x10 ≤ e && e ≤ 0x1C) || (0x20 ≤ e && e ≤ 0x25) || (0x30 ≤ e && e ≤ 0x34)

/-- PMC_WRAP: a counter that counts an event passes 2^48 - 1 (R171); it holds 0, its PMWRAP bit is set, and with PMIE one event is
pending. -/
def execPmcWrap (fc : BitVec 6) (counter : BitVec 4) (s : State) : Host.Outcome State Fault Refusal :=
  s.run (fun c =>
    let k := c.core fc.toNat
    let n := counter.toNat
    if countedEvent (SMap.get 0 k.pmsel n).toNat then
      c.setCore fc.toNat ({ k with pmc := SMap.set k.pmc n (BitVec.allOnes 48) }.bump n 1)
    else c)

/-- A slot that PMC_WRAP may go to: it holds a task, with PMI = 1, IE = 1 and a handler (R160, R171). -/
def Slot.takesPmc (s : Slot) : Bool :=
  s.task.isSome && !s.stopped && bit s.xstatus 1 && bit s.xstatus 0 && s.xvec &&& ~~~(3 : Word) ≠ 0

/-- Whether a slot stands at a boundary at which an interrupt is taken: between instructions, or in a stalled instruction that R109 or
R151 makes interruptible (R172); a wait for a tracker is one where the instruction is an SMSG. -/
def Slot.interruptible (s : Slot) : Bool :=
  s.pend.isNone &&
    (match s.wait with
     | none => true
     | some .fenceWait => true
     | some .hqEmpty => true
     | some .hqFull => true
     | some .engineBusy => true
     | some .trackerFull => s.smsg
     | _ => false)

/-- PMC_WRAP_INTERRUPT: a pending wrap goes to the lowest-numbered slot that takes it (R171, R172); which of several pending counters is
first is not stated, and is free. -/
def execPmcWrapInterrupt (fc : BitVec 6) (s : State) : Host.Outcome State Fault Refusal :=
  s.run (fun c =>
    let k := c.core fc.toNat
    match (List.range 8).find? (fun i => (k.slot i).takesPmc) with
    | none => c
    | some i =>
      let l : Loc := { fc := fc, slot := BitVec.ofNat 3 i }
      match k.pmPending[c.free.toNat % k.pmPending.length]? with
      | none => c
      | some n =>
        if (k.slot i).interruptible && c.fcRuns fc.toNat then
          (c.spend.setCore fc.toNat { k with pmPending := k.pmPending.erase n }).exc l (xcauseOf true false n 0x40) (k.slot i).pc 0
        else c)

end Sys2Proof.Machine
end

