-- ==== Sys2Proof/Machine/Tables.lean ====
section
/-! DEFINITION. Embedding tables: placement (R253 to R256), the table registers (R258, R259), and the slice reads that a package serves (R270,
R272, R276 to R278). -/

namespace Sys2Proof.Machine


/-! Placement. -/

/-- The packages of the installation: N (R253). -/
def Chip.pkgCount (c : Chip) : Nat := c.nx * c.ny * c.nz
/-- GROUP_SIZE as it acts (Table 2). -/
def Chip.groupSize (c : Chip) : Nat := clampNat 1 64 (bits c.emb.ctrl 6 0)
/-- The linear rank of a package (R253). -/
def Chip.rank (c : Chip) (p : Nat) : Nat := pkgX p + c.nx * (pkgY p + c.ny * pkgZ p)
/-- The package of a linear rank. -/
def Chip.rankPkg (c : Chip) (l : Nat) : Nat := l % c.nx * 256 + l / c.nx % c.ny * 16 + l / (c.nx * c.ny)

/-- EN (Table 3). -/
def Table.en (t : Table) : Bool := bit t.cfg 63
/-- REPLICATED. -/
def Table.replicated (t : Table) : Bool := bit t.cfg 62
/-- TYPE. -/
def Table.ty (t : Table) : Nat := bits t.cfg 31 28
/-- COLUMNS. -/
def Table.columns (t : Table) : Nat := bits t.cfg 12 0
/-- HOT_THRESHOLD; 0 acts as 1. -/
def Table.threshold (t : Table) : Nat := Nat.max 1 (bits t.cfg 47 32)
/-- ROWS. -/
def Table.rowCount (t : Table) : Nat := bits t.rows 39 0
/-- The slice length S of a table whose geometry is right (R254). -/
def Table.slice (t : Table) (g : Nat) : Nat := t.columns / g * tyBits t.ty / 8

/-- Whether a table can be gathered from (Table 6, code 0x02; R253, R254). -/
def Chip.tableOk (c : Chip) (t : Table) : Bool :=
  let g := c.groupSize
  c.pkgCount % g = 0 && t.en && (t.ty = 0 || t.ty = 1 || t.ty = 9 || t.ty = 10) && 1 ≤ t.columns && t.columns ≤ 4096 &&
    t.columns % g = 0 && (t.columns / g * tyBits t.ty) % 256 = 0 && (t.replicated || bits t.cfg 59 48 < c.pkgCount / g)

/-- The channel of a row's own slot (R256). -/
def Table.channel (t : Table) (r : Nat) : Nat := (r + mx64n (r / 96 ^^^ t.salt.toNat)) % 96

/-- The offset of byte q of a channel's part of a table (R256). -/
def Table.offset (t : Table) (ch q : Nat) : Nat := bits t.base 49 0 + (q / 4096 * 96 + ch) * 4096 + q % 4096

/-- The channel and slot where a row lies now: its own, or a spare one (R256, R274). -/
def Chip.rowPlace (c : Chip) (t r : Nat) : Nat × Nat :=
  match c.emb.remap.find? (fun x => x.table = t ∧ x.row = r) with
  | some x => (x.channel, x.place)
  | none => ((c.table t).channel r, r / 96)

/-- The offsets of the S bytes of a slot. -/
def Chip.placeOffsets (c : Chip) (t : Nat) (place : Nat × Nat) (s : Nat) : List Nat :=
  (List.range s).map (fun k => (c.table t).offset place.1 (place.2 * s + k))

/-! The table registers. -/

/-- What reloading a table drops (R259). -/
def Chip.purgeTable (c : Chip) (t : Nat) : Chip :=
  { c with emb := { c.emb with
      remap := c.emb.remap.filter (fun x => x.table ≠ t), moves := c.emb.moves.filter (fun x => x.table ≠ t),
      stopped := c.emb.stopped.filter (fun x => x ≠ t), usedSpare := c.emb.usedSpare.filter (fun x => x.1 ≠ t),
      poison := c.emb.poison.filter (fun x => x.1 ≠ t), hot := c.emb.hot.filter (fun x => x.1 ≠ t),
      hotBad := c.emb.hotBad.filter (fun x => x.1 ≠ t),
      tracker := c.emb.tracker.filter (fun x => x.table ≠ t),
      poisonFull := c.emb.poisonFull && (c.emb.poison.filter (fun x => x.1 ≠ t)).length = 1024 } }

/-- A write of a table's register (R258, R259): nothing while the Recipe Lock is held. -/
def Chip.tableWrite (c : Chip) (n : Nat) (reg : TableReg) (v : Word) : Chip :=
  if c.locked then c
  else
    let t := c.table n
    let t1 := match reg with
      | .cfg => { t with cfg := setBits v 13 15 0 }
      | .rows => { t with rows := w64 (bits v 39 0) }
      | .base => { t with base := w64 (bits v 49 0) }
      | .salt => { t with salt := v }
      | .spare => { t with spare := w64 (bits v 16 0) }
    (c.setTable n { t1 with version := 0 }).purgeTable n

/-- TABLE_REG_WRITE (R259). -/
def execTableRegWrite (table : BitVec 6) (reg : TableReg) (value : Word) (s : State) : Host.Outcome State Fault Refusal :=
  s.run (fun c => if c.blackout then c else c.tableWrite table.toNat reg value)

/-! Slice reads that this package serves. -/

/-- MEAS_EPOCH. -/
def Chip.measuring (c : Chip) : Bool := bits c.emb.ctrl 63 48 ≠ 0

/-- The order of the tracker's entries: the lower table, then the lower row (R270). -/
def Track.before (a b : Track) : Bool := a.table < b.table || (a.table = b.table && a.row < b.row)

/-- The entry that a new row replaces: the lowest count, then the lower table and row (R270). -/
def lowestTrack : List Track → Option Track
  | [] => none
  | a :: t =>
    match lowestTrack t with
    | none => some a
    | some b => if b.count < a.count ∨ (b.count = a.count ∧ b.before a = true) then some b else some a

/-- A slice read in the Hot Row Tracker (R270). -/
def trackRow (l : List Track) (t r : Nat) : List Track :=
  if l.any (fun x => x.table = t ∧ x.row = r) then
    l.map (fun x => if x.table = t ∧ x.row = r then { x with count := x.count + 1 } else x)
  else if l.length < 16384 then { table := t, row := r, count := 1 } :: l
  else
    match lowestTrack l with
    | none => l
    | some y => { table := t, row := r, count := y.count + 1 } :: l.filter (fun x => ¬ (x.table = y.table ∧ x.row = y.row))

/-- Whether die d's Hot Row Cache holds a row (R271, R276). -/
def Chip.hotRow (c : Chip) (t r d : Nat) : Bool := (t, r) ∈ c.emb.hot && (t, r, d) ∉ c.emb.hotBad

/-- An uncorrectable error in an entry of die d's Hot Row Cache: the entry is invalid, and the event is logged (R276). -/
def Chip.hotError (c : Chip) (t r d : Nat) : Chip :=
  ({ c with emb := { c.emb with hotBad := (t, r, d) :: c.emb.hotBad } }).log 0x0013 1 0x44
    (leBytes 8 r ++ [BitVec.ofNat 8 t, BitVec.ofNat 8 d])

/-- The die that owns a channel (R119). -/
def channelDie (ch : Nat) : Nat := ch / 48

/-- A slice read that reaches this package, in the Hot Row Tracker (R270). -/
def Chip.trackSlice (c : Chip) (t r : Nat) : Chip :=
  let tb := c.table t
  if c.measuring && (bit tb.cfg 61 || bit tb.cfg 60) then { c with emb := { c.emb with tracker := trackRow c.emb.tracker t r } } else c

/-- A slice read of this package through die d is counted: the tracker, the load of the channel that serves it, and HRC_HITS (R270, R272). -/
def Chip.countSlice (c : Chip) (t r d : Nat) : Chip :=
  let tb := c.table t
  let ch := (c.rowPlace t r).1
  let c1 := (if c.hotRow t r d then c.setTable t { tb with hrcHits := tb.hrcHits + 1 } else c).trackSlice t r
  if c1.measuring then { c1 with emb := { c1.emb with load := SMap.set c1.emb.load ch (SMap.get 0 c1.emb.load ch + 1) } } else c1

/-- Whether a row is on the Poison List (R277). -/
def Chip.poisoned (c : Chip) (t r : Nat) : Bool := (t, r) ∈ c.emb.poison

/-- A slice read that names a poisoned row: POISON_HITS rises, and the tracker counts it as any other (R258, R270). -/
def Chip.countPoison (c : Chip) (t r : Nat) : Chip :=
  (c.setTable t { c.table t with poisonHits := (c.table t).poisonHits + 1 }).trackSlice t r

/-- An uncorrectable error in a slice (R277): the row joins the Poison List while it has room, POISON_FULL says that it is full, and the event
is logged. -/
def Chip.poisonRow (c : Chip) (t r : Nat) : Chip :=
  let room := c.poisoned t r || c.emb.poison.length < 1024
  let c1 :=
    if c.poisoned t r then c
    else if room then
      { c with emb := { c.emb with poison := (t, r) :: c.emb.poison, poisonFull := c.emb.poisonFull || c.emb.poison.length = 1023 } }
    else { c with emb := { c.emb with poisonFull := true } }
  c1.log 0x0012 2 (0x70 + (c.rowPlace t r).1 / 16) (leBytes 8 r ++ [BitVec.ofNat 8 t, if room then 1 else 0])

/-- Where a slice of member m comes from when the read would use group g (R255, R278): the first group from g on whose member of that
index is live; only g itself for a table that is not replicated, or where there is one group. -/
def Chip.memberPkg (c : Chip) (t : Table) (g m : Nat) : Nat ⊕ Nat :=
  let n := c.pkgCount / c.groupSize
  let pkg := fun k => c.rankPkg ((g + k) % n * c.groupSize + m)
  let live := fun p => p = c.self || p ∈ c.net.live
  let tries := if t.replicated then n else 1
  match (List.range tries).find? (fun k => live (pkg k)) with
  | some k => .inl (pkg k)
  | none => .inr (pkg 0)

/-- The group that a Request of this package gathers from (R255). -/
def Chip.gatherGroup (c : Chip) (t : Table) : Nat := if t.replicated then c.rank c.self / c.groupSize else bits t.cfg 59 48

end Sys2Proof.Machine
end

