-- ==== Sys2Proof/Machine/Engine.lean ====
section
/-! DEFINITION. Engine commands (R204 to R208, R137, R219, R230, R231): what a command reads and writes, and how it starts, works,
completes and puts its handle. -/

namespace Sys2Proof.Machine

/-- A read that an engine must send out: of another package, of the far side of a port, or a slice read of a table's row: the member's
number, its package, the window of the coalescer, the bytes of the slice, and whether it is a sibling read (R277). -/
inductive Ask where
  | remote (t : Target) (pkg size : Nat)
  | bus (port addr len : Nat)
  | slice (table row member pkg window size : Nat) (sibling : Bool)
  deriving DecidableEq, Repr

/-- Why a command does not finish now: an error with its status and code, reads that must be answered, a wait, a package that is
lost, or that its next part follows. -/
inductive Stop where
  | fault (status code : Nat)
  | ask (l : List Ask)
  | wait (w : Cause)
  | dead (pkg : Nat)
  | again
  deriving DecidableEq, Repr

/-- A write of a command: cells of this package, up to 64 bytes of another package (as WR, or as BULK_WR or BCAST_DATA), or bytes of the
far side of a port. -/
inductive Wr where
  | here (off : Nat) (data : List Byte)
  | remote (t : Target) (pkg : Nat) (data : List Byte)
  | bulk (kind : TrkKind) (t : Target) (pkg : Nat) (data : List Byte)
  | bus (port addr : Nat) (data : List Byte)
  deriving DecidableEq, Repr

/-- Who reads: a core's engine, or a unit of the HUB with no Pool of its own; the package as it reads it, the bytes answered to it, whether a
tracker is free for its accesses to this package (R219), and memory as it stands now. -/
structure Reader where
  chip : Chip
  own : Option Nat
  got : SMap Byte
  room : Bool
  now : List Host.Cell

/-- A computation that reads memory as it stands before the command's own writes; it keeps the offsets of this package, beyond the reader's
own Pool, that it has read, the last first. -/
abbrev Rd (α : Type) := ReaderT Reader (StateT (List Nat) (Except Stop)) α

/-- What a computation gives, with the offsets that it has read in order. -/
def Rd.result {α : Type} (m : Rd α) (r : Reader) : Except Stop (α × List Nat) :=
  match m r [] with
  | .ok (a, l) => .ok (a, l.reverse)
  | .error e => .error e

/-- What a computation gives. -/
def Rd.value {α : Type} (m : Rd α) (r : Reader) : Except Stop α :=
  match m r [] with
  | .ok (a, _) => .ok a
  | .error e => .error e

/-- Whether a reader's access to an offset of this package is a transaction: it lies beyond its own Pool (R219). -/
def Reader.beyond (r : Reader) (o : Nat) : Bool := r.own.isNone || poolCore o ≠ r.own

/-- The status and code of a refused access, and those of one that reaches a Device Strict region (R208). -/
structure Errs where
  status : Nat
  code : Nat
  dsStatus : Nat
  dsCode : Nat
  deriving DecidableEq, Repr

/-- An error for every refusal alike. -/
def Errs.same (status code : Nat) : Errs := ⟨status, code, status, code⟩

/-- The pieces of n bytes at an address that lie in one 64-byte line each, in order. -/
def linePieces : Nat → Word → Nat → List (Word × Nat)
  | 0, _, _ => []
  | fuel + 1, a, n =>
    if n = 0 then []
    else
      let k := Nat.min n (64 - a.toNat % 64)
      (a, k) :: linePieces fuel (effAddr a (w64 k)) (n - k)

/-- The pieces of an access of n bytes. -/
def piecesOf (a : Word) (n : Nat) : List (Word × Nat) := linePieces (n / 64 + 2) a n

/-- One piece of a read: its bytes, or what must be asked. A read of a WP region or of the Recipe Store is answered (R124; DESIGN CHOICE where
R195 names them for every LCE access, log 18). -/
def readPiece (r : Reader) (er : Errs) (a : Word) (n : Nat) : Except Stop ((List Byte × List Nat) ⊕ Ask) :=
  match r.chip.access r.own a n false with
  | none => .error (.fault er.status er.code)
  | some t =>
    if t.ty = 2 then .error (.fault er.dsStatus er.dsCode)
    else
      match t.pkg with
      | none =>
        match r.chip.homeWait t with
        | some w => .error (.wait w)
        | none =>
          if r.beyond t.off && !r.room then .error (.wait .trackerFull)
          else .ok (.inl (r.chip.bytes t.off n, if r.beyond t.off then [t.off] else []))
      | some p =>
        match gotBytes r.got t.key n with
        | some b => .ok (.inl (b, []))
        | none => if r.chip.reachable p then .ok (.inr (.remote t p n)) else .error (.dead p)

/-- All pieces of a read: their bytes, the offsets of this package that were read, and everything that must be asked. -/
def readPieces (r : Reader) (er : Errs) : List (Word × Nat) → Except Stop (List Byte × List Nat × List Ask)
  | [] => .ok ([], [], [])
  | (a, n) :: t =>
    match readPiece r er a n with
    | .error e => .error e
    | .ok x =>
      match readPieces r er t with
      | .error e => .error e
      | .ok (b, o, q) =>
        match x with
        | .inl y => .ok (y.1 ++ b, y.2 ++ o, q)
        | .inr k => .ok (b, o, k :: q)

/-- n bytes at a Global Address. -/
def rdBytes (er : Errs) (a : Word) (n : Nat) : Rd (List Byte) := fun r l =>
  match readPieces r er (piecesOf a n) with
  | .error e => .error e
  | .ok (b, o, []) => .ok (b, o.reverse ++ l)
  | .ok (_, _, q) => .error (.ask q)

/-- The pieces of bus bytes of up to 4,096 bytes each (R419). -/
def busPieces : Nat → Nat → Nat → List (Nat × Nat)
  | 0, _, _ => []
  | fuel + 1, a, n => if n = 0 then [] else (a, Nat.min n 4096) :: busPieces fuel (a + Nat.min n 4096) (n - Nat.min n 4096)

/-- Where bytes of the far side of a port are kept among a reader's answered bytes. -/
def busKey (port a : Nat) : Nat := 2 ^ 64 * (port + 1) + a

/-- n bytes of the far side of a port (R419): code 0x01 where the port can send no read. -/
def rdBus (port addr n : Nat) : Rd (List Byte) := fun r l =>
  let ps := busPieces (n / 4096 + 1) addr n
  let missing := ps.filter (fun p => (gotBytes r.got (busKey port p.1) p.2).isNone)
  if missing.isEmpty then .ok ((ps.map (fun p => (gotBytes r.got (busKey port p.1) p.2).getD [])).flatten, l)
  else if (r.chip.port port).linkUp && (r.chip.port port).busMaster then .error (.ask (missing.map (fun p => .bus port p.1 p.2)))
  else .error (.fault 0x10 0x01)

/-- A command ends with an error. -/
def rdFail {α : Type} (status code : Nat) : Rd α := fun _ _ => .error (.fault status code)

/-- A computation stops. -/
def rdStop {α : Type} (e : Stop) : Rd α := fun _ _ => .error e

/-- A value that a pure function of the reader gives. -/
def rdOf {α : Type} (f : Reader → Except Stop α) : Rd α := fun r l =>
  match f r with
  | .ok a => .ok (a, l)
  | .error e => .error e

/-- One piece of a write. A region that is both WP and Device Strict gives the code of WP (DESIGN CHOICE, log 18). -/
def writePiece (r : Reader) (er : Errs) (a : Word) (data : List Byte) : Except Stop Wr :=
  match r.chip.access r.own a data.length true with
  | none => .error (.fault er.status er.code)
  | some t =>
    if t.ty = 2 then .error (.fault er.dsStatus er.dsCode)
    else
      match t.pkg with
      | none =>
        match r.chip.homeWait t with
        | some w => .error (.wait w)
        | none => if r.beyond t.off && !r.room then .error (.wait .trackerFull) else .ok (.here t.off data)
      | some p => if r.chip.reachable p then .ok (.remote t p data) else .error (.dead p)

/-- All pieces of a write. -/
def writePieces (r : Reader) (er : Errs) : List (Word × Nat) → List Byte → Except Stop (List Wr)
  | [], _ => .ok []
  | (a, n) :: t, data =>
    match writePiece r er a (data.take n) with
    | .error e => .error e
    | .ok w =>
      match writePieces r er t (data.drop n) with
      | .error e => .error e
      | .ok l => .ok (w :: l)

/-- Bytes written at a Global Address. -/
def wrBytes (er : Errs) (a : Word) (data : List Byte) : Rd (List Wr) :=
  rdOf (fun r => writePieces r er (piecesOf a data.length) data)

/-- What a command does once it has read everything: its writes in order, its effect on the rest of the package, and the fault that
it meets after them, if it meets one (R195, R230). -/
structure EngOut where
  writes : List Wr
  effect : Chip → Chip
  stop : Option Stop

/-- A command that only writes. -/
def EngOut.ofWrites (w : List Wr) : EngOut := { writes := w, effect := id, stop := none }

/-- What a computation gives, as data. -/
def rdTry {α : Type} (m : Rd α) : Rd (Except Stop α) := fun r l =>
  match m r l with
  | .ok (a, k) => .ok (.ok a, k)
  | .error e => .ok (.error e, l)

/-- A computation for each element of a list: the results, or the first stop that is no ask, or all that must be asked. -/
def rdAll {α β : Type} (f : α → Rd β) : List α → Rd (List β)
  | [] => fun _ l => .ok ([], l)
  | a :: t => fun r l =>
    match f a r l with
    | .error (.ask q) =>
      match rdAll f t r l with
      | .error (.ask q2) => .error (.ask (q ++ q2))
      | _ => .error (.ask q)
    | .error e => .error e
    | .ok (b, k) =>
      match rdAll f t r k with
      | .error e => .error e
      | .ok (bs, k2) => .ok (b :: bs, k2)

/-! The command in work. -/

/-- Field of n bytes at offset o of a command. -/
def EngCmd.field (x : EngCmd) (o n : Nat) : Nat := fieldB x.bytes o n
/-- An address field of a command. -/
def EngCmd.addr (x : EngCmd) (o : Nat) : Word := w64 (fieldB x.bytes o 8)
/-- A bit of a byte of a command. -/
def EngCmd.bit (x : EngCmd) (o i : Nat) : Bool := (fieldB x.bytes o 1 / 2 ^ i) % 2 = 1
/-- FLAGS.DONE_EN (Table 1 of the streams chapter). -/
def EngCmd.doneEn (x : EngCmd) : Bool := x.bit 1 0
/-- FLAGS.START_EN. -/
def EngCmd.startEn (x : EngCmd) : Bool := x.bit 1 1
/-- FLAGS.PASS. -/
def EngCmd.pass (x : EngCmd) : Bool := x.bit 1 2
/-- The stream that governs a command. -/
def EngCmd.streamNum (x : EngCmd) : Nat := x.field 2 1 % 64

/-- Whether the DONE put of the oldest command waits for room (R207). -/
def Engine.putWaits (g : Engine) : Bool := g.wait = some .hqFull && g.queue.head?.any (fun x => x.phase = .complete)

/-- The command that an engine works on: the first that has not done its work (R205). One that met a fault issues nothing more, and those
behind it wait for KILL (R230); an engine whose DONE put waits does nothing else (R207). -/
def Engine.current (g : Engine) : Option EngCmd :=
  if g.putWaits then none
  else
    match g.inWork with
    | some x => if x.killed then none else some x
    | none => none

/-- A queue with the command of one sequence number replaced. -/
def putCmd (q : List EngCmd) (x : EngCmd) : List EngCmd := q.map (fun y => if y.seq = x.seq then x else y)

/-- An engine's command replaced. -/
def Chip.setCmd (c : Chip) (fc e : Nat) (x : EngCmd) : Chip :=
  let k := c.core fc
  c.setCore fc (k.setEngine e { k.engine e with queue := putCmd (k.engine e).queue x })

/-- How many transactions an engine may still issue: under the core's trackers and the LIMIT of its stream, which the commands of every
engine that name the stream share (R219). -/
def Chip.engineRoom (c : Chip) (fc _e : Nat) (x : EngCmd) : Nat :=
  let k := c.core fc
  let mine := (k.trks.filter (fun t => t.stream = some x.streamNum)).length
  let all := (k.trks.filter (fun t => match t.holder with | .engine _ => true | _ => false)).length
  Nat.min ((k.stream x.streamNum).limit - mine) (Nat.min (960 - all) (1024 - k.trksUsed))

/-- The bytes available to the program end of a stream beyond its current position (R239): of an OUT stream, what the engine end has drained of
the slots that it holds. -/
def Stream.ready (t : Stream) (drained : Nat) : Nat :=
  if t.out then (if t.mode = 1 ∨ t.mode = 2 then drained else 0)
  else if t.mode = 1 then t.filled * t.slotBytes
  else if t.mode = 2 then ((if t.half0 then 1 else 0) + (if t.half1 then 1 else 0)) * t.slotBytes
  else 0

/-- The reader that an engine is while it works on a command, which reads memory as it saw it when it started, where it keeps that (R350). -/
def Chip.reader (c : Chip) (fc e : Nat) (x : EngCmd) : Reader :=
  { chip := { c with mem := x.seen.getD c.mem }, own := some fc, got := ((c.core fc).engine e).got, room := 0 < c.engineRoom fc e x, now := c.mem }

/-- EMPTY_AT of a transaction of an engine's command, none for one without a declared rate (R238, R239). -/
def Chip.emptyAt (c : Chip) (fc e : Nat) (x : EngCmd) (drained : Nat) : Option Word :=
  let rate := x.field 0x30 4
  if e = 0 ∧ x.field 0 1 = 1 ∧ rate ≠ 0 then
    let b := ((c.core fc).stream x.streamNum).ready drained
    some (c.tide + w64 (b * 1000 / rate))
  else none

/-- A tagged transaction is counted (R248). -/
def Chip.countTag (c : Chip) (fc : Nat) (tag : Option Word) : Chip :=
  match tag with
  | none => c
  | some _ => c.setCore fc ((c.core fc).count 0x34 1)

/-- The place of a slice among an engine's trackers, and of its bytes among those answered: table, row, member and window. -/
def sliceKey (t r m w : Nat) : Nat := 2 ^ 100 + ((t * 2 ^ 40 + r) * 4096 + m) * 2 ^ 21 + w

/-- Where the bytes of a slice are kept. -/
def sliceAt (key : Nat) : Nat := key * 8192

/-- Trackers of a slice read: one for each 64 bytes (R264). -/
def Core.takeSlice (k : Core) (e ctx pkg key : Nat) : Nat → Core
  | 0 => k
  | n + 1 =>
    let trk : Trk := { id := k.freeTrk, holder := .engine e, kind := .read, addr := key, size := 64, pkg := pkg, ctx := ctx,
                       stream := k.streamOf (.engine e) }
    Core.takeSlice ({ k with trks := trk :: k.trks }) e ctx pkg key n

/-- A read sent out for an engine, unless it is asked for already. -/
def Chip.engineAsk (c : Chip) (fc e : Nat) (x : EngCmd) : Ask → Chip
  | .remote t p n =>
    let g := (c.core fc).engine e
    if t.key ∈ g.asked then c
    else if c.engineRoom fc e x = 0 then c.stallEngine fc e .trackerFull
    else
      let tag := c.emptyAt fc e x 0
      let r := ((c.countTag fc tag).remote fc (.engine e) .read t p n [] x.ctx (tag.getD 0)).1
      r.setCore fc ((r.core fc).setEngine e { (r.core fc).engine e with asked := t.key :: ((r.core fc).engine e).asked })
  | .bus port a n =>
    let g := (c.core fc).engine e
    if busKey port a ∈ g.asked then c
    else
      match c.busAsk (.engine fc e x.seq) x.ctx port a n with
      | some d => d.setCore fc ((c.core fc).setEngine e { g with asked := busKey port a :: g.asked })
      | none => c
  | .slice t r m p w n sibling =>
    let k := c.core fc
    let g := k.engine e
    let key := sliceKey t r m w
    if key ∈ g.asked then c
    else if c.engineRoom fc e x < Nat.min ((n + 63) / 64) (k.stream x.streamNum).limit then c.stallEngine fc e .trackerFull
    else
      let blocks := (n + 63) / 64
      let id := k.freeTrk
      let k1 := (k.takeSlice e x.ctx p key (Nat.min blocks (k.stream x.streamNum).limit)).count 0x30 blocks
      let c1 := if sibling then c.countPoison t r else c
      (c1.setCore fc (k1.setEngine e { g with asked := key :: g.asked })).askSlice
        { c.blankMsg 0x06 p with
          addr := w64 t, txn := txnOf fc id, len := 8, cause := if sibling then 1 else 0, position := 0,
          ctx := BitVec.ofNat 32 x.ctx, data := leBytes 8 r }

/-- Whether a write is a transaction with this package: it lies beyond the core's own Pool (R219). -/
def Wr.beyond (fc : Nat) : Wr → Bool
  | .here o _ => poolCore o ≠ some fc
  | _ => false

/-- Whether a write goes to another package. -/
def Wr.isRemote : Wr → Bool
  | .remote _ _ _ => true
  | .bulk _ _ _ _ => true
  | _ => false

/-- The bytes of a write. -/
def Wr.size : Wr → Nat
  | .here _ d => d.length
  | .remote _ _ d => d.length
  | .bulk _ _ _ d => d.length
  | .bus _ _ d => d.length

/-- A write of a command performed, after others of a number of bytes. -/
def Chip.doWrite (c : Chip) (fc e : Nat) (x : EngCmd) (drained : Nat) : Wr → Chip
  | .here o data => (c.here fc (.engine e) true (c.emptyAt fc e x drained) o).putAt o data
  | .remote t p data =>
    let tag := c.emptyAt fc e x drained
    ((c.countTag fc tag).remote fc (.engine e) .write t p data.length data x.ctx (tag.getD 0)).1
  | .bulk kind t p data => (c.remote fc (.engine e) kind t p data.length data x.ctx 0).1
  | .bus port a data => c.busWrites port a data false false

/-- Writes performed in order, after others of a number of bytes. -/
def Chip.doWrites (c : Chip) (fc e : Nat) (x : EngCmd) : Nat → List Wr → Chip
  | _, [] => c
  | n, w :: t => Chip.doWrites (c.doWrite fc e x n w) fc e x (n + w.size) t

/-- The bytes of writes. -/
def writtenBytes (l : List Wr) : Nat := (l.map Wr.size).sum

/-- A command met a fault: it stops, and its Request ends (R208, R230). -/
def Chip.failCmd (c : Chip) (fc e : Nat) (x : EngCmd) (status code : Nat) : Chip :=
  (c.setCmd fc e { x with killed := true }).engineError fc e x status code

/-- A command's work is done: what it was answered is let go. While its writes are unanswered the engine waits on them (R246). -/
def Chip.finishCmd (c : Chip) (fc e : Nat) (x : EngCmd) : Chip :=
  let c1 := c.setCmd fc e { x with phase := .worked, start := [], seen := none }
  let k := c1.core fc
  let c2 := c1.setCore fc (k.setEngine e { k.engine e with got := [], asked := [], wait := none })
  if k.engineOutstanding e && (k.engine e).inWork.isNone then c2.stallEngine fc e .lateRemote else c2

/-- A computation that stopped: an error ends the Request, reads go out, a wait is counted. -/
def Chip.engineStop (c : Chip) (fc e : Nat) (x : EngCmd) : Stop → Chip
  | .fault status code => c.failCmd fc e x status code
  | .dead p => (c.setCmd fc e { x with killed := true }).endReq x.ctx 0x15 (detailRemote p false)
  | .wait w => c.stallEngine fc e w
  | .again => c
  | .ask l =>
    let c1 := l.foldl (fun c a => c.engineAsk fc e x a) c
    if ((c1.core fc).engine e).wait = some .trackerFull then c1 else c1.stallEngine fc e .lateRemote

/-- The writes of a command: those to other packages first, as far as trackers allow, `prog` of them being out already; everything else
once the last of them is out and a tracker is free for it. Its reads of this package, which have been performed, are counted then. A fault
that follows the writes stops the command. -/
def Chip.commitCmd (c0 : Chip) (fc e : Nat) (x : EngCmd) (out : EngOut) (reads : List Nat) : Chip :=
  let far := (out.writes.filter (fun w => w.isRemote)).drop x.prog
  let room := c0.engineRoom fc e x
  let near := out.writes.any (fun w => w.beyond fc)
  if far.length + (if near then 1 else 0) ≤ room ∨ far = [] then
    let c := c0.heres fc (.engine e) false (c0.emptyAt fc e x 0) reads
    let c1 := c.doWrites fc e x 0 far
    let c2 := out.effect (c1.doWrites fc e x (writtenBytes far) (out.writes.filter (fun w => !w.isRemote)))
    match out.stop with
    | none => c2.finishCmd fc e x
    | some st => c2.engineStop fc e { x with prog := x.prog + far.length } st
  else
    let c1 := c0.doWrites fc e x 0 (far.take room)
    (c1.setCmd fc e { x with prog := x.prog + Nat.min room far.length }).stallEngine fc e .trackerFull

/-- The command that a row of the table works on: the engine's current one, its start handle taken (R206), with the row's OPCODE. An
OPCODE that the engine does not define is error 0xF0 (R208), and data with an uncorrectable error is error 0x40 (R157). -/
def Chip.onCommand (c : Chip) (fc e : Nat) (opcode : Option Nat) (known : List Nat) (ecc : Bool) (f : EngCmd → Chip) : Chip :=
  match ((c.core fc).engine e).current with
  | none => c
  | some x =>
    if (x.startEn && x.phase = .queued) || !c.fcRuns fc then c
    else
      match opcode with
      | none => if ecc then c.failCmd fc e x 0x11 0x40 else f x
      | some op =>
        if x.field 0 1 ∉ known then c.failCmd fc e x 0x14 0xF0
        else if x.field 0 1 ≠ op then c
        else if ecc then c.failCmd fc e x 0x11 0x40
        else f x

/-- A body's result carried out. -/
def Chip.carry (c : Chip) (fc e : Nat) (x : EngCmd) (body : Rd EngOut) : Chip :=
  match body.result (c.reader fc e x) with
  | .ok (out, reads) => c.commitCmd fc e x out reads
  | .error st => c.engineStop fc e x st

/-- A command that reads all it needs and then writes. -/
def Chip.engineRow (c : Chip) (fc e : Nat) (opcode : Option Nat) (known : List Nat) (ecc : Bool) (body : EngCmd → Rd EngOut) : Chip :=
  c.onCommand fc e opcode known ecc (fun x => c.carry fc e x (body x))

/-- A command with the bytes that it reads once, when it starts, as far as they can be read now. -/
def EngCmd.begun (x : EngCmd) (first : EngCmd → Rd (List Byte)) (r : Reader) : EngCmd :=
  if x.start ≠ [] then x
  else
    match (first x).value r with
    | .ok b => { x with start := b }
    | .error _ => x

/-- The bytes that a command reads when it starts: as they were then, or as they are now (R190, R289, R341). -/
def EngCmd.atStart (x : EngCmd) (first : EngCmd → Rd (List Byte)) : Rd (List Byte) := if x.start ≠ [] then pure x.start else first x

/-- A body carried out for a command that keeps what it reads when it starts for as long as it waits. -/
def Chip.startCarry (c : Chip) (fc e : Nat) (x : EngCmd) (first : EngCmd → Rd (List Byte)) (body : EngCmd → Rd EngOut) : Chip :=
  let y := x.begun first (c.reader fc e x)
  match (body x).result (c.reader fc e x) with
  | .ok (out, reads) => c.commitCmd fc e y out reads
  | .error st => (c.setCmd fc e y).engineStop fc e y st

/-- A command that reads something once, when it starts. -/
def Chip.startRow (c : Chip) (fc e : Nat) (opcode : Option Nat) (known : List Nat) (ecc : Bool) (first : EngCmd → Rd (List Byte))
    (body : EngCmd → Rd EngOut) : Chip := c.onCommand fc e opcode known ecc (fun x => c.startCarry fc e x first body)

/-! Rows of the table for every engine. -/

/-- START_HANDLE_TAKE: the engine's next command takes the oldest handle of START_HQ, or waits (R206, R232). -/
def Chip.takeStart (c : Chip) (fc e : Nat) : Chip :=
  match ((c.core fc).engine e).current with
  | none => c
  | some x =>
    if x.startEn && x.phase = .queued && c.fcRuns fc then
      let q := x.field 5 1 % 128
      match c.hq fc q with
      | [] => c.stallEngine fc e .hqEmpty
      | h :: rest =>
        let y := { x with phase := .started, handle := some h.val, bytes := putB x.bytes 0x20 (leBytes 8 h.val.toNat) }
        let c1 := (c.setHq fc q rest).setCmd fc e y
        c1.setCore fc ((c1.core fc).setEngine e { (c1.core fc).engine e with wait := none })
    else c

/-- The oldest command leaves its engine; a slot that KILL stopped is free once its last command has gone (R170). -/
def Chip.dropHead (c : Chip) (fc e : Nat) (x : EngCmd) : Chip :=
  let k := c.core fc
  let g := k.engine e
  let k1 := k.setEngine e { g with queue := g.queue.tail, wait := if g.putWaits then none else g.wait }
  let s := k1.slot x.slot
  if s.stopped && !s.doubleFault && x.killed && !(k1.slotCommands x.slot) then c.setCore fc (k1.setSlot x.slot Slot.reset)
  else c.setCore fc k1

/-- ENGINE_COMMAND_COMPLETE: the oldest command has done its work and all its writes are performed everywhere (R137, R205). One that
KILL ended leaves without a DONE put (R231). -/
def Chip.completeCmd (c : Chip) (fc e : Nat) : Chip :=
  let k := c.core fc
  match (k.engine e).queue.head? with
  | none => c
  | some x =>
    if x.phase = .worked ∧ k.engineOutstanding e = false then
      if x.killed then c.dropHead fc e x
      else
        let c1 := c.setCore fc (k.count (0x20 + e) 1)
        if x.doneEn then c1.setCmd fc e { x with phase := .complete } else c1.dropHead fc e x
    else c

/-- DONE_HANDLE_PUT: the handle goes into DONE_HQ, or the engine waits for room (R207). -/
def Chip.putDone (c : Chip) (fc e : Nat) : Chip :=
  match ((c.core fc).engine e).queue.head? with
  | none => c
  | some x =>
    if x.phase = .complete then
      let q := x.field 4 1 % 128
      let h := match x.handle with
        | some v => if x.pass then v else x.addr 8
        | none => x.addr 8
      if c.hqRoom fc q then (c.hqAdd fc q h (some x.ctx)).dropHead fc e x else c.stallEngine fc e .hqFull
    else c

/-- START_HANDLE_TAKE (R206). -/
def execStartHandleTake (fc : BitVec 6) (engine : Nat) (s : State) : Host.Outcome State Fault Refusal :=
  s.runIf (engine < 6) (fun c => c.takeStart fc.toNat engine)

/-- ENGINE_COMMAND_COMPLETE (R137). -/
def execEngineCommandComplete (fc : BitVec 6) (engine : Nat) (s : State) : Host.Outcome State Fault Refusal :=
  s.runIf (engine < 6) (fun c => c.completeCmd fc.toNat engine)

/-- DONE_HANDLE_PUT (R207). -/
def execDoneHandlePut (fc : BitVec 6) (engine : Nat) (s : State) : Host.Outcome State Fault Refusal :=
  s.runIf (engine < 6) (fun c => c.putDone fc.toNat engine)

end Sys2Proof.Machine
end

