-- ==== Sys2Proof/Machine/Tensor.lean ====
section
/-! DEFINITION. Tensor descriptors and the addresses of their elements (R180 to R187, R197), and the Layout Copy Engine (R189 to
R203). -/

namespace Sys2Proof.Machine

/-- A tensor as its descriptor acts (R180, R184, R197): BASE and strides rounded to the alignment unit, TYPE, RANK 1 to 5, BCAST0, five
extents (1 for dimensions that do not exist) and five strides (dimension 0 and dimensions that do not exist have 0). -/
structure Tensor where
  base : Word
  ty : Nat
  rank : Nat
  bcast : Bool
  ext : List Nat
  stride : List Word
  deriving DecidableEq, Repr

/-- The alignment unit of a tensor (R183). -/
def alignUnit (base : Word) : Nat :=
  match rowOf (gaOff base) with
  | some .pool => 32
  | some .selfPool => 32
  | _ => 64

/-- A word rounded down to a multiple of a power of two (R184). -/
def roundDown (w : Word) (u : Nat) : Word := BitVec.ofNat 64 (w.toNat / u * u)

/-- The tensor of 64 descriptor bytes. -/
def tensorOf (b : List Byte) : Tensor :=
  let base := w64 (fieldB b 0 8)
  let u := alignUnit base
  let t := fieldB b 8 1 % 16
  let rank := clampNat 1 5 (fieldB b 9 1)
  { base := roundDown base u,
    ty := if t ≤ 12 then t else 2,
    rank := rank,
    bcast := fieldB b 10 1 % 2 = 1,
    ext := (List.range 5).map (fun d => if d < rank then fieldB b (0x0C + 4 * d) 4 else 1),
    stride := (List.range 5).map (fun d => if 0 < d ∧ d < rank then roundDown (w64 (fieldB b (0x20 + 8 * (d - 1)) 8)) u else 0) }

/-- Whether a tensor has no element (R197). -/
def Tensor.empty (t : Tensor) : Bool := t.ext.any (fun e => e = 0)

/-- All indices within extents, in the order of the linear index: dimension 0 fastest (R193). -/
def indices : List Nat → List (List Nat)
  | [] => [[]]
  | e :: t => (indices t).flatMap (fun r => (List.range e).map (fun i => i :: r))

/-- The start of the row of an index (R181): each addition wraps within bits [49:0]. -/
def Tensor.rowAddr (t : Tensor) (i : List Nat) : Word :=
  (List.zip i t.stride).foldl (fun a p => effAddr a (w64 p.1 * p.2)) t.base

/-- The byte of an element and its nibble (R181, R185). -/
def Tensor.elemAddr (t : Tensor) (i : List Nat) : Word × Nat :=
  let i0 := if t.bcast then 0 else i.headD 0
  if tyBits t.ty = 4 then (effAddr (t.rowAddr i) (w64 (i0 / 2)), i0 % 2)
  else (effAddr (t.rowAddr i) (w64 (i0 * tyBytes t.ty)), 0)

/-- The byte of its word at which a byte of a Pool lies (R187). -/
def poolByte (p : Nat) : Nat := p % 32
/-- The row of a Pool in which a byte lies (R187). -/
def poolRow (p : Nat) : Nat := p / 1024 % 1024
/-- The bank of a Pool in which a byte lies (R187). -/
def poolBank (p : Nat) : Nat := ((p / 32) ^^^ (p / 1024) ^^^ (p / 32768)) % 32

/-- The bytes of a descriptor in a core's own Pool (R189, R195, R342): bits [5:0] of its address are ignored. -/
def rdDesc (fc : Nat) (status code : Nat) (a : Word) : Rd (List Byte) := do
  let r ← read
  let d := roundDown a 64
  if r.chip.inOwnPool fc d 64 then rdBytes (Errs.same status code) d 64 else rdFail status code

/-- A descriptor in a core's own Pool. -/
def rdTensor (fc : Nat) (status code : Nat) (a : Word) : Rd Tensor := do return tensorOf (← rdDesc fc status code a)

/-- The bits of an element (R186, R192): engines read the whole 32-byte word that holds it. -/
def rdElem (er : Errs) (t : Tensor) (i : List Nat) : Rd Nat := do
  let (a, n) := t.elemAddr i
  let w ← rdBytes er (roundDown a 32) 32
  let v := fieldB w (a.toNat % 32) (tyBytes t.ty)
  return if tyBits t.ty = 4 then v / 2 ^ (4 * n) % 16 else v

/-- Writes that follow one another in one 64-byte line of one package are one write. -/
def joinWr : List Wr → List Wr
  | [] => []
  | w :: t =>
    match w, joinWr t with
    | .here o d, .here o2 d2 :: t2 => if o + d.length = o2 then .here o (d ++ d2) :: t2 else .here o d :: .here o2 d2 :: t2
    | .remote x p d, .remote y q d2 :: t2 =>
      if p = q ∧ x.off + d.length = y.off ∧ x.off / 64 = y.off / 64 then .remote x p (d ++ d2) :: t2
      else .remote x p d :: .remote y q d2 :: t2
    | w, r => w :: r

/-- What one destination element writes: its whole bytes, or of an I4 element its nibble, whose neighbour is 0 where the element is the
last of a row of odd length (R185, R202), and otherwise keeps what an earlier element or memory holds. With BCAST0 every element of a row
is in the byte of element 0, and there the 0 goes too (DESIGN CHOICE, log 18). -/
def wrElem (er : Errs) (t : Tensor) (i : List Nat) (v : Nat) (before : List (Word × Byte)) : Rd (List (Word × Byte)) := do
  let (a, n) := t.elemAddr i
  if tyBits t.ty = 4 then
    let e0 := t.ext.headD 1
    if n = 0 ∧ e0 % 2 = 1 ∧ i.headD 0 + 1 = e0 then return [(a, BitVec.ofNat 8 v)]
    else
      let old ← match before.find? (fun p => p.1 = a) with
        | some p => pure p.2.toNat
        | none => do pure (fieldB (← rdBytes er (roundDown a 32) 32) (a.toNat % 32) 1)
      return [(a, BitVec.ofNat 8 (if n = 0 then old / 16 * 16 + v else old % 16 + v * 16))]
  else return (leBytes (tyBytes t.ty) v).zipIdx.map (fun p => (effAddr a (w64 p.2), p.1))

/-! The Layout Copy Engine. -/

/-- Its errors (Table 3 of Tensor Layout). -/
def lceSrc : Errs := ⟨0x14, 0x01, 0x14, 0x03⟩
/-- Its errors (Table 3 of Tensor Layout). -/
def lceDst : Errs := ⟨0x14, 0x02, 0x14, 0x03⟩

/-- A list with one place replaced. -/
def setAt {α : Type} : List α → Nat → α → List α
  | [], _, _ => []
  | _ :: t, 0, v => v :: t
  | a :: t, n + 1, v => a :: setAt t n v

/-- The source index of a destination index (R191). -/
def lceIndex (perm rank : Nat) (i : List Nat) : List Nat :=
  (List.range rank).foldl (fun j d =>
    let k := perm / 2 ^ (3 * d) % 8
    if k < 5 then setAt j k (i.getD d 0) else j) [0, 0, 0, 0, 0]

/-- The bytes that an element names. -/
def Tensor.elemBytes (t : Tensor) (i : List Nat) : List Word :=
  (List.range (tyBytes t.ty)).map (fun k => effAddr (t.elemAddr i).1 (w64 k))

/-- The walk over destination indices, up to its first fault (R191 to R195), before which each element in linear-index order is written
(DESIGN CHOICE, log 18): the bytes to write, newest first, and the fault. An I4
element that must keep its neighbour looks at what the walk has written. -/
def lceWalk (src dst : Tensor) (perm : Nat) : List (List Nat) → List (Word × Byte) → Rd (List (Word × Byte) × Option Stop)
  | [], acc => pure (acc, none)
  | i :: t, acc => fun r l =>
    match (do
        let v ← rdElem lceSrc src (lceIndex perm dst.rank i)
        let b ← wrElem lceDst dst i v acc
        let _ ← wrBytes lceDst (dst.elemAddr i).1 (b.map (fun p => p.2))
        return b : Rd (List (Word × Byte))) r l with
    | .ok (b, k) => lceWalk src dst perm t (b.reverse ++ acc) r k
    | .error (.ask q) =>
      match lceWalk src dst perm t acc r l with
      | .error (.ask q2) => .error (.ask (q ++ q2))
      | _ => .error (.ask q)
    | .error (.wait w) => .error (.wait w)
    | .error e => .ok ((acc, some e), l)

/-- Bytes written one by one in their order, and joined. -/
def wrCells (er : Errs) (l : List (Word × Byte)) : Rd (List Wr) := do
  return joinWr ((← rdAll (fun p => wrBytes er p.1 [p.2]) l).flatten)

/-- The place of an address, for the comparison of footprints (R198). -/
def Reader.key (r : Reader) (a : Word) : Nat :=
  match r.chip.access r.own a 1 false with
  | some t => t.key
  | none => 0

/-- Both descriptors of a command, which the LCE reads when it starts (R190). -/
def lceStart (fc : Nat) (x : EngCmd) : Rd (List Byte) := do
  let src ← rdDesc fc 0x14 0x04 (x.addr 0x20)
  let dst ← rdDesc fc 0x14 0x04 (x.addr 0x28)
  return src ++ dst

/-- Whether an engine may write a byte: the union of overlapping footprints keeps what is write-protected (R124, R199). -/
def Reader.writable (r : Reader) (a : Word) : Bool := (r.chip.access r.own a 1 true).any (fun t => t.ty ≠ 2)

/-- LAYOUT_COPY (R189 to R203). Where the footprints share a byte, every byte of their union takes a free value (R199), but for source bytes
that nothing may write. The source's footprint is taken as the bytes that the walk reads (DESIGN CHOICE, log 18). -/
def lceBody (fc : Nat) (x : EngCmd) : Rd EngOut := do
  let ds ← x.atStart (lceStart fc)
  let src := tensorOf (ds.take 64)
  let dst0 := tensorOf (ds.drop 64)
  let dst := { dst0 with ty := src.ty }
  let perm := x.field 0x30 2
  if dst.empty then return EngOut.ofWrites []
  else
    let is := indices dst.ext
    let (cells, stop) ← lceWalk src dst perm is []
    let r ← read
    let from_ := is.flatMap (fun i => src.elemBytes (lceIndex perm dst.rank i))
    let to_ := is.flatMap (fun i => dst.elemBytes i)
    let keys := from_.map r.key
    if stop.isNone ∧ to_.any (fun a => keys.contains (r.key a)) then
      let union := ((from_ ++ to_).eraseDups).filter r.writable
      let free := union.zipIdx.map (fun p => (p.1, (Config.freeWord (r.chip.freeCtr + p.2)).setWidth 8))
      return { writes := ← wrCells lceDst free, effect := fun c => { c with freeCtr := c.freeCtr + union.length }, stop := none }
    else return { writes := ← wrCells lceDst cells.reverse, effect := id, stop := stop }

/-- LAYOUT_COPY: the LCE ignores OPCODE (R204). -/
def execLayoutCopy (fc : BitVec 6) (ecc : Bool) (s : State) : Host.Outcome State Fault Refusal :=
  s.run (fun c => c.startRow fc.toNat 4 none [] ecc (lceStart fc.toNat) (lceBody fc.toNat))

end Sys2Proof.Machine
end

