-- ==== Sys2Proof/Machine/Streams.lean ====
section
/-! DEFINITION. Block lists (R209 to R211) and the STREAM command of the Stream Unit with its Peloton form (R216 to R218, R227, R236,
R238, R239). -/

namespace Sys2Proof.Machine

/-- A block-list entry (Table 2 of the streams chapter): stride 0 means contiguous, else the bytes of a piece and the pitch of its
pieces. -/
structure Block where
  addr : Word
  len : Nat
  piece : Nat
  pitch : Nat
  bus : Bool
  zero : Bool
  deriving DecidableEq, Repr

/-- The entry of 16 bytes (R210). -/
def blockOf (b : List Byte) : Block :=
  let code := fieldB b 0x0C 2
  let flags := fieldB b 0x0E 2
  let piece := if code = 0 then 0 else 32 * 2 ^ (code / 4096)
  { addr := w64 (fieldB b 0 8), len := fieldB b 8 4, piece := piece, pitch := Nat.max 1 (code % 4096) * piece,
    bus := flags % 2 = 1, zero := flags / 2 % 2 = 1 }

/-- The address of a byte of an entry: within the package for a Global Address (R76). -/
def Block.at (b : Block) (o : Nat) : Word :=
  let d := if b.piece = 0 then o else o / b.piece * b.pitch + o % b.piece
  if b.bus then b.addr + w64 d else effAddr b.addr (w64 d)

/-- The contiguous runs of n bytes of an entry from byte o on. -/
def Block.runs (b : Block) : Nat → Nat → Nat → List (Word × Nat)
  | 0, _, _ => []
  | fuel + 1, o, n =>
    if n = 0 then []
    else
      let k := if b.piece = 0 then n else Nat.min n (b.piece - o % b.piece)
      (b.at o, k) :: b.runs fuel (o + k) (n - k)

/-- n bytes of an entry from byte o on, as a source (R211). -/
def Block.read (b : Block) (er : Errs) (port o n : Nat) : Rd (List Byte) :=
  if b.zero then pure (List.replicate n 0)
  else do
    let runs := b.runs (n / 32 + 2) o n
    return (← rdAll (fun p => if b.bus then rdBus port p.1.toNat p.2 else rdBytes er p.1 p.2) runs).flatten

/-- Data written to an entry from byte o on (R211). -/
def Block.write (b : Block) (er : Errs) (port o : Nat) (data : List Byte) : Rd (List Wr) := do
  let runs := b.runs (data.length / 32 + 2) o data.length
  let starts := runs.map (fun p => p.2) |>.foldl (fun a n => a ++ [a.getLastD 0 + n]) [0]
  return (← rdAll (fun p =>
    let d := (data.drop p.2).take p.1.2
    if b.bus then pure [.bus port p.1.1.toNat d] else wrBytes er p.1.1 d) (runs.zip starts)).flatten

/-- Entries of 16 bytes each, those of LENGTH 0 skipped (R209). -/
def blocksOf : Nat → List Byte → List Block
  | 0, _ => []
  | n + 1, b => (if fieldB b 8 4 = 0 then [] else [blockOf b]) ++ blocksOf n (b.drop 16)

/-- The n bytes of a source from stream byte o on: the entries follow one another (R216). -/
def readBlocks (er : Errs) (port : Nat) : List Block → Nat → Nat → Rd (List Byte)
  | [], _, _ => pure []
  | b :: t, o, n =>
    if n = 0 then pure []
    else if b.len ≤ o then readBlocks er port t (o - b.len) n
    else do
      let k := Nat.min n (b.len - o)
      return (← rdAll id [b.read er port o k, readBlocks er port t 0 (n - k)]).flatten

/-- The ranges that an entry names, of bytes that do not lie on the far side of a port. -/
def Block.ranges (b : Block) : List (Word × Nat) :=
  if b.bus ∨ b.zero then [] else b.runs (b.len / 32 + 2) 0 b.len

/-- The bytes of a whole list. -/
def blocksLen (l : List Block) : Nat := l.foldl (fun n b => n + b.len) 0

/-- Where a command or a unit finds its block list: address, entries, whether it lies on the far side of the port, and whether it is the
Request's own. -/
structure ListAt where
  addr : Word
  count : Nat
  bus : Bool
  own : Bool
  port : Nat
  deriving DecidableEq, Repr

/-- A Request's own block list (R35, R419). -/
def Ctx.list (x : Ctx) : ListAt :=
  { addr := roundDown (w64 (fieldB x.desc 0x18 8)) 16, count := Nat.min (fieldB x.desc 0x20 4) 65536,
    bus := !((fieldB x.desc 0x0B 1 / 2) % 2 = 1), own := true, port := x.port }

/-- The entries of a block list; BUS outside the Request's own is code 0x06 (R211). -/
def rdList (er : Errs) (l : ListAt) : Rd (List Block) := do
  let b ← if l.bus then rdBus l.port l.addr.toNat (16 * l.count) else rdBytes er l.addr (16 * l.count)
  let bs := blocksOf l.count b
  if !l.own && bs.any (fun x => x.bus) then rdFail 0x14 0x06 else return bs

/-! The Stream Unit. -/

/-- Its errors (Table 6 of the streams chapter). -/
def suList : Errs := Errs.same 0x10 0x01
/-- Its errors (Table 6 of the streams chapter). -/
def suSrc : Errs := ⟨0x14, 0x02, 0x14, 0x04⟩
/-- Its errors (Table 6 of the streams chapter). -/
def suDst : Errs := ⟨0x14, 0x03, 0x14, 0x04⟩
/-- Its errors (Table 6 of the streams chapter). -/
def suPool : Errs := Errs.same 0x14 0x05

/-- The block list of a STREAM command (Table 5). -/
def streamList (x : EngCmd) : Rd (List Block × Nat) := do
  let r ← read
  let q : Ctx := (r.chip.ctx x.ctx).getD
    { desc := [], port := 0, window := 0, arrival := 0, area := 0, digest := [], tag := 0, stages := [], drops := 0, ended := none,
      delivering := false, recordBytes := 0, seq := 0, cut := false, gone := false }
  let l : ListAt := if x.bit 0x2C 0 then q.list else
    { addr := roundDown (x.addr 0x20) 16, count := Nat.min (x.field 0x28 4) 65536, bus := false, own := false, port := q.port }
  return (← rdList suList l, q.port)

/-- The stream bytes of a command (R216). -/
def streamLen (out : Bool) (l : List Block) : Nat := blocksLen (l.filter (fun b => !(out && b.zero)))

/-- The writes of an OUT command for the stream bytes from o to o + data: each entry's part in order, a ZERO entry where its turn comes,
and at the end those that follow the last stream byte. -/
def outWrites (port o total : Nat) (data : List Byte) : List Block → Nat → Rd (List Wr)
  | [], _ => pure []
  | b :: t, z =>
    if b.zero then do
      let mine := o ≤ z ∧ (z < o + data.length ∨ o + data.length = total)
      let w ← if mine then b.write suDst port 0 (List.replicate b.len 0) else pure []
      return w ++ (← outWrites port o total data t z)
    else do
      let lo := Nat.max o z
      let hi := Nat.min (o + data.length) (z + b.len)
      let w ← if lo < hi then b.write suDst port (lo - z) ((data.drop (lo - o)).take (hi - lo)) else pure []
      return w ++ (← outWrites port o total data t (z + b.len))

/-- Bytes written to a core's own Pool from an offset on; offsets wrap within the Pool (R213). -/
def poolWrites (fc o : Nat) (data : List Byte) : List Wr :=
  let k := Nat.min data.length (poolSize - o % poolSize)
  [.here (poolBase + fc * poolSize + o % poolSize) (data.take k), .here (poolBase + fc * poolSize) (data.drop k)]

/-- Bytes of a core's own Pool from an offset on. -/
def poolBytes (c : Chip) (fc o n : Nat) : List Byte :=
  let k := Nat.min n (poolSize - o % poolSize)
  c.bytes (poolBase + fc * poolSize + o % poolSize) k ++ c.bytes (poolBase + fc * poolSize) (n - k)

/-- A DIRECT command (Table 5): the bytes land at, or come from, POOL_ADDR. -/
def streamDirect (fc : Nat) (x : EngCmd) (out : Bool) : Rd EngOut := do
  let (bs, port) ← streamList x
  let n := streamLen out bs
  let r ← read
  if n ≠ 0 ∧ r.chip.inPools (some fc) (x.addr 0x10) n = false then rdFail 0x14 0x05
  else if out then
    let data ← rdBytes suPool (x.addr 0x10) n
    return EngOut.ofWrites (← outWrites port 0 n data bs 0)
  else
    let data ← readBlocks suSrc port bs 0 n
    return EngOut.ofWrites (← wrBytes suPool (x.addr 0x10) data)

/-- How many slots the engine end may take now: free ones of an IN stream, handed-over ones of an OUT stream (R215, R216). -/
def Stream.engineSlots (t : Stream) : Nat :=
  if t.mode = 1 then (if t.out then t.filled else t.slots - t.filled)
  else
    let can := fun i => (if i % 2 = 0 then t.half0 else t.half1) = t.out
    if can t.head then (if can (t.head + 1) then 2 else 1) else 0

/-- One slot changes hands at the engine end (R217). -/
def Stream.pass1 (t : Stream) : Stream :=
  if t.mode = 1 then
    { t with head := (t.head + 1) % t.slots, filled := if t.out then t.filled - 1 else t.filled + 1,
             slotSeq := SMap.set t.slotSeq t.head t.seq, seq := t.seq + 1 }
  else
    { t with head := (t.head + 1) % 2, half0 := if t.head % 2 = 0 then !t.out else t.half0,
             half1 := if t.head % 2 = 1 then !t.out else t.half1, halfSeq := t.seq, seq := t.seq + 1 }

/-- n slots change hands. -/
def Stream.passN (t : Stream) : Nat → Stream
  | 0 => t
  | n + 1 => t.pass1.passN n

/-- The slot that the engine end reaches after k more. -/
def Stream.engineSlot (t : Stream) (k : Nat) : Nat := (t.head + k) % (if t.mode = 1 then t.slots else 2)

/-- A RING or PINGPONG command (R216): as many slots as can change hands now, from the slot that its first `done` have reached. -/
def streamRing (fc : Nat) (x : EngCmd) (t : Stream) : Rd EngOut := do
  let (bs, port) ← streamList x
  let total := streamLen t.out bs
  let sb := t.slotBytes
  let need := (total + sb - 1) / sb
  let done := x.sub.headD 0
  let n := Nat.min t.engineSlots (need - done)
  let r ← read
  let o := done * sb
  let len := Nat.min total ((done + n) * sb) - o
  let writes ←
    if t.out then
      let data := ((List.range n).flatMap (fun k => poolBytes r.chip fc (t.slotAt (t.engineSlot k)) sb)).take len
      if n = 0 ∧ need ≠ 0 then pure [] else outWrites port o total data bs 0
    else do
      let data := sliceB (← readBlocks suSrc port bs o len) 0 (n * sb)
      pure ((List.range n).flatMap (fun k => poolWrites fc (t.slotAt (t.engineSlot k)) ((data.drop (k * sb)).take sb)))
  return {
    writes := writes,
    effect := fun c =>
      let k := c.core fc
      let s := x.streamNum
      ((c.setCore fc (k.setStream s ((k.stream s).passN n))).setCmd fc 0 { x with sub := [done + n], prog := 0 }),
    stop := if done + n < need then some (.wait (if t.out then .ringEmpty else .ringFull)) else none }

/-- The Peloton member list: 8-byte Pool addresses at CHAIN (R227). -/
def rdChain (fc : Nat) (x : EngCmd) : Rd (List Word) := do
  let n := clampNat 1 63 (x.field 0x2D 1)
  let a := roundDown (x.addr 0x38) 8
  let r ← read
  if r.chip.inPools (some fc) a (8 * n) = false then rdFail 0x14 0x05
  else
    let b ← rdBytes suPool a (8 * n)
    return (List.range n).map (fun i => w64 (fieldB b (8 * i) 8))

/-- A Peloton command moves its table into every member, in list order (R227). The members' completions follow as commands of their
own. -/
def pelotonBody (fc : Nat) (x : EngCmd) : Rd EngOut := do
  let (bs, port) ← streamList x
  let ms ← rdChain fc x
  let n := blocksLen bs
  let r ← read
  if ms.any (fun a => r.chip.inPools (some fc) a (Nat.max 1 n) = false) then rdFail 0x14 0x05
  else
    let data ← readBlocks suSrc port bs 0 n
    return { writes := (← rdAll (fun a => wrBytes suPool a data) ms).flatten,
             effect := fun c => c.setCmd fc 0 { x with sub := 1 :: ms.map (fun a => c.localOff (some fc) a) },
             stop := some (.wait .islandCross) }

/-- Whether a Peloton command has moved its data and waits for its members. -/
def EngCmd.chained (x : EngCmd) : Bool := x.field 0 1 = 1 && x.bit 0x2C 1 && x.sub.length ≠ 0

/-- STREAM (R218): a list of no entry completes at once. -/
def execStream (fc : BitVec 6) (ecc : Bool) (s : State) : Host.Outcome State Fault Refusal :=
  s.run (fun c => c.onCommand fc.toNat 0 (some 1) [1, 2, 3] ecc (fun x =>
    let t := (c.core fc.toNat).stream x.streamNum
    let count := if x.bit 0x2C 0 then 1 else x.field 0x28 4
    if x.chained then c
    else if count = 0 ∧ x.bit 0x2C 1 = false then c.finishCmd fc.toNat 0 x
    else
      c.carry fc.toNat 0 x ((if x.bit 0x2C 1 then pelotonBody fc.toNat x else if t.mode = 0 then streamDirect fc.toNat x t.out
        else streamRing fc.toNat x t))))

/-- The next Peloton member holds the whole table: its handle is put, or waits for room; after the last the command is done (R227). -/
def Chip.pelotonMember (c : Chip) (fc : Nat) (x : EngCmd) : Chip :=
  let m := x.sub.headD 1
  let member := ((x.sub.getD m 0) - poolBase) / poolSize
  let q := x.field 0x2E 1 % 128
  if c.hqRoom member q then
    let c1 := c.hqAdd member q (x.addr 8) (some x.ctx)
    let y := { x with sub := setAt x.sub 0 (m + 1) }
    if m + 1 < x.sub.length then c1.setCmd fc 0 y else c1.finishCmd fc 0 y
  else c.stallEngine fc 0 .hqFull

/-- PELOTON_MEMBER_COMPLETE (R227). -/
def execPelotonMemberComplete (fc : BitVec 6) (s : State) : Host.Outcome State Fault Refusal :=
  s.run (fun c =>
    match ((c.core fc.toNat).engine 0).current with
    | none => c
    | some x => if x.chained && c.fcRuns fc.toNat then c.pelotonMember fc.toNat x else c)

end Sys2Proof.Machine
end

