-- ==== Sys2Proof/Machine/Exact.lean ====
section
/-! DEFINITION. Exact sums and quotients of floating-point data, rounded once (R262, R297). -/

namespace Sys2Proof.Machine

/-- The quotient num / den * 2^e rounded once (R93). -/
def roundRatio (f : Fmt) (neg : Bool) (num den : Nat) (e : Int) : Nat :=
  if num = 0 then f.signBit neg
  else
    let k := 2 * f.mb + 8 + bitLen den
    let n := num * 2 ^ k
    (roundTo f neg (2 * (n / den) + (if n % den = 0 then 0 else 1)) (e - k - 1)).1

/-- An exact sum: whether a NaN or an infinity of each sign went in, and the finite part num * 2^e. -/
structure XSum where
  nan : Bool
  pinf : Bool
  ninf : Bool
  num : Int
  e : Int
  deriving DecidableEq, Repr

/-- The empty sum. -/
def XSum.zero : XSum := { nan := false, pinf := false, ninf := false, num := 0, e := 0 }

/-- A datum added n times. -/
def XSum.add (s : XSum) (v : FVal) (n : Nat) : XSum :=
  if n = 0 then s
  else
    match v with
    | .nan _ => { s with nan := true }
    | .inf neg => if neg then { s with ninf := true } else { s with pinf := true }
    | .fin neg m e2 =>
      let e := if s.e ≤ e2 then s.e else e2
      let a := s.num * ((2 ^ (s.e - e).toNat : Nat) : Int)
      let b : Int := ((m * n * 2 ^ (e2 - e).toNat : Nat) : Int)
      { s with num := if neg then a - b else a + b, e := e }

/-- The sum of two sums. -/
def XSum.join (s t : XSum) : XSum :=
  let e := if s.e ≤ t.e then s.e else t.e
  { nan := s.nan || t.nan, pinf := s.pinf || t.pinf, ninf := s.ninf || t.ninf,
    num := s.num * ((2 ^ (s.e - e).toNat : Nat) : Int) + t.num * ((2 ^ (t.e - e).toNat : Nat) : Int), e := e }

/-- The sum divided by n, rounded once: an exact zero gives +0; any NaN, or infinities of both signs, give NaN (R262). -/
def XSum.round (f : Fmt) (s : XSum) (n : Nat) : Nat :=
  if s.nan || (s.pinf && s.ninf) then f.nanBits
  else if s.pinf then f.infBits
  else if s.ninf then f.signBit true + f.infBits
  else if s.num = 0 then 0
  else roundRatio f (s.num < 0) s.num.natAbs n s.e

/-- A datum rounded to a format; a NaN becomes canonical (R94). -/
def FVal.round (f : Fmt) : FVal → Nat
  | .nan _ => f.nanBits
  | .inf n => f.signBit n + f.infBits
  | .fin n m e => (roundTo f n m e).1

/-- An integer times a datum, exactly. -/
def FVal.scale (v : Int) : FVal → FVal
  | .nan s => .nan s
  | .inf n => if v = 0 then .nan false else .inf (n.xor (v < 0))
  | .fin n m e => .fin (n.xor (v < 0)) (m * v.natAbs) e

/-- The sign of a datum. -/
def FVal.negative : FVal → Bool
  | .nan _ => false
  | .inf n => n
  | .fin n _ _ => n

/-- The larger of two data under R92 FUNC 5: the other one when one is a NaN, -0 below +0. -/
def FVal.max (x y : FVal) : FVal :=
  if x.isNaN then y
  else if y.isNaN then x
  else if valLt x y || (valEq x y && x.negative && !y.negative) then y
  else x

end Sys2Proof.Machine
end

