-- ==== Sys2Proof/Machine/Embedding.lean ====
section
/-! DEFINITION. The Gather Engine: GATHER and BAG (R260 to R268, R277, R278), the hot set and migration (R271 to R275). -/

namespace Sys2Proof.Machine

/-! The commands. -/

/-- Errors of the Gather Engine (Table 6). -/
def geIndex : Errs := Errs.same 0x10 0x01
/-- Errors of the Gather Engine (Table 6). -/
def geOut : Errs := ⟨0x14, 0x03, 0x14, 0x04⟩

/-- An index of an array: none for missing, else its number (R266). -/
def indexOf (wide : Bool) (v : Nat) : Option Nat := if v = 2 ^ (if wide then 64 else 32) - 1 then none else some v

/-- The first offset of each block of 64 bytes among rising offsets: one transaction each (R264). -/
def lineStarts : List Nat → List Nat
  | [] => []
  | o :: t => o :: (lineStarts t).filter (fun q => q / 64 ≠ o / 64)

/-- A slice read of this package, answered from the row's place: a place outside Recipe-use HBM is error 0x02, and one in a Device
Strict region is 0x04. -/
def localSlice (t r s : Nat) : Rd (List Byte) := fun x l =>
  let offs := x.chip.placeOffsets t (x.chip.rowPlace t r) s
  if offs.any (fun o => rowOf o ≠ some .hbm) then .error (.fault 0x14 0x02)
  else if offs.any (fun o => (x.chip.regionOf o).1 = 2) then .error (.fault 0x14 0x04)
  else if x.room = false then .error (.wait .trackerFull)
  else
    match offs.findSome? (fun o => x.chip.homeWait { pkg := none, off := o, row := .hbm, ty := 0, wp := false }) with
    | some w => .error (.wait w)
    | none => .ok (offs.map (fun o => Mem.read x.chip.mem o), (lineStarts offs).reverse ++ l)

/-- A slice of another package: what has come, or the read to send. Its place lies there as it does here, where the registers agree, and one in a
Device Strict region is error 0x04 (R253, R265). -/
def remoteSlice (t r m p w s : Nat) (sibling : Bool) : Rd (List Byte) := rdOf fun x =>
  let tb := x.chip.table t
  match gotBytes x.got (sliceAt (sliceKey t r m w)) s with
  | some b => .ok b
  | none =>
    if (x.chip.placeOffsets t (tb.channel r, r / 96) s).any (fun o => (x.chip.regionOf o).1 = 2) then .error (.fault 0x14 0x04)
    else if x.chip.reachable p then .error (.ask [.slice t r m p w s sibling]) else .error (.dead p)

/-- The slice of member m of a row (R255, R264, R277, R278). -/
def rdSlice (t r m w : Nat) : Rd (List Byte) := do
  let x ← read
  let c := x.chip
  let tb := c.table t
  let s := tb.slice c.groupSize
  let g := c.gatherGroup tb
  match c.memberPkg tb g m with
  | .inr p => rdStop (.dead p)
  | .inl p =>
    if p = c.self then
      if c.poisoned t r then
        if tb.replicated ∧ 1 < c.pkgCount / c.groupSize then
          match c.memberPkg tb (g + 1) m with
          | .inr q => rdStop (.dead q)
          | .inl q => if q = c.self then rdFail 0x11 0x40 else remoteSlice t r m q w s true
        else rdFail 0x11 0x40
      else localSlice t r s
    else remoteSlice t r m p w s false

/-- A whole row: its members' slices in order (R254, R261). -/
def rdRow (t w r : Nat) : Rd (List Byte) := do
  let x ← read
  return (← rdAll (fun m => rdSlice t r m w) (List.range x.chip.groupSize)).flatten

/-- What a command names: each position with its window and its row, none where the index is invalid; the drops. -/
structure Positions where
  rows : List (Nat × Option Nat)
  missing : Nat
  range : Nat

/-- The positions of an index array, whether or not a bag covers them (R266 to R268). -/
def rdPositions (x : EngCmd) (rows : Nat) : Rd Positions := do
  let n := x.field 0x18 4
  let wide := x.bit 0x1D 0
  let w := if wide then 8 else 4
  let b ← rdBytes geIndex (x.addr 0x10) (n * w)
  let idx := (List.range n).map (fun i => (i, indexOf wide (fieldB b (i * w) w)))
  return { rows := idx.map (fun p => (p.1 / 4096, p.2.filter (fun r => r < rows))),
           missing := (idx.filter (fun p => p.2.isNone)).length,
           range := (idx.filter (fun p => p.2.any (fun r => rows ≤ r))).length }

/-- The distinct rows of each window (R268). -/
def Positions.keys (p : Positions) : List (Nat × Nat) :=
  (p.rows.filterMap (fun q => q.2.map (fun r => (q.1, r)))).eraseDups

/-- The bytes of a row among those read. -/
def rowBytes (l : List ((Nat × Nat) × List Byte)) (k : Nat × Nat) : List Byte :=
  match l.find? (fun p => p.1 = k) with
  | some p => p.2
  | none => []

/-- The value of column i of a row (R262). -/
def colValue (t : Table) (row : List Byte) (i : Nat) : FVal :=
  if t.ty = 0 then FVal.scale (signed 4 (fieldB row (i / 2) 1 / 2 ^ (4 * (i % 2)))) (unpack fp32 (bits t.scale 31 0))
  else if t.ty = 1 then FVal.scale (signed 8 (fieldB row i 1)) (unpack fp32 (bits t.scale 31 0))
  else unpack (if t.ty = 9 then fp16 else bf16) (fieldB row (2 * i) 2)

/-- The format of OUT_TYPE 1 to 3 (Table 4). -/
def outFmt (o : Nat) : Fmt := if o = 2 then bf16 else if o = 3 then fp16 else fp32

/-- Column values in an output format. -/
def packRow (f : Fmt) (l : List Nat) : List Byte := l.flatMap (fun v => leBytes (f.width / 8) v)

/-- Output rows written at their pitch; a byte that several rows name holds a free value (R261). -/
def wrRows (base : Word) (pitch : Nat) (rows : List (List Byte)) (ctr : Nat) : Rd (List Wr) := do
  let len := (rows.headD []).length
  let n := rows.length
  let covers := fun q => if pitch = 0 then n else Nat.min (n - 1) (q / pitch) + 1 - (if q < len then 0 else (q - len) / pitch + 1)
  let fix := fun (p : List Byte × Nat) => (p.1.zipIdx).map (fun b =>
    let q := p.2 * pitch + b.2
    if pitch < len ∧ 2 ≤ covers q then (Config.freeWord (ctr + q)).setWidth 8 else b.1)
  return (← rdAll (fun p => wrBytes geOut (effAddr base (w64 (p.2 * pitch))) (fix p)) rows.zipIdx).flatten

/-- Bits as bytes, bit 0 first. -/
def packBits : Nat → List Bool → List Byte
  | 0, _ => []
  | n + 1, l => byteOfBits (l.take 8) :: packBits n (l.drop 8)

/-- The rows of this package that a command of a core of die d has read, counted. One that is poisoned was counted when its read was named. -/
def Chip.countServed (c : Chip) (t d : Nat) (served : List (Nat × Nat)) : Chip :=
  served.foldl (fun c k => if c.poisoned t k.2 then c else c.countSlice t k.2 d) c

/-- The effect of a command besides its writes: slice reads of this package counted, drops counted, and the mask kept for the second
part of the command, which writes it after every output row (R263, R267, R270). -/
def gatherEffect (fc : Nat) (x : EngCmd) (t : Nat) (p : Positions) (served : List (Nat × Nat)) (mask : List Bool) (free : Nat) (c : Chip) :
    Chip :=
  let c0 := { c with freeCtr := c.freeCtr + free }
  let c1 := c0.countServed t (fc / 32) served
  let tb := c1.table t
  let c2 := c1.setTable t { tb with dropMissing := tb.dropMissing + w64 p.missing, dropOor := tb.dropOor + w64 p.range }
  let c3 := match c2.ctx x.ctx with
    | none => c2
    | some q => c2.setCtx x.ctx { q with drops := q.drops + p.missing + p.range }
  if x.addr 0x38 = 0 then c3
  else c3.setCmd fc 1 { x with prog := 0, sub := 1 :: (packBits ((mask.length + 7) / 8) mask).map (fun b => b.toNat) }

/-- The rows of this package that a command read itself. -/
def ownKeys (c : Chip) (t : Table) (keys : List (Nat × Nat)) : List (Nat × Nat) :=
  let g := c.gatherGroup t
  if (List.range c.groupSize).any (fun m => match c.memberPkg t g m with | .inl p => p = c.self | .inr _ => false) then keys else []

/-- Whether a poisoned row of this package ends the command that names it: no other replica serves it (R277). -/
def Chip.poisonEnds (c : Chip) (t r : Nat) : Bool :=
  let tb := c.table t
  let m := c.rank c.self % c.groupSize
  c.poisoned t r &&
    (!(tb.replicated && 1 < c.pkgCount / c.groupSize) || (c.memberPkg tb (c.gatherGroup tb + 1) m == Sum.inl c.self))

/-- The rows of a command, read; one of this package that is poisoned for good ends it, after the reads before it (R258, R277). -/
def rdRows (fc t : Nat) (p : Positions) : Rd (List ((Nat × Nat) × List Byte) ⊕ EngOut) := do
  let c := (← read).chip
  let own := ownKeys c (c.table t) p.keys
  match own.find? (fun k => c.poisonEnds t k.2) with
  | some k =>
    return .inr { writes := [], stop := some (.fault 0x11 0x40),
                  effect := fun c => (c.countServed t (fc / 32) (own.takeWhile (fun q => q ≠ k))).countPoison t k.2 }
  | none => return .inl (← rdAll (fun k => do return (k, ← rdRow t k.1 k.2)) p.keys)

/-- The output of a command, its mask and its effect. -/
def gatherOut (fc : Nat) (x : EngCmd) (t : Nat) (p : Positions) (rows : List (List Byte)) (mask : List Bool) : Rd EngOut := do
  let r ← read
  let c := r.chip
  let pitch := x.field 0x28 4
  let len := (rows.headD []).length
  let free := if pitch < len ∧ 1 < rows.length then (rows.length - 1) * pitch + len else 0
  return { writes := ← wrRows (x.addr 0x20) pitch rows c.freeCtr,
           effect := gatherEffect fc x t p (ownKeys c (c.table t) p.keys) mask free,
           stop := if x.addr 0x38 = 0 then none else some .again }

/-- GATHER (R261, R262, R267). -/
def gatherBody (fc : Nat) (x : EngCmd) : Rd EngOut := do
  let r ← read
  let t := x.field 0x1C 1 % 64
  let tb := r.chip.table t
  if r.chip.pkgCount % r.chip.groupSize ≠ 0 then rdFail 0x14 0x02
  else if x.field 0x18 4 = 0 then return EngOut.ofWrites []
  else if r.chip.tableOk tb = false then rdFail 0x14 0x02
  else
    let p ← rdPositions x tb.rowCount
    match ← rdRows fc t p with
    | .inr out => return out
    | .inl got =>
      let o := x.field 0x1F 1
      let f := outFmt o
      let len := if o = 0 then tb.columns * tyBits tb.ty / 8 else tb.columns * (f.width / 8)
      let row := fun (q : Nat × Option Nat) =>
        match q.2 with
        | none => List.replicate len 0
        | some i =>
          let b := rowBytes got (q.1, i)
          if o = 0 then b else packRow f ((List.range tb.columns).map (fun k => (colValue tb b k).round f))
      gatherOut fc x t p (p.rows.map row) (p.rows.map (fun q => q.2.isSome))

/-- One column of a bag (Table 5): POOL_OP 1 MEAN, 2 MAX, else SUM. -/
def bagCol (f : Fmt) (op : Nat) (vals : List FVal) : Nat :=
  match vals with
  | [] => 0
  | v :: t =>
    if op = 2 then (t.foldl FVal.max v).round f
    else (vals.foldl (fun s x => s.add x 1) XSum.zero).round f (if op = 1 then vals.length else 1)

/-- BAG (R261, R262, R267). -/
def bagBody (fc : Nat) (x : EngCmd) : Rd EngOut := do
  let r ← read
  let t := x.field 0x1C 1 % 64
  let tb := r.chip.table t
  let n := x.field 0x18 4
  if r.chip.pkgCount % r.chip.groupSize ≠ 0 then rdFail 0x14 0x02
  else if n = 0 then return EngOut.ofWrites []
  else if r.chip.tableOk tb = false then rdFail 0x14 0x02
  else
    let bags := x.field 0x2C 4
    let ob ← rdBytes geIndex (x.addr 0x30) (4 * (bags + 1))
    let off := fun i => Nat.min n (fieldB ob (4 * i) 4)
    let p ← rdPositions x tb.rowCount
    match ← rdRows fc t p with
    | .inr out => return out
    | .inl got =>
      let f := outFmt (x.field 0x1F 1)
      let bag := fun b =>
        let qs := ((p.rows.drop (off b)).take (off (b + 1) - off b)).filterMap (fun q => q.2.map (fun i => rowBytes got (q.1, i)))
        (packRow f ((List.range tb.columns).map (fun k => bagCol f (x.field 0x1E 1) (qs.map (fun b => colValue tb b k)))), !qs.isEmpty)
      let out := (List.range bags).map bag
      gatherOut fc x t p (out.map (fun q => q.1)) (out.map (fun q => q.2))

/-- The second part of a command: its mask (R263). -/
def maskBody (x : EngCmd) : Rd EngOut := do
  return EngOut.ofWrites (← wrBytes geOut (x.addr 0x38) (x.sub.tail.map (fun n => BitVec.ofNat 8 n)))

/-- A Gather Engine command: its output, and then its mask, once every output row is written (R263). -/
def Chip.gatherRun (c : Chip) (fc : Nat) (x : EngCmd) (body : EngCmd → Rd EngOut) : Chip :=
  let c1 := if x.sub = [] then c.carry fc 1 x (body x) else c
  match ((c1.core fc).engine 1).current with
  | none => c1
  | some y =>
    if y.seq = x.seq ∧ y.sub ≠ [] then
      (if (c1.core fc).engineOutstanding 1 then c1.stallEngine fc 1 .lateRemote else c1.carry fc 1 y (maskBody y))
    else c1

/-- The rows of this package that a command reads and that are not poisoned. -/
def Chip.cleanRows (c : Chip) (fc : Nat) (x : EngCmd) : List Nat :=
  let t := x.field 0x1C 1 % 64
  let tb := c.table t
  match (rdPositions x tb.rowCount).value (c.reader fc 1 x) with
  | .error _ => []
  | .ok p => if c.tableOk tb then ((ownKeys c tb p.keys).filter (fun k => !c.poisoned t k.2)).map (fun k => k.2) else []

/-- A row of the table for the Gather Engine. An uncorrectable error lies in the first row that this package serves itself: in its Hot
Row Cache entry, and the command goes on (R276), or in HBM, and the row is poisoned and the Request ends (R277). -/
def Chip.gatherRow (c : Chip) (fc opcode : Nat) (ecc : Bool) (body : EngCmd → Rd EngOut) : Chip :=
  c.onCommand fc 1 (some opcode) [1, 2] false (fun x =>
    if ecc then
      let t := x.field 0x1C 1 % 64
      match c.cleanRows fc x with
      | [] => c.failCmd fc 1 x 0x11 0x40
      | r :: _ =>
        if c.hotRow t r (fc / 32) then (c.hotError t r (fc / 32)).gatherRun fc x body
        else ((c.countSlice t r (fc / 32)).poisonRow t r).failCmd fc 1 x 0x11 0x40
    else c.gatherRun fc x body)

/-- GATHER (R261). -/
def execGather (fc : BitVec 6) (ecc : Bool) (s : State) : Host.Outcome State Fault Refusal :=
  s.run (fun c => c.gatherRow fc.toNat 1 ecc (gatherBody fc.toNat))

/-- BAG (R261). -/
def execBag (fc : BitVec 6) (ecc : Bool) (s : State) : Host.Outcome State Fault Refusal :=
  s.run (fun c => c.gatherRow fc.toNat 2 ecc (bagBody fc.toNat))

/-! The measurement epoch. -/

/-- Insertion into a list of tracked rows, hottest first, ties by table and row (R271). -/
def insertTrack (x : Track) : List Track → List Track
  | [] => [x]
  | y :: t => if y.count < x.count ∨ (y.count = x.count ∧ x.before y = true) then x :: y :: t else y :: insertTrack x t

/-- Tracked rows, hottest first. -/
def sortTracks (l : List Track) : List Track := l.foldr insertTrack []

/-- Rows taken in order until the space is filled (R271). -/
def fillHot (c : Chip) : Nat → List Track → List (Nat × Nat)
  | _, [] => []
  | space, x :: t =>
    let n := roundUp ((c.table x.table).slice c.groupSize) 64
    if n ≤ space then (x.table, x.row) :: fillHot c (space - n) t else []

/-- The hot set (R271). -/
def Chip.hotSet (c : Chip) (l : List Track) : List (Nat × Nat) :=
  fillHot c (Nat.min 32 (bits c.emb.ctrl 41 36) * 2 ^ 20)
    (l.filter (fun x => bit (c.table x.table).cfg 61 && (c.table x.table).threshold ≤ x.count))

/-- The lowest free spare slot of a table on a channel, if there is one (R256, R275). -/
def Chip.freeSpare (c : Chip) (t ch : Nat) : Option Nat :=
  let tb := c.table t
  let p := (tb.rowCount + 95) / 96
  ((List.range (bits tb.spare 16 0)).find? (fun i => (t, ch, p + i) ∉ c.emb.usedSpare)).map (fun i => p + i)

/-- The least-loaded of some channels, the lower on a tie (R273). -/
def coolest (load : SMap Nat) (chs : List Nat) : Option Nat :=
  chs.foldl (fun best ch => match best with
    | none => some ch
    | some b => if SMap.get 0 load ch < SMap.get 0 load b then some ch else some b) none

/-- One row picked for migration (R273, R275): its move begins, or migration of its table stops. -/
def Chip.pickMove (c : Chip) (x : Track) (load : SMap Nat) : Chip × SMap Nat × Bool :=
  let known := c.emb.remap.any (fun m => m.table = x.table ∧ m.row = x.row)
  let new := (c.emb.moves.filter (fun m => !(c.emb.remap.any (fun q => q.table = m.table ∧ q.row = m.row)))).length
  let spare := fun ch => (c.freeSpare x.table ch).map (fun p => (ch, p))
  match (coolest load ((List.range 96).filter (fun ch => (c.freeSpare x.table ch).isSome))).bind spare with
  | none => ({ c with emb := { c.emb with stopped := x.table :: c.emb.stopped } }, load, false)
  | some (ch, p) =>
    if known = false ∧ 65536 ≤ c.emb.remap.length + new then
      ({ c with emb := { c.emb with stopped := x.table :: c.emb.stopped } }, load, false)
    else
      let src := (c.rowPlace x.table x.row).1
      let load1 := SMap.set load src (SMap.get 0 load src - x.count)
      ({ c with emb := { c.emb with
          moves := c.emb.moves ++ [{ table := x.table, row := x.row, channel := ch, place := p }],
          usedSpare := (x.table, ch, p) :: c.emb.usedSpare } },
       SMap.set load1 ch (SMap.get 0 load1 ch + x.count), true)

/-- Rows picked one after another, up to MIGR_BATCH (R273). -/
def pickMoves (sources : List Nat) (hot : List (Nat × Nat)) : List Track → Nat → Chip → SMap Nat → Chip
  | [], _, c, _ => c
  | x :: t, n, c, load =>
    if n = 0 then c
    else if bit (c.table x.table).cfg 60 && (c.rowPlace x.table x.row).1 ∈ sources && (x.table, x.row) ∉ hot && x.table ∉ c.emb.stopped &&
        !(c.emb.moves.any (fun m => m.table = x.table ∧ m.row = x.row)) then
      let r := c.pickMove x load
      pickMoves sources hot t (if r.2.2 then n - 1 else n) r.1 r.2.1
    else pickMoves sources hot t n c load

/-- The end of a measurement epoch (R271, R273). -/
def Chip.measEnd (c : Chip) : Chip :=
  if !c.measuring then c
  else
    let rows := sortTracks c.emb.tracker
    let hot := c.hotSet rows
    let load := c.emb.load
    let total := (List.range 96).foldl (fun n ch => n + SMap.get 0 load ch) 0
    let ratio := bits c.emb.ctrl 31 24
    let sources := if ratio = 0 then [] else (List.range 96).filter (fun ch => total * (64 + ratio) < SMap.get 0 load ch * 96 * 64)
    let c1 := { c with emb := { c.emb with
      hot := hot, hotBad := [], tracker := [], load := [], shload := load.map (fun p => (p.1, w64 p.2)) } }
    pickMoves sources hot rows (bits c.emb.ctrl 23 16) c1 load

/-- MEAS_EPOCH_END (R271, R273). -/
def execMeasEpochEnd (s : State) : Host.Outcome State Fault Refusal := s.run (fun c => c.measEnd)

/-- The oldest move commits (R274, R275): the slice is in its new slot, the Remap Directory names it, and a spare slot that the row
leaves is free. -/
def Chip.commitMove (c : Chip) : Chip :=
  match c.emb.moves with
  | [] => c
  | m :: rest =>
    let tb := c.table m.table
    let s := tb.slice c.groupSize
    let from_ := c.placeOffsets m.table (c.rowPlace m.table m.row) s
    let to_ := c.placeOffsets m.table (m.channel, m.place) s
    let old := c.emb.remap.find? (fun x => x.table = m.table ∧ x.row = m.row)
    let c1 := c.put (to_.zip (from_.map (fun o => Mem.read c.mem o)))
    let c2 := c1.setTable m.table { tb with version := tb.version + 1 }
    { c2 with emb := { c2.emb with
        moves := rest,
        remap := m :: c2.emb.remap.filter (fun x => ¬ (x.table = m.table ∧ x.row = m.row)),
        usedSpare := match old with
          | none => c2.emb.usedSpare
          | some o => c2.emb.usedSpare.filter (fun u => u ≠ (o.table, o.channel, o.place)) } }

/-- MIGRATION_COMMIT (R274). -/
def execMigrationCommit (s : State) : Host.Outcome State Fault Refusal := s.run (fun c => c.commitMove)

end Sys2Proof.Machine
end

