-- ==== Sys2Proof/Machine/HashTable.lean ====
section
/-! DEFINITION. Hash tables (R288, R289, R337): the header, where the slots lie, and what KILL leaves of a voxel hash (R352). -/

namespace Sys2Proof.Machine

/-- A key length field: 0 acts as 1, above 32 as 32. -/
def keyLen (b : Nat) : Nat := clampNat 1 32 (b % 64)

/-- A Hash Table Header (Table 3). -/
structure HtHeader where
  base : Word
  log2 : Nat
  crc : Bool
  keyOff : Nat
  keyLen : Nat
  pitch : Nat
  poolSlots : Nat
  rows : Nat
  slotBase : Word
  spillBase : Word
  buildAddr : Word
  seed : Word
  occupied : Nat
  deriving DecidableEq, Repr

/-- The header of 64 bytes at an address. -/
def headerOf (a : Word) (b : List Byte) : HtHeader :=
  { base := a, log2 := clampNat 4 20 (fieldB b 0 1), crc := fieldB b 1 1 % 2 = 1, keyOff := fieldB b 2 1,
    keyLen := Machine.keyLen (fieldB b 3 1), pitch := fieldB b 4 2, poolSlots := fieldB b 8 4, rows := fieldB b 0x0C 4,
    slotBase := roundDown (w64 (fieldB b 0x10 8)) 8, spillBase := roundDown (w64 (fieldB b 0x18 8)) 8,
    buildAddr := w64 (fieldB b 0x20 8), seed := w64 (fieldB b 0x28 8), occupied := fieldB b 0x30 4 }

/-- The slots of a table. -/
def HtHeader.size (h : HtHeader) : Nat := 2 ^ h.log2

/-- The address of slot j (R288). -/
def HtHeader.slotAddr (h : HtHeader) (j : Nat) : Word :=
  if j < h.poolSlots then effAddr h.slotBase (w64 (8 * j)) else effAddr h.spillBase (w64 (8 * (j - h.poolSlots)))

/-- The ranges that hold a hash table's slots. -/
def HtHeader.ranges (h : HtHeader) : List (Word × Nat) :=
  let n := Nat.min h.poolSlots h.size
  [(h.slotBase, 8 * n), (h.spillBase, 8 * (h.size - n))]

/-- Whether SLOT_BASE and the Pool part of the slots lie in this core's Pool (R288, R289, R347). -/
def HtHeader.inPool (h : HtHeader) (c : Chip) (fc : Nat) : Bool := c.inOwnPool fc h.slotBase (Nat.max 1 (8 * Nat.min h.poolSlots h.size))

/-- The fields of a header that the Matrix Tile reads (R337). -/
def HtHeader.read (h : HtHeader) : List (Word × Nat) := [(h.base, 1), (effAddr h.base 8, 4), (effAddr h.base 0x10, 16)]

/-- The voxel hash of a command that the Matrix Tile has begun: VOXELISE and RULES name one. -/
def Chip.voxelHashOf (c : Chip) (fc : Nat) (x : EngCmd) : Option HtHeader :=
  let a := roundDown (x.addr (if x.field 0 1 = 2 then 0x18 else 0x10)) 64
  if x.seen.isNone || !(x.field 0 1 = 2 || x.field 0 1 = 3) || !(c.inOwnPool fc a 64) then none
  else
    let h := headerOf a (c.bytes (c.localOff (some fc) a) 64)
    if h.inPool c fc then some h else none

/-- The bytes of this package that hold a voxel hash; slots that lie in another package stay as they are there. -/
def Chip.hashBytes (c : Chip) (fc : Nat) (h : HtHeader) : List Nat :=
  h.ranges.flatMap (fun p => (List.range p.2).filterMap (fun i =>
    match c.access (some fc) (effAddr p.1 (w64 i)) 1 true with
    | some t => if t.pkg = none then some t.off else none
    | none => none))

/-- The bytes of the voxel hashes whose commands a KILL of a Request stops (R352). -/
def Chip.killedHash (c : Chip) (ctx : Nat) : List Nat :=
  ((List.range 64).flatMap (fun fc =>
    match ((c.core fc).engine 5).inWork with
    | some x => if x.ctx = ctx then (match c.voxelHashOf fc x with | some h => c.hashBytes fc h | none => []) else []
    | none => [])).eraseDups

/-- A voxel hash whose command KILL stops holds free values (R352). -/
def Chip.spoilHash (c : Chip) (ctx : Nat) : Chip :=
  let offs := c.killedHash ctx
  { c.put (offs.zipIdx.map (fun p => (p.1, (Config.freeWord (c.freeCtr + p.2)).setWidth 8))) with freeCtr := c.freeCtr + offs.length }

end Sys2Proof.Machine
end

