-- ==== Sys2Proof/Machine/Collect.lean ====
section
/-! DEFINITION. Collectives (R297 to R299, R308, R320 to R322, R326, R474, R475): chunks and the fixed tree, the root, and what reaches
the participants; KILL (R170) and Double Fault service (R168), which end a Request's part in them. -/

namespace Sys2Proof.Machine

/-! Chunks. -/

/-- The bytes of a value: 4 for FP32, else 8. -/
def Chunk.width (k : Chunk) : Nat := if k.hist = false ∧ k.ty = 11 ∧ k.op ≠ 1 then 4 else 8

/-- The bytes of a value of a reduction (R296): 8 of U64 for COUNT. -/
def aggBytes (op ty : Nat) : Nat := if op = 1 then 8 else tyBytes ty

/-- Two values combined by AGG_OP (R297): 0 SUM, 1 COUNT, 2 MIN, 3 MAX, others SUM. -/
def aggVal (op ty a b : Nat) : Nat :=
  if op = 1 then (a + b) % 2 ^ 64
  else
    match tyFmt ty with
    | some f => if op = 2 then (fMinMax f false a b).1 else if op = 3 then (fMinMax f true a b).1 else (fAdd f a b).1
    | none =>
      if op = 2 then (if tyVal ty a ≤ tyVal ty b then a else b)
      else if op = 3 then (if tyVal ty a ≤ tyVal ty b then b else a)
      else (a + b) % 2 ^ 64

/-- Two chunks of sibling nodes combined element by element, an absent element passing the other on (R98, R474). -/
def Chunk.combine (a b : Chunk) : Chunk :=
  { a with
    level := a.level + 1, node := a.node / 2, presence := a.presence ||| b.presence,
    values := (a.values.zip b.values).zipIdx.map (fun p =>
      if a.presence.getLsbD p.2 && b.presence.getLsbD p.2 then (if a.hist then (p.1.1 + p.1.2) % 2 ^ 64 else aggVal a.op a.ty p.1.1 p.1.2)
      else if a.presence.getLsbD p.2 then p.1.1 else p.1.2) }

/-- Whether two chunks are siblings of one node (R474, R494). -/
def Chunk.sibling (a b : Chunk) : Bool := a.level < 31 && a.chunk = b.chunk && a.level = b.level && a.node ≠ b.node && a.node / 2 = b.node / 2

/-- The nodes of a level of the tree over n leaves. -/
def treeNodes (n level : Nat) : Nat := (n + 2 ^ level - 1) / 2 ^ level

/-- A chunk joins those that wait at the root: siblings combine, and the last node of a level that has no sibling rises alone (R98). -/
def climb : Nat → Chunk → List Chunk → List Chunk
  | 0, k, l => k :: l
  | fuel + 1, k, l =>
    let n := treeNodes k.count k.level
    if n ≤ 1 then k :: l
    else if k.node % 2 = 0 ∧ k.node + 1 = n then climb fuel { k with level := k.level + 1, node := k.node / 2 } l
    else
      match l.find? (fun x => k.sibling x) with
      | none => k :: l
      | some x =>
        climb fuel (if k.node % 2 = 0 then k.combine x else x.combine k) (l.filter (fun y => !(k.sibling y)))

/-- The leaves that a chunk covers. -/
def Chunk.leafCount (k : Chunk) : Nat := Nat.min k.count ((k.node + 1) * 2 ^ k.level) - k.node * 2 ^ k.level

/-- A chunk that covers the whole tree. -/
def Chunk.top (k : Chunk) : Bool := treeNodes k.count k.level ≤ 1

/-! Messages of collectives. -/

/-- ADDR of a collective: its name and its root (Table 1 of the network chapter). -/
def collAddr (name root : Nat) : Word := w64 (name % 2 ^ 32 + root % 4096 * 2 ^ 32)
/-- The name in an ADDR. -/
def Msg.name (m : Msg) : Nat := bits m.addr 31 0
/-- The root in an ADDR. -/
def Msg.root (m : Msg) : Nat := bits m.addr 43 32

/-- The message of a chunk. AGG_OP and VAL_TYPE stand in CAUSE, which the spec uses in REFUSE alone. -/
def Chip.chunkMsg (c : Chip) (name root ctx : Nat) (k : Chunk) : Msg :=
  { c.blankMsg (if k.hist then 0x22 else 0x21) root with
    addr := collAddr name root, txn := BitVec.ofNat 16 k.chunk, cause := BitVec.ofNat 8 (k.op + 16 * k.ty),
    position := w64 (k.presence.toNat + k.level * 2 ^ 16 + k.node * 2 ^ 32 + k.count * 2 ^ 48), ctx := BitVec.ofNat 32 ctx,
    data := sliceB (k.values.flatMap (fun v => leBytes k.width v)) 0 64 }

/-- The chunk of a message. -/
def chunkOf (m : Msg) : Chunk :=
  let k : Chunk :=
    { hist := m.mtype = 0x22, op := m.cause.toNat % 16, ty := m.cause.toNat / 16, chunk := m.txn.toNat, level := bits m.position 20 16,
      node := bits m.position 47 32, count := Nat.max 1 (bits m.position 63 48), presence := BitVec.ofNat 16 (bits m.position 15 0),
      values := [] }
  { k with values := (List.range (64 / k.width)).map (fun i => fieldB m.data (i * k.width) k.width) }

/-- A JOIN (R475): participant, package, participants, and the fields that must agree. CAUSE tells a selection from a reduction. -/
def Chip.joinMsg (c : Chip) (hist : Bool) (name root ctx : Nat) (j : Joiner) : Msg :=
  { c.blankMsg 0x23 root with
    addr := collAddr name root, cause := if hist then 1 else 0, ctx := BitVec.ofNat 32 ctx,
    data := leBytes 2 j.part ++ leBytes 2 j.pkg ++ leBytes 4 j.count ++ j.fields.flatMap (fun v => leBytes 8 v) }

/-- The participant of a JOIN. -/
def joinerOf (m : Msg) : Joiner :=
  { part := fieldB m.data 0 2, pkg := fieldB m.data 2 2, count := fieldB m.data 4 4,
    fields := (List.range ((m.data.length - 8) / 8)).map (fun i => fieldB m.data (8 + 8 * i) 8) }

/-- The list of a participant of a selection (R320), which no router combines: a HIST of LEVEL 31. -/
def Chip.listMsg (c : Chip) (name root ctx part : Nat) (l : List Nat) : Msg :=
  { c.blankMsg 0x22 root with
    addr := collAddr name root, position := w64 (31 * 2 ^ 16 + part % 2 ^ 16 * 2 ^ 32), ctx := BitVec.ofNat 32 ctx,
    data := l.flatMap (fun v => leBytes 8 v) }

/-- Whether a HIST carries a list. -/
def Msg.isList (m : Msg) : Bool := m.mtype = 0x22 && bits m.position 20 16 = 31

/-- A RESULT (R475, R480): CAUSE is 0 or an error code, POSITION the kind (0 reduction, 1 selection, 2 all-to-all) and from bit 16 on the
pass. -/
def Chip.resultMsg (c : Chip) (dest name root kind pass code : Nat) (data : List Byte) : Msg :=
  { c.blankMsg 0x24 dest with
    addr := collAddr name root, cause := BitVec.ofNat 8 code, position := w64 (kind + pass * 2 ^ 16), data := data }

/-- A REFUSE of a collective that has ended (R473). -/
def Chip.endedMsg (c : Chip) (dest name root kind : Nat) : Msg :=
  { c.blankMsg 0x1F dest with addr := collAddr name root, cause := 3, position := w64 kind }

/-! The participants of this package. -/

/-- The command of an engine that has joined a collective: its scratch numbers begin with 1, the root and the name. -/
def Chip.joined (c : Chip) (fc e root name : Nat) : Option EngCmd :=
  match ((c.core fc).engine e).current with
  | some x => if x.sub.take 3 = [1, root, name] then some x else none
  | none => none

/-- The engine of a kind of collective: the Hash-Join Unit, the Select Unit. -/
def collEngine (kind : Nat) : Nat := if kind = 0 then 2 else 3

/-- A command that has no part in its collective any more. -/
def EngCmd.apart (x : EngCmd) : EngCmd := { x with killed := true, sub := [2, 0, 0, 63] }

/-- A command whose operation a lost package or an ended collective settles (R141, R473, R485). -/
def Chip.lostCmd (c : Chip) (fc e : Nat) (x : EngCmd) (pkg : Nat) : Chip :=
  (c.setCmd fc e x.apart).endReq x.ctx 0x15 (detailRemote pkg false)

/-- A collective has ended without result: every participant here ends with ABORT_REMOTE (R308, R326, R473). -/
def Chip.collLost (c : Chip) (kind root name pkg : Nat) : Chip :=
  (List.range 64).foldl (fun c fc =>
    match c.joined fc (collEngine kind) root name with
    | some x => c.lostCmd fc (collEngine kind) x pkg
    | none => c) c

/-- One participant of this package takes a RESULT: an error ends its Request, a reduction is done, a selection keeps the merged counts
of its pass, or is done after its last pass, 63. -/
def Chip.resultFor (c : Chip) (fc kind pass code : Nat) (data : List Byte) (x : EngCmd) : Chip :=
  let e := collEngine kind
  if code ≠ 0 then c.failCmd fc e x.apart 0x14 code
  else if kind = 0 ∨ pass = 63 then c.finishCmd fc e x
  else if x.sub.getD 3 0 = pass ∧ x.sub.getD 4 0 = 0 then
    c.setCmd fc e { x with sub := setAt (x.sub.take 10) 4 1 ++ (List.range (data.length / 8)).map (fun i => fieldB data (8 * i) 8) }
  else c

/-- A RESULT of a reduction or selection reaches this package. -/
def Chip.resultHere (c : Chip) (kind root name pass code : Nat) (data : List Byte) : Chip :=
  (List.range 64).foldl (fun c fc =>
    match c.joined fc (collEngine kind) root name with
    | some x => c.resultFor fc kind pass code data x
    | none => c) c

/-! The root. -/

/-- A collective rooted here; a new one when nothing is known of it. -/
def Chip.root (c : Chip) (hist : Bool) (name : Nat) : Root :=
  (c.conf.roots.find? (fun r => r.hist = hist ∧ r.name = name)).getD
    { hist := hist, name := name, count := 0, joins := [], absent := 0, chunks := [], pass := 0, leaves := 0, lists := [], ended := none }

/-- A root kept, or dropped when it is over. -/
def Chip.setRoot (c : Chip) (r : Root) (ended : Bool) : Chip :=
  let rest := c.conf.roots.filter (fun q => ¬ (q.hist = r.hist ∧ q.name = r.name))
  { c with conf := { c.conf with roots := if ended then rest else r :: rest } }

/-- The packages named in a collective's JOINs, each once. -/
def Root.pkgs (r : Root) : List Nat := (r.joins.map (fun j => j.pkg)).eraseDups

/-- RESULT goes to each package named in a JOIN (R475). -/
def Chip.report (c : Chip) (r : Root) (pass code : Nat) (data : List Byte) : Chip :=
  let kind := if r.hist then 1 else 0
  r.pkgs.foldl (fun c p =>
    if p = c.self then c.resultHere kind c.self r.name pass code data else c.send (c.resultMsg p r.name c.self kind pass code data)) c

/-- REFUSE goes to each package named in a JOIN (R308, R326). -/
def Chip.refuseAll (c : Chip) (r : Root) : Chip :=
  let kind := if r.hist then 1 else 0
  r.pkgs.foldl (fun c p =>
    if p = c.self then c.collLost kind c.self r.name c.self else c.send (c.endedMsg p r.name c.self kind)) c

/-- The number of participants, kept as the first that tells it gives it. -/
def Root.told (r : Root) (n : Nat) : Root := if r.count = 0 then { r with count := Nat.max 1 n } else r

/-- Whether every participant has joined or ended. -/
def Root.allSeen (r : Root) : Bool := r.count ≠ 0 && r.count ≤ r.joins.length + r.absent

/-- The chunks that a participant sends with its JOIN: one for each 64 bytes of accumulators of a reduction, 2,048 counts of a selection. -/
def Joiner.chunks (j : Joiner) (hist : Bool) : Nat :=
  if hist then 256 else (j.fields.getD 1 0 * aggBytes (j.fields.getD 2 0) (j.fields.getD 3 0) + 63) / 64

/-- Whether nothing that a participant sent with its JOIN is still on its way. -/
def Root.settled (r : Root) : Bool := 1 ≤ r.pass || (r.joins.map (fun j => j.chunks r.hist)).sum ≤ r.leaves

/-- Whether the JOINs break R299 or R321: a number out of range or repeated, or fields that differ. -/
def Root.broken (r : Root) : Bool :=
  r.joins.any (fun j => j.count ≤ j.part) || (r.joins.map (fun j => j.part)).eraseDups.length < r.joins.length ||
    r.joins.any (fun j => j.fields ≠ (match r.joins.getLast? with | some k => k.fields | none => []))

/-- The code of such a break: 0x09 in a reduction, 0x06 in a selection. -/
def Root.code (r : Root) : Nat := if r.hist then 0x06 else 0x09

/-- The accumulators of a complete reduction (R298): OUT_ADDR is field 0, OUT_CAP field 1. -/
def Root.cells (r : Root) (w : Nat) : List (Nat × Byte) :=
  let base := ((r.joins.headD { part := 0, pkg := 0, count := 1, fields := [] }).fields.headD 0) % 2 ^ 50
  let per := 64 / w
  r.chunks.flatMap (fun k =>
    (k.values.zipIdx.filter (fun p => k.presence.getLsbD p.2)).flatMap (fun p =>
      cellsAt (base + (k.chunk * per + p.2) * w) (leBytes w p.1)))

/-- The chunks of a reduction. -/
def Root.chunkCount (r : Root) : Nat := (r.joins.headD { part := 0, pkg := 0, count := 1, fields := [] }).chunks r.hist

/-- The chunks of a pass of a selection: 2,048 counts of 8 bytes for each of the prefixes found so far, which are two from the second pass on
(R317; DEDUCED, log 20), and one for the closing pass 63. -/
def passChunks (pass : Nat) : Nat := if pass = 63 then 1 else if pass = 0 then 256 else 512

/-- A reduction completes when every contributor has joined and every chunk has reached the top of the tree (R298). -/
def Chip.tryReduce (c : Chip) (r : Root) : Chip :=
  let w := match r.chunks.head? with | some k => k.width | none => 8
  if r.allSeen && (r.chunks.filter (fun k => k.top)).length = r.chunkCount then
    ((r.cells w).foldl (fun c p => c.wakePool p.1) c |>.put (r.cells w)).report r 0 0 [] |>.setRoot r true
  else c.setRoot r false

/-- A pass of a selection completes when every participant has joined and every chunk of it has reached the top (R320, R322). -/
def Chip.tryPass (c : Chip) (r : Root) (pass : Nat) : Chip :=
  let mine := r.chunks.filter (fun k => k.chunk / 1024 = pass ∧ k.top = true)
  if r.allSeen && mine.length = passChunks pass then
    let counts := (List.range (passChunks pass)).flatMap (fun i =>
      match mine.find? (fun k => k.chunk % 1024 = i) with | some k => k.values | none => [])
    (c.setRoot { r with pass := r.pass + 1, chunks := r.chunks.filter (fun k => k.chunk / 1024 ≠ pass) } (pass = 63)).report r pass 0
      (counts.flatMap (fun v => leBytes 8 v))
  else c.setRoot r false

/-- What the root does after a change: one that has ended only waits for what is still on its way to it. -/
def Chip.tryRoot (c : Chip) (r : Root) (pass : Nat) : Chip :=
  if r.ended.isSome then c.setRoot r (r.allSeen && r.settled) else if r.hist then c.tryPass r pass else c.tryReduce r

/-- What a participant hears of a collective that has ended: the code of its error, or that it was lost (R299, R308, R326). -/
def Chip.tellEnd (c : Chip) (r : Root) (code : Nat) : Chip := if code = 0 then c.refuseAll r else c.report r 0 code []

/-- A collective ends with a code, and every participant that has joined hears of it. -/
def Chip.endRoot (c : Chip) (r : Root) (code : Nat) : Chip :=
  (c.tryRoot { r with ended := some code, chunks := [], lists := [] } 0).tellEnd r code

/-- A JOIN reaches the root (R299, R475). -/
def Chip.rootJoin (c : Chip) (hist : Bool) (name : Nat) (j : Joiner) : Chip :=
  let r := c.root hist name
  let r1 := { r.told j.count with joins := j :: r.joins }
  match r.ended with
  | some code => (c.tryRoot r1 0).tellEnd { r1 with joins := [j] } code
  | none => if r1.broken then c.endRoot r1 r1.code else c.tryRoot r1 0

/-- The chunk number of an arriving CONTRIB: TXN counts modulo 2^16, so one that covers leaves already covered is 65,536 further on. -/
def Root.chunkNumber (r : Root) (k : Chunk) : Nat :=
  k.chunk + 65536 * (r.chunks.filter (fun x => x.chunk % 65536 = k.chunk ∧ k.level ≤ x.level ∧ k.node / 2 ^ (x.level - k.level) = x.node)).length

/-- A chunk reaches the root (R474); a later pass of a selection of which nothing is known is over. -/
def Chip.rootChunk (c : Chip) (name : Nat) (k : Chunk) : Chip :=
  let r := c.root k.hist name
  let pass := if k.hist then k.chunk / 1024 else 0
  if pass ≠ 0 ∧ r.pass = 0 then c
  else
    let r1 := if pass = 0 then { r with leaves := r.leaves + k.leafCount } else r
    if r.ended.isSome then c.tryRoot r1 0
    else
      let k1 := if k.hist then k else { k with chunk := r.chunkNumber k }
      c.tryRoot { r1 with chunks := climb 32 k1 r.chunks } pass

/-- A participant's list reaches the root (R320); when all have come, every participant gets them all, as pass 60. -/
def Chip.rootList (c : Chip) (name : Nat) (l : List Nat) : Chip :=
  let r := c.root true name
  if r.ended.isSome ∨ r.pass = 0 then c
  else
    let all := l :: r.lists
    if all.length < r.count then c.setRoot { r with lists := all } false
    else (c.setRoot { r with lists := [] } false).report r 60 0 (all.flatten.flatMap (fun v => leBytes 8 v))

/-- A participant ends before its contribution is accepted, or before a selection's last pass: the collective ends (R308, R326). -/
def Chip.rootAbort (c : Chip) (hist : Bool) (name count : Nat) (hadJoined : Bool) : Chip :=
  let r := c.root hist name
  if hadJoined ∧ r.joins = [] then c
  else
    let r1 := { r.told count with absent := if hadJoined then r.absent else r.absent + 1 }
    if r.ended.isSome then c.tryRoot r1 0 else c.endRoot r1 0

/-! Sending: to the root here, or over the network. -/

/-- A chunk on its way. -/
def Chip.sendChunk (c : Chip) (name root ctx : Nat) (k : Chunk) : Chip :=
  if root = c.self then c.rootChunk name k else c.send (c.chunkMsg name root ctx k)

/-- A JOIN on its way. -/
def Chip.sendJoin (c : Chip) (hist : Bool) (name root ctx : Nat) (j : Joiner) : Chip :=
  if root = c.self then c.rootJoin hist name j else c.send (c.joinMsg hist name root ctx j)

/-- A participant's list on its way. -/
def Chip.sendList (c : Chip) (name root ctx part : Nat) (l : List Nat) : Chip :=
  if root = c.self then c.rootList name l else c.send (c.listMsg name root ctx part l)

/-- A participant's end on its way: a REFUSE with CAUSE 3, whose TXN is 1 when the participant had joined; POSITION holds the number of
participants from bit 16 on. -/
def Chip.sendAbort (c : Chip) (hist : Bool) (name root count : Nat) (hadJoined : Bool) : Chip :=
  if root = c.self then c.rootAbort hist name count hadJoined
  else c.send { c.endedMsg root name root ((if hist then 1 else 0) + count * 2 ^ 16) with txn := if hadJoined then 1 else 0 }

/-- The root of a command's output: the package of OUT_ADDR and its place there. -/
def Chip.rootOf (c : Chip) (fc : Nat) (a : Word) : Option (Nat × Word) :=
  match c.access (some fc) a 1 false with
  | some t => some (match t.pkg with | none => c.self | some p => p, addrField t)
  | none => none

/-- A command's part in a collective that has not accepted it: kind, name, root, number of participants, and whether it has joined. -/
structure CollPart where
  hist : Bool
  name : Nat
  root : Nat
  count : Nat
  joined : Bool
  deriving DecidableEq, Repr

/-- The collective that a queued or running command of a Request takes part in (R299, R321). A reduction that has joined is accepted. -/
def Chip.collOf (c : Chip) (fc e : Nat) (x : EngCmd) : Option CollPart :=
  let root := (c.rootOf fc (x.addr 0x20)).map (fun p => p.1)
  if x.phase = .worked ∨ x.phase = .complete then none
  else if e = 2 ∧ x.field 0 1 = 6 ∧ x.sub = [] then
    root.map (fun p => { hist := false, name := x.field 0x30 4, root := p, count := x.field 0x36 2, joined := false })
  else if e = 3 ∧ x.bit 0x1D 1 ∧ x.sub.getD 3 0 ≠ 63 then
    root.map (fun p => { hist := true, name := x.field 0x34 2, root := p, count := x.field 0x36 2, joined := x.sub ≠ [] })
  else none

/-- The collectives of a Request's commands on this package. -/
def Chip.collsOf (c : Chip) (ctx : Nat) : List CollPart :=
  (List.range 64).flatMap (fun fc => [2, 3].flatMap (fun e =>
    ((c.core fc).engine e).queue.filterMap (fun x => if x.ctx = ctx then c.collOf fc e x else none)))

/-- KILL (R170, R223, R231) with what it leaves of a voxel hash (R352), and the end of the collectives that the Request took part in (R308, R326). -/
def Chip.killAll (c : Chip) (ctx : Nat) : Chip :=
  (c.collsOf ctx).foldl (fun c q => c.sendAbort q.hist q.name q.root q.count q.joined) ((c.spoilHash ctx).killReq ctx)

/-- The payload of a DOUBLE_FAULT entry (Table 3 of the management chapter). -/
def doubleFaultPayload (c : Chip) (l : Loc) : List Byte :=
  let r := fun i => SMap.get 0 c.cfr (cfrKey l i)
  leBytes 8 (r 1).toNat ++ leBytes 8 (r 2).toNat ++ leBytes 8 (r 3).toNat ++ leBytes 8 (r 4).toNat ++
    leBytes 4 (bits (r 0) 31 0) ++ leBytes 4 (l.slot.toNat * 2 ^ 29 + bits (r 5) 16 0)

/-- DOUBLE_FAULT_SERVICE: the running MC logs the Core Fault Record entry, the Request ends with ABORT_DOUBLE_FAULT whatever ended it
before (R177), KILL goes to its tasks, VALID is cleared and the slot returns to placement (R168). -/
def execDoubleFaultService (l : Loc) (s : State) : Host.Outcome State Fault Refusal :=
  s.run (fun c =>
    let x := c.slot l
    if x.doubleFault && c.mc.running then
      let ctx := x.ctxNum
      let detail := detailOf l.fc.toNat (bits (SMap.get 0 c.cfr (cfrKey l 2)) 23 0)
      let c1 := c.log 0x0010 2 l.fc.toNat (doubleFaultPayload c l)
      let c2 := { c1 with cfr := SMap.set c1.cfr (cfrKey l 0) (setBits (SMap.get 0 c1.cfr (cfrKey l 0)) 63 1 0) }
      let c3 := (c2.setSlot l { c2.slot l with doubleFault := false }).endReq ctx 0x13 detail
      let c4 := match c3.ctx ctx with
        | some y => c3.setCtx ctx { y with ended := some (0x13, detail) }
        | none => c3
      c4.killAll ctx
    else c)

/-- KILL: the HUB stops every task, engine command and waiting job of a Request that has ended (R170, R223, R231). -/
def execKill (ctx : BitVec 17) (s : State) : Host.Outcome State Fault Refusal :=
  s.run (fun c =>
    match c.ctx ctx.toNat with
    | some x => if x.ended.isSome then c.killAll ctx.toNat else c
    | none => c)

end Sys2Proof.Machine
end

