-- ==== Sys2Proof/Machine/HashJoin.lean ====
section
/-! DEFINITION. The Hash-Join Unit (R286 to R299, R305 to R309): HASH, CLEAR, BUILD, PROBE, PARTITION and SCATTER. -/

namespace Sys2Proof.Machine

/-- Errors of the Hash-Join Unit (Table 4 of the relational chapter). -/
def hjIn : Errs := Errs.same 0x10 0x01
/-- Errors of the Hash-Join Unit. -/
def hjTable : Errs := ⟨0x14, 0x02, 0x14, 0x04⟩
/-- Errors of the Hash-Join Unit. -/
def hjOut : Errs := ⟨0x14, 0x03, 0x14, 0x04⟩

/-- KEY_LEN of a command. -/
def EngCmd.keyLen (x : EngCmd) : Nat := Machine.keyLen (x.field 0x1F 1)
/-- IN_COUNT. -/
def EngCmd.inCount (x : EngCmd) : Nat := x.field 0x18 4
/-- IN_PITCH; 0 acts as the key length n, which is KEY_LEN, and BKEY_LEN in PROBE (R292). -/
def EngCmd.inPitch (x : EngCmd) (n : Nat) : Nat := if x.field 0x1C 2 = 0 then n else x.field 0x1C 2
/-- n bytes of input row i from byte o on, at a pitch. -/
def rdRowBytes (x : EngCmd) (pitch i o n : Nat) : Rd (List Byte) := rdBytes hjIn (effAddr (x.addr 0x10) (w64 (i * pitch + o))) n

/-- The keys of all input rows, n bytes each (R287). -/
def rdKeys (x : EngCmd) (n : Nat) : Rd (List (List Byte)) :=
  rdAll (fun i => rdRowBytes x (x.inPitch n) i (x.field 0x1E 1) n) (List.range x.inCount)

/-- HASH (R287). -/
def hashBody (x : EngCmd) : Rd EngOut := do
  let keys ← rdKeys x x.keyLen
  let seed := x.addr 0x30
  return EngOut.ofWrites (← wrBytes hjOut (x.addr 0x20) (keys.flatMap (fun k => leBytes 8 (hashKey (x.bit 0x1F 7) k seed).toNat)))

/-! Hash tables. -/

/-- The bytes of the header that a command names, in this core's Pool, which it reads when it starts (R289; code 0x06). -/
def headerBytes (fc : Nat) (x : EngCmd) : Rd (List Byte) := do
  let a := x.addr 0x38
  let r ← read
  if r.chip.inOwnPool fc a 64 = false then rdFail 0x14 0x06 else rdBytes hjTable a 64

/-- The header that a command names, with the Pool part of its slots in this core's Pool (R288, R289; code 0x06). -/
def rdHeader (fc : Nat) (x : EngCmd) : Rd HtHeader := do
  let h := headerOf (x.addr 0x38) (← x.atStart (headerBytes fc))
  let r ← read
  if h.inPool r.chip fc = false then rdFail 0x14 0x06 else return h

/-- A slot: what the command has inserted over what memory holds. -/
def rdSlot (er : Errs) (h : HtHeader) (new : SMap Nat) (j : Nat) : Rd Nat :=
  match SMap.find new j with
  | some v => pure v
  | none => do return leNat (← rdBytes er (h.slotAddr j) 8)

/-- The key of build row n (R291). -/
def rdBuildKey (h : HtHeader) (n : Nat) : Rd (List Byte) :=
  rdBytes hjTable (effAddr h.buildAddr (w64 (n * h.pitch + h.keyOff))) h.keyLen

/-- The slots of a walk from j up to the first empty one, and that one if it was met (R291, R292). -/
def walkSlots (er : Errs) (h : HtHeader) (new : SMap Nat) : Nat → Nat → Rd (List Nat × Option Nat)
  | 0, _ => pure ([], none)
  | fuel + 1, j => do
    let v ← rdSlot er h new j
    if v = 0 then return ([], some j)
    else
      let r ← walkSlots er h new fuel ((j + 1) % h.size)
      return (v :: r.1, r.2)

/-- The engine-written fields of a header at an offset. -/
def HtHeader.put (h : HtHeader) (o : Nat) (v : List Nat) : Rd (List Wr) :=
  wrBytes hjTable (effAddr h.base (w64 o)) (v.flatMap (fun n => leBytes 4 n))

/-- CLEAR (R290). -/
def clearBody (fc : Nat) (x : EngCmd) : Rd EngOut := do
  let h ← rdHeader fc x
  let n := Nat.min h.poolSlots h.size
  let w1 ← wrBytes hjTable h.slotBase (List.replicate (8 * n) 0)
  let w2 ← wrBytes hjTable h.spillBase (List.replicate (8 * (h.size - n)) 0)
  return EngOut.ofWrites (w1 ++ w2 ++ (← h.put 0x0C [0]) ++ (← h.put 0x30 [0, 0, 0]))

/-- Rows inserted one after another (R291), up to the first that would raise OCCUPIED above 7 * 2^k / 8 (R309): the slots written and
how the run ended. A walk that meets no empty slot never ends. -/
def insertRows (h : HtHeader) : List (Nat × List Byte) → SMap Nat → Nat → Rd (SMap Nat × Nat × Option Stop)
  | [], new, occ => pure (new, occ, none)
  | (n, key) :: t, new, occ => do
    if 7 * h.size / 8 < occ + 1 then return (new, occ, some (.fault 0x14 0x05))
    else
      let hv := (hashKey h.crc key h.seed).toNat
      let r ← walkSlots hjTable h new h.size (hv % h.size)
      match r.2 with
      | none => return (new, occ, some .again)
      | some j => insertRows h t (SMap.set new j (hv / 2 ^ 32 * 2 ^ 32 + (n + 1) % 2 ^ 32)) (occ + 1)

/-- BUILD (R291, R309). -/
def buildBody (fc : Nat) (x : EngCmd) : Rd EngOut := do
  let h ← rdHeader fc x
  let ns := (List.range x.inCount).map (fun i => (h.rows + i) % 2 ^ 32)
  let keys ← rdAll (fun n => do return (n, ← rdBuildKey h n)) ns
  let (new, occ, stop) ← insertRows h keys [] h.occupied
  let slots := (← rdAll (fun p => wrBytes hjTable (h.slotAddr p.1) (leBytes 8 p.2)) new).flatten
  match stop with
  | none => return EngOut.ofWrites (slots ++ (← h.put 0x0C [(h.rows + x.inCount) % 2 ^ 32]) ++ (← h.put 0x30 [occ]))
  | some .again => rdStop .again
  | some st => return { writes := slots, effect := id, stop := some st }

/-- Insertion into a rising list. -/
def insertNat (n : Nat) : List Nat → List Nat
  | [] => [n]
  | m :: t => if n ≤ m then n :: m :: t else m :: insertNat n t

/-- The build rows that match a key, ascending (R292, R293); a table of no rows matches none (R307). -/
def matchRows (h : HtHeader) (key : List Byte) : Rd (List Nat) := do
  if h.rows = 0 then return []
  let hv := (hashKey h.crc key h.seed).toNat
  let r ← walkSlots hjTable h [] h.size (hv % h.size)
  let cand := (r.1.filter (fun v => v / 2 ^ 32 = hv / 2 ^ 32)).map (fun v => (v + 2 ^ 32 - 1) % 2 ^ 32)
  let hits ← rdAll (fun n => do return (n, (← rdBuildKey h n) == key)) cand
  return ((hits.filter (fun p => p.2)).map (fun p => p.1)).foldr insertNat []

/-- The entries of one input row (Table 5). -/
def probeEntries (mode i : Nat) (rows : List Nat) : List Nat :=
  if mode = 1 then (match rows with | [] => [] | n :: _ => [n * 2 ^ 32 + i])
  else if mode = 2 then (match rows with | [] => [0xFFFFFFFF * 2 ^ 32 + i] | _ => [])
  else rows.map (fun n => n * 2 ^ 32 + i)

/-- PROBE (R292, R293, R307). -/
def probeBody (fc : Nat) (x : EngCmd) : Rd EngOut := do
  let h ← rdHeader fc x
  let keys ← rdKeys x h.keyLen
  let rows ← rdAll (matchRows h) keys
  let out := (rows.zipIdx).flatMap (fun p => probeEntries (x.field 0x2C 1 % 4) p.2 p.1)
  let n := Nat.min out.length (x.field 0x28 4)
  let w ← wrBytes hjOut (x.addr 0x20) ((out.take n).flatMap (fun v => leBytes 8 v))
  return EngOut.ofWrites (w ++ (← h.put 0x34 [n, out.length]))

/-- PARTITION (R294): rows grouped by the top bits of their hash, and the offsets of the groups. -/
def partitionBody (x : EngCmd) : Rd EngOut := do
  let n := x.inCount
  if x.field 0x28 4 < n then rdFail 0x14 0x07
  else
    let b := Nat.min 12 (x.field 0x2C 1 % 16)
    let keys ← rdKeys x x.keyLen
    let pitch := x.inPitch x.keyLen
    let rows ← rdAll (fun i => rdRowBytes x pitch i 0 pitch) (List.range n)
    let part := keys.map (fun k => (hashKey (x.bit 0x1F 7) k (x.addr 0x30)).toNat / 2 ^ (64 - b))
    let group := fun p => ((part.zip rows).filter (fun q => q.1 = p)).map (fun q => q.2)
    let groups := (List.range (2 ^ b)).map group
    let offs := groups.foldl (fun l g => l ++ [l.getLastD 0 + g.length]) [0]
    let w1 ← wrBytes hjOut (x.addr 0x20) groups.flatten.flatten
    let w2 ← wrBytes hjOut (x.addr 0x38) (offs.flatMap (fun v => leBytes 4 v))
    return EngOut.ofWrites (w1 ++ w2)

/-! SCATTER. -/

/-- VAL_TYPE: I64, U64, FP32 or FP64; other values act as I64. -/
def EngCmd.valType (x : EngCmd) : Nat :=
  let t := x.field 0x2E 1
  if t = 8 ∨ t = 11 ∨ t = 12 then t else 7

/-- AGG_OP: 0 SUM, 1 COUNT, 2 MIN, 3 MAX; other values act as 0. -/
def EngCmd.aggOp (x : EngCmd) : Nat :=
  let o := x.field 0x2C 1 % 8
  if o < 4 then o else 0

/-- Each group's partial over its rows in ascending order (R297). -/
def partials (op ty : Nat) (rows : List (Nat × Nat)) : SMap Nat :=
  rows.foldl (fun m p =>
    let v := if op = 1 then 1 else p.2
    match SMap.find m p.1 with
    | none => SMap.set m p.1 v
    | some a => SMap.set m p.1 (aggVal op ty a v)) []

/-- The chunks of a contribution (R474, R475). -/
def scatterChunks (x : EngCmd) (m : SMap Nat) : List Chunk :=
  let op := x.aggOp
  let ty := x.valType
  let w := aggBytes op ty
  let per := 64 / w
  (List.range ((x.field 0x28 4 * w + 63) / 64)).map (fun k =>
    { hist := false, op := op, ty := ty, chunk := k, level := 0, node := x.field 0x34 2, count := Nat.max 1 (x.field 0x36 2),
      presence := BitVec.ofNat 16 ((List.range per).foldl (fun n i => if (SMap.find m (k * per + i)).isSome then n + 2 ^ i else n) 0),
      values := (List.range per).map (fun i => SMap.get 0 m (k * per + i)) })

/-- SCATTER (R296 to R299): the accumulator of every group that has a row is checked, and the contribution goes to the root; the command then
waits for its RESULT. -/
def scatterBody (fc : Nat) (x : EngCmd) : Rd EngOut := do
  let ty := x.valType
  let cap := x.field 0x28 4
  let w := aggBytes x.aggOp ty
  let rows ← rdAll (fun i => do
    let g ← rdRowBytes x (x.inPitch x.keyLen) i (x.field 0x1E 1) 4
    let v ← rdRowBytes x (x.inPitch x.keyLen) i (x.field 0x2D 1) (tyBytes ty)
    return (leNat g, leNat v)) (List.range x.inCount)
  let r ← read
  if rows.any (fun p => cap ≤ p.1) then rdFail 0x14 0x08
  else
    let reached := (rows.map (fun p => p.1)).eraseDups.map (fun g => r.chip.access (some fc) (effAddr (x.addr 0x20) (w64 (g * w))) w true)
    match r.chip.rootOf fc (x.addr 0x20) with
    | some (root, place) =>
      if reached.any (fun t => t.isNone) then rdFail 0x14 0x03
      else if reached.any (fun t => t.any (fun u => u.ty = 2)) then rdFail 0x14 0x04
      else
        let name := x.field 0x30 4
        let j : Joiner := { part := x.field 0x34 2, pkg := r.chip.self, count := Nat.max 1 (x.field 0x36 2),
                            fields := [gaOff place, cap, x.aggOp, ty] }
        return { writes := [], stop := some .again, effect := fun c =>
          let c1 := (c.setCmd fc 2 { x with sub := [1, root, name] }).sendJoin false name root x.ctx j
          let c2 := (scatterChunks x (partials x.aggOp ty rows)).foldl (fun c k => c.sendChunk name root x.ctx k) c1
          if (c2.joined fc 2 root name).isSome then c2.stallEngine fc 2 .lateRemote else c2 }
    | none => rdFail 0x14 0x03

/-! Rows of the table. -/

/-- A row of the table for the Hash-Join Unit. HASH and BUILD of no input row complete at once; what the others do then is what their rules say
(R293, R294, R475). A command that names a header keeps it from its start (R289). -/
def Chip.hjRow (c : Chip) (fc opcode : Nat) (ecc : Bool) (body : EngCmd → Rd EngOut) : Chip :=
  c.onCommand fc 2 (some opcode) [1, 2, 3, 4, 5, 6] ecc (fun x =>
    if x.sub ≠ [] then c
    else if x.inCount = 0 ∧ (opcode = 1 ∨ opcode = 3) then c.finishCmd fc 2 x
    else if opcode = 2 ∨ opcode = 3 ∨ opcode = 4 then c.startCarry fc 2 x (headerBytes fc) body
    else c.carry fc 2 x (body x))

/-- HASH (R287). -/
def execHash (fc : BitVec 6) (ecc : Bool) (s : State) : Host.Outcome State Fault Refusal :=
  s.run (fun c => c.hjRow fc.toNat 1 ecc hashBody)

/-- HJU_CLEAR (R290). -/
def execHjuClear (fc : BitVec 6) (ecc : Bool) (s : State) : Host.Outcome State Fault Refusal :=
  s.run (fun c => c.hjRow fc.toNat 2 ecc (clearBody fc.toNat))

/-- BUILD (R291). -/
def execBuild (fc : BitVec 6) (ecc : Bool) (s : State) : Host.Outcome State Fault Refusal :=
  s.run (fun c => c.hjRow fc.toNat 3 ecc (buildBody fc.toNat))

/-- PROBE (R292). -/
def execProbe (fc : BitVec 6) (ecc : Bool) (s : State) : Host.Outcome State Fault Refusal :=
  s.run (fun c => c.hjRow fc.toNat 4 ecc (probeBody fc.toNat))

/-- PARTITION (R294). -/
def execPartition (fc : BitVec 6) (ecc : Bool) (s : State) : Host.Outcome State Fault Refusal :=
  s.run (fun c => c.hjRow fc.toNat 5 ecc partitionBody)

/-- SCATTER (R296). -/
def execScatter (fc : BitVec 6) (ecc : Bool) (s : State) : Host.Outcome State Fault Refusal :=
  s.run (fun c => c.hjRow fc.toNat 6 ecc (scatterBody fc.toNat))

end Sys2Proof.Machine
end

