-- ==== Sys2Proof/Machine/Select.lean ====
section
/-! DEFINITION. The Select Unit (R311 to R328): rank order, bounded and collective SELECT. -/

namespace Sys2Proof.Machine

/-- Errors of the Select Unit (Table 4 of Sorting and Selection). -/
def slKey : Errs := Errs.same 0x10 0x01
/-- Errors of the Select Unit. -/
def slOut : Errs := ⟨0x14, 0x02, 0x14, 0x03⟩

/-- TYPE of a SELECT. -/
def EngCmd.selType (x : EngCmd) : Nat := x.field 0x1C 1 % 16
/-- Whether elements of a TYPE have a key (R311). -/
def selTypeOk (t : Nat) : Bool := 1 ≤ t && t ≤ 12
/-- COLLECTIVE. -/
def EngCmd.collective (x : EngCmd) : Bool := x.bit 0x1D 1
/-- ROW_LEN. -/
def EngCmd.rowLen (x : EngCmd) : Nat := x.field 0x18 4
/-- K. -/
def EngCmd.selK (x : EngCmd) : Nat := x.field 0x28 5
/-- OUT_CAP. -/
def EngCmd.selCap (x : EngCmd) : Nat := x.field 0x30 4
/-- PART of a collective; a bounded row has participant 0. -/
def EngCmd.part (x : EngCmd) : Nat := if x.collective then x.field 0x1E 2 else 0
/-- PART_COUNT; 0 acts as 1. -/
def EngCmd.partCount (x : EngCmd) : Nat := Nat.max 1 (x.field 0x36 2)
/-- OUT_FORM; 3 acts as 2. -/
def EngCmd.outForm (x : EngCmd) : Nat := Nat.min 2 (x.field 0x1D 1 / 4 % 4)
/-- The size of an entry (Table 2). -/
def EngCmd.entryBytes (x : EngCmd) : Nat :=
  if x.outForm = 0 then tyBytes x.selType else if x.outForm = 1 then 8 else 16
/-- The address of entry 0: bits below the entry size are ignored. -/
def EngCmd.entryAddr (x : EngCmd) : Word := roundDown (x.addr 0x20) x.entryBytes
/-- The address of the key row. -/
def EngCmd.keyAddr (x : EngCmd) : Word := roundDown (x.addr 0x10) (tyBytes x.selType)
/-- RES_ADDR; 0 means none. -/
def EngCmd.resAddr (x : EngCmd) : Word := roundDown (x.addr 0x38) 16

/-- An element of a row: its sort key (R313), its participant, its local index and its stored bits. -/
structure SelElem where
  key : Nat
  part : Nat
  index : Nat
  val : Nat
  deriving DecidableEq, Repr

/-- The rank order (R313). -/
def SelElem.before (a b : SelElem) : Bool :=
  a.key < b.key || (a.key = b.key && (a.part < b.part || (a.part = b.part && a.index < b.index)))

/-- Insertion in rank order. -/
def insertElem (e : SelElem) : List SelElem → List SelElem
  | [] => [e]
  | f :: t => if f.before e then f :: insertElem e t else e :: f :: t

/-- A row in rank order. -/
def sortElems (l : List SelElem) : List SelElem := l.foldr insertElem []

/-- The elements of a command's row or segment (R311, R313). -/
def rdSelRow (x : EngCmd) : Rd (List SelElem) := do
  let t := x.selType
  let w := tyBytes t
  let b ← rdBytes slKey x.keyAddr (x.rowLen * w)
  return (List.range x.rowLen).map (fun i =>
    let v := fieldB b (i * w) w
    let k := keyOf t v
    { key := if x.bit 0x1D 0 then 2 ^ tyBits t - 1 - k else k, part := x.part, index := i, val := v })

/-- An entry (Table 2 of Sorting and Selection). -/
def EngCmd.entry (x : EngCmd) (e : SelElem) : List Byte :=
  let pos := e.part * 2 ^ 32 + e.index
  if x.outForm = 0 then leBytes (tyBytes x.selType) e.val
  else if x.outForm = 1 then leBytes 8 pos
  else leBytes 8 e.val ++ leBytes 8 pos

/-- The place of an address in one order over all packages. -/
def Reader.place (r : Reader) (a : Word) : Nat :=
  match r.chip.access r.own a 1 false with
  | some t => (t.pkg.getD r.chip.self) * 2 ^ 50 + t.off
  | none => 0

/-- Where a command's row lies: its place and its bytes. -/
def EngCmd.rowPlace (x : EngCmd) (r : Reader) : Nat × Nat := (r.place x.keyAddr, x.rowLen * tyBytes x.selType)

/-- Entries at their places. All of them are free values where they reach into the selection's key row, or where the row changed while it was
read (R325, R327). -/
def wrEntries (x : EngCmd) (rows : List (Nat × Nat)) (changed : Bool) (l : List (Nat × SelElem)) : Rd (List Wr × Nat) := do
  let r ← read
  let e := x.entryBytes
  let ko := r.place x.entryAddr
  let clash := changed || rows.any (fun q => q.2 ≠ 0 && l.any (fun p => q.1 < ko + (p.1 + 1) * e && ko + p.1 * e < q.1 + q.2))
  let data := fun (p : (Nat × SelElem) × Nat) =>
    if clash then (List.range e).map (fun i => (Config.freeWord (r.chip.freeCtr + p.2 * e + i)).setWidth 8) else x.entry p.1.2
  let w ← rdAll (fun p => wrBytes slOut (effAddr x.entryAddr (w64 (p.1.1 * e))) (data p)) l.zipIdx
  return (joinWr w.flatten, if clash then l.length * e else 0)

/-- WRITTEN (R316). -/
def EngCmd.written (x : EngCmd) (total : Nat) : Nat := if x.selK < total then Nat.min x.selCap (total - x.selK) else 0

/-- The result record (R316). -/
def recordBody (x : EngCmd) (total : Nat) : Rd EngOut := do
  if x.resAddr = 0 then return EngOut.ofWrites []
  else return EngOut.ofWrites (← wrBytes slOut x.resAddr (leBytes 8 total ++ leBytes 8 (x.written total)))

/-- A bounded SELECT: its entries; the result record follows them as a second part (R314 to R316, R319, R324). -/
def selectBounded (fc : Nat) (x : EngCmd) : Rd EngOut := do
  if 2 ^ 24 < x.rowLen then rdFail 0x17 0x10
  else if selTypeOk x.selType = false then rdFail 0x14 0x04
  else
    let row := sortElems (← rdSelRow x)
    let out := ((row.drop x.selK).take x.selCap).zipIdx.map (fun p => (p.2, p.1))
    let r ← read
    let (w, free) ← wrEntries x [x.rowPlace r] false out
    return { writes := w, stop := some .again,
             effect := fun c => ({ c with freeCtr := c.freeCtr + free }).setCmd fc 3 { x with prog := 0, sub := [2] } }

/-! Collective rows. The scratch numbers of a command are 1, the root, the name, the pass, whether its counts have come, the total, and
the prefix and the rank within it of the two boundaries; the merged counts follow. In pass 60 the participants exchange the sort keys that
lie between the boundaries, from which each knows the ranks of its own elements: the spec states the ranks and not how a participant comes to
know them (DESIGN CHOICE, log 20). Pass 62 is the writing pass and 63 the closing. -/

/-- The passes of a key of w bits (R317). -/
def selPasses (w : Nat) : Nat := (w + 10) / 11

/-- The counts of one pass among the elements that match a prefix (R317). -/
def digitCounts (w pass prior : Nat) (row : List SelElem) : List Nat :=
  let nb := Nat.min 11 (w - 11 * pass)
  let low := w - 11 * pass - nb
  let mine := row.filter (fun e => e.key / 2 ^ (w - 11 * pass) = prior)
  (List.range 2048).map (fun d => (mine.filter (fun e => e.key / 2 ^ low % 2 ^ nb = d)).length)

/-- The chunks of a list of counts, from a chunk number on. -/
def countChunks (x : EngCmd) (first : Nat) (counts : List Nat) : List Chunk :=
  (List.range ((counts.length + 7) / 8)).map (fun k =>
    { hist := true, op := 0, ty := 0, chunk := first + k, level := 0, node := x.part, count := x.partCount, presence := 0xFF,
      values := (List.range 8).map (fun i => counts.getD (8 * k + i) 0) })

/-- The root and the name of a selection. -/
def EngCmd.selName (x : EngCmd) : Nat := x.field 0x34 2

/-- The stored bytes of a row. -/
def rowBytesOf (x : EngCmd) (row : List SelElem) : List Byte := row.flatMap (fun e => leBytes (tyBytes x.selType) e.val)

/-- A participant begins: its JOIN and the counts of the first pass (R320, R321). -/
def selectJoin (fc : Nat) (x : EngCmd) : Rd EngOut := do
  if selTypeOk x.selType = false then rdFail 0x14 0x04
  else
    let row ← rdSelRow x
    let r ← read
    match r.chip.rootOf fc x.entryAddr with
    | none => rdFail 0x14 0x02
    | some (root, place) =>
      let fs := [x.selType, x.field 0x1D 1 % 16, gaOff place, x.selK, x.selCap, x.selName, x.partCount]
      let j : Joiner := { part := x.part, pkg := r.chip.self, count := x.partCount, fields := fs }
      return { writes := [], stop := some .again, effect := fun c =>
        let c1 := (c.setCmd fc 3 { x with start := rowBytesOf x row, sub := [1, root, x.selName, 0, 0, 0, 0, 0, 0, 0] }).sendJoin true x.selName root x.ctx j
        (countChunks x 0 (digitCounts (tyBits x.selType) 0 0 row)).foldl (fun c k => c.sendChunk x.selName root x.ctx k) c1 }

/-- The digit in which a rank falls, and the rank within it. -/
def findDigit : List Nat → Nat → Nat → Nat × Nat
  | [], d, n => (d, n)
  | k :: t, d, n => if n < k then (d, n) else findDigit t (d + 1) (n - k)

/-- A participant takes the merged counts of a pass (R317, R320): both boundaries move one digit on, and the counts of the next pass go
out, or the writing pass follows. -/
def selectPass (fc : Nat) (x : EngCmd) : Rd EngOut := do
  let w := tyBits x.selType
  let root := x.sub.getD 1 0
  let pass := x.sub.getD 3 0
  let counts := x.sub.drop 10
  let total := if pass = 0 then counts.foldl (fun a b => a + b) 0 else x.sub.getD 5 0
  let nb := Nat.min 11 (w - 11 * pass)
  let lo := if pass = 0 then (0, x.selK) else (x.sub.getD 6 0, x.sub.getD 7 0)
  let hi := if pass = 0 then (0, Nat.min (x.selK + x.selCap) total - 1) else (x.sub.getD 8 0, x.sub.getD 9 0)
  let dl := findDigit (counts.take 2048) 0 lo.2
  let dh := findDigit (if pass = 0 then counts.take 2048 else counts.drop 2048) 0 hi.2
  let state := fun p => [1, root, x.selName, p, 0, total, lo.1 * 2 ^ nb + dl.1, dl.2, hi.1 * 2 ^ nb + dh.1, dh.2]
  if 2 ^ 40 < total then rdFail 0x14 0x05
  else if x.written total = 0 then
    return { writes := [], stop := some .again, effect := fun c => c.setCmd fc 3 { x with sub := setAt (state 62) 4 2 } }
  else if pass + 1 = selPasses w then
    let row ← rdSelRow x
    let r ← read
    let last := state 60
    let place := x.rowPlace r
    let keys := (row.filter (fun e => last.getD 6 0 ≤ e.key ∧ e.key ≤ last.getD 8 0)).map (fun e => e.key)
    return { writes := [], stop := some .again, effect := fun c =>
      (c.setCmd fc 3 { x with sub := last }).sendList x.selName root x.ctx x.part ([x.part, place.1, place.2, keys.length] ++ keys) }
  else
    let row ← rdSelRow x
    let next := state (pass + 1)
    let c1 := digitCounts w (pass + 1) (next.getD 6 0) row ++ digitCounts w (pass + 1) (next.getD 8 0) row
    return { writes := [], stop := some .again, effect := fun c =>
      (countChunks x ((pass + 1) * 1024) c1).foldl (fun c k => c.sendChunk x.selName root x.ctx k) (c.setCmd fc 3 { x with sub := next }) }

/-- The lists of the participants: participant, place and bytes of its segment, and its sort keys between the boundaries. -/
def partLists : Nat → List Nat → List (Nat × (Nat × Nat) × List Nat)
  | fuel + 1, p :: a :: n :: k :: t => (p, (a, n), t.take k) :: partLists fuel (t.drop k)
  | _, _ => []

/-- How many of a participant's sort keys come before an element of another participant (R313). -/
def SelElem.after (e : SelElem) (l : Nat × (Nat × Nat) × List Nat) : Nat :=
  if l.1 = e.part then 0 else (l.2.2.filter (fun k => k < e.key ∨ (k = e.key ∧ l.1 < e.part))).length

/-- The writing pass (R313, R315, R317, R320): a participant writes the entries whose elements lie in its segment. -/
def selectWrite (fc : Nat) (x : EngCmd) : Rd EngOut := do
  let lists := partLists x.sub.length (x.sub.drop 10)
  let row ← rdSelRow x
  let below := x.selK - x.sub.getD 7 0
  let mine := sortElems (row.filter (fun e => x.sub.getD 6 0 ≤ e.key ∧ e.key ≤ x.sub.getD 8 0))
  let ranked := mine.zipIdx.map (fun p => (below + p.2 + (lists.map p.1.after).sum, p.1))
  let out := (ranked.filter (fun p => x.selK ≤ p.1 ∧ p.1 < x.selK + x.selCap)).map (fun p => (p.1 - x.selK, p.2))
  let (w, free) ← wrEntries x (lists.map (fun l => l.2.1)) (rowBytesOf x row != x.start) out
  return { writes := w, stop := some .again,
           effect := fun c => ({ c with freeCtr := c.freeCtr + free }).setCmd fc 3
             { x with prog := 0, sub := setAt (setAt (x.sub.take 10) 3 62) 4 3 } }

/-- The result record of a participant, after its entries (R316, R320). -/
def selectRecord (fc : Nat) (x : EngCmd) : Rd EngOut := do
  let out ← recordBody x (x.sub.getD 5 0)
  return { out with stop := some .again, effect := fun c => c.setCmd fc 3 { x with prog := 0, sub := setAt x.sub 4 4 } }

/-- A participant whose writes are performed closes (R322). -/
def Chip.selectClose (c : Chip) (fc : Nat) (x : EngCmd) : Chip :=
  if (c.core fc).engineOutstanding 3 then c.stallEngine fc 3 .lateRemote
  else
    let y := { x with sub := setAt (setAt x.sub 3 63) 4 0 }
    (countChunks x (63 * 1024) [0]).foldl (fun c k => c.sendChunk x.selName (x.sub.getD 1 0) x.ctx k) (c.setCmd fc 3 y)

/-- One part of a SELECT; a result record waits until every entry is written (R316). -/
def Chip.selectStep (c : Chip) (fc : Nat) (x : EngCmd) : Chip :=
  let go := fun (b : Rd EngOut) => c.carry fc 3 x b
  let ready := x.sub.getD 4 0
  let record := fun (b : Rd EngOut) => if (c.core fc).engineOutstanding 3 then c.stallEngine fc 3 .lateRemote else go b
  if x.sub = [] then go (if x.collective then selectJoin fc x else selectBounded fc x)
  else if x.sub = [2] then record (recordBody x x.rowLen)
  else if x.sub.getD 3 0 = 63 then c.stallEngine fc 3 .lateRemote
  else if x.sub.getD 3 0 = 62 then
    (if ready = 4 then c.selectClose fc x else record (selectRecord fc x))
  else if x.sub.getD 3 0 = 60 then (if ready = 1 then go (selectWrite fc x) else c.stallEngine fc 3 .lateRemote)
  else if ready = 1 then go (selectPass fc x)
  else c.stallEngine fc 3 .lateRemote

/-- A SELECT goes on until it waits or is done. -/
def selectRun (fc : Nat) (seq : BitVec 32) : Nat → Chip → Chip
  | 0, c => c
  | n + 1, c =>
    match ((c.core fc).engine 3).current with
    | none => c
    | some x =>
      if x.seq = seq then
        let d := c.selectStep fc x
        match ((d.core fc).engine 3).current with
        | none => d
        | some y => if y.seq = seq ∧ y.sub ≠ x.sub then selectRun fc seq n d else d
      else c

/-- SELECT (R314). -/
def execSelect (fc : BitVec 6) (ecc : Bool) (s : State) : Host.Outcome State Fault Refusal :=
  s.run (fun c => c.onCommand fc.toNat 3 (some 1) [1] ecc (fun x => selectRun fc.toNat x.seq 16 c))

end Sys2Proof.Machine
end

