-- ==== Sys2Proof/Machine/PointCloud.lean ====
section
/-! DEFINITION. The Matrix Tile (R102, R103, R329 to R352): GEMM, VOXELISE, RULES, CONV, BEV and LABELS. -/

namespace Sys2Proof.Machine

/-- Errors of the Matrix Tile (Table 6 of Point Clouds): reads of images, tables, rules, features and weights. -/
def mtIn : Errs := Errs.same 0x10 0x01
/-- Errors of the Matrix Tile: reads that code 0x01 does not name, of voxel records, point maps and labels (R208, R347). -/
def mtRec : Errs := ⟨0x10, 0x01, 0x14, 0x03⟩
/-- Errors of the Matrix Tile. -/
def mtOut : Errs := ⟨0x14, 0x02, 0x14, 0x03⟩

/-- The value of a computation on floats without its flags. -/
def mul32 (a b : Nat) : Nat := (fMul fp32 a b).1
/-- An FP32 sum. -/
def add32 (a b : Nat) : Nat := (fAdd fp32 a b).1
/-- An FP32 difference. -/
def sub32 (a b : Nat) : Nat := (fSub fp32 a b).1
/-- An FP32 quotient. -/
def div32 (a b : Nat) : Nat := (fDiv fp32 a b).1
/-- An FP32 fused product and sum. -/
def fma32 (a b c : Nat) : Nat := (fFma fp32 a b c).1
/-- a ≤ b; false with a NaN (R96). -/
def le32 (a b : Nat) : Bool := (fCompare fp32 3 a b).1
/-- a < b; false with a NaN. -/
def lt32 (a b : Nat) : Bool := (fCompare fp32 2 a b).1
/-- An integer as FP32. -/
def int32 (v : Int) : Nat := (fOfInt fp32 v).1

/-- Whether two ranges of bytes meet. -/
def meets (r : Reader) (a b : Word × Nat) : Bool :=
  a.2 ≠ 0 && b.2 ≠ 0 && r.key a.1 < r.key b.1 + b.2 && r.key b.1 < r.key a.1 + a.2

/-- Whether some range of a list meets a later one. -/
def anyMeet (r : Reader) : List (Word × Nat) → Bool
  | [] => false
  | a :: t => t.any (fun b => meets r a b) || anyMeet r t

/-- Whether ranges of two lists meet. -/
def crosses (r : Reader) (l k : List (Word × Nat)) : Bool := l.any (fun a => k.any (fun b => meets r a b))

/-- Whether another observer has changed a byte of this package among ranges since the command started (R350). -/
def Reader.changed (r : Reader) (l : List (Word × Nat)) : Bool :=
  r.now ≠ r.chip.mem && l.any (fun p => (List.range p.2).any (fun i =>
    match r.chip.access r.own (effAddr p.1 (w64 i)) 1 false with
    | some t => t.pkg = none && Mem.read r.now t.off ≠ Mem.read r.chip.mem t.off
    | none => false))

/-- The bytes of an output, each range with its address. -/
abbrev Output := List (Word × List Byte)
/-- The ranges of an output. -/
def Output.ranges (o : Output) : List (Word × Nat) := o.map (fun p => (p.1, p.2.length))
/-- The number of bytes of an output. -/
def Output.size (o : Output) : Nat := (o.map (fun p => p.2.length)).sum

/-- An output with free values, from a number on, in place of its bytes. -/
def Output.freed (n : Nat) : Output → Output
  | [] => []
  | p :: t => (p.1, (List.range p.2.length).map (fun i => (Config.freeWord (n + i)).setWidth 8)) :: Output.freed (n + p.2.length) t

/-- Whether the output of a number holds unspecified values: it overlaps itself, another output or an input (R351), or another observer has written
into an input while the command read it (R350). -/
def spoiled (r : Reader) (ins : List (Word × Nat)) (outs : List Output) (k : Nat) : Bool :=
  let mine := Output.ranges (outs.getD k [])
  r.changed ins || anyMeet r mine || crosses r mine ins || outs.zipIdx.any (fun q => q.2 ≠ k && crosses r mine (Output.ranges q.1))

/-- The outputs of a command as they are to be written, and how many free values they take. -/
def settle (r : Reader) (ins : List (Word × Nat)) (outs : List Output) : List Output × Nat :=
  let starts := outs.foldl (fun l o => l ++ [l.getLastD 0 + Output.size o]) [0]
  let l := outs.zipIdx.map (fun q => if spoiled r ins outs q.2 then Output.freed (r.chip.freeCtr + starts.getD q.2 0) q.1 else q.1)
  (l, if (List.range outs.length).any (spoiled r ins outs) then starts.getLastD 0 else 0)

/-- The writes of an output. -/
def wrOutput (o : Output) : Rd (List Wr) := do return joinWr (← rdAll (fun (p : Word × List Byte) => wrBytes mtOut p.1 p.2) o).flatten

/-- The outputs of a Matrix Tile command: their writes and the number of free values. -/
def wrOutputs (ins : List (Word × Nat)) (outs : List Output) : Rd (List Wr × Nat) := do
  let r ← read
  let s := settle r ins outs
  return ((← rdAll wrOutput s.1).flatten, s.2)

/-- A command whose writes and free values are these. -/
def mtDone (w : List Wr × Nat) : EngOut :=
  { writes := w.1, effect := fun c => { c with freeCtr := c.freeCtr + w.2 }, stop := none }

/-- The element of an accumulator tile at a row and a column (R102). -/
def Core.accAt (k : Core) (tile i j : Nat) : BitVec 32 := ((SMap.get [] k.acc tile).getD i []).getD j 0

/-- The last block of 64 x 64 of a matrix of sums. -/
def lastBlock (sums : List (List Nat)) : List (List (BitVec 32)) :=
  let cut := fun {α : Type} (l : List α) => l.drop ((l.length - 1) / 64 * 64)
  (cut sums).map (fun r => (cut r).map (fun v => BitVec.ofNat 32 v))

/-- A command that multiplies leaves in its accumulator tile the sums that it wrote out last (R102, R103): the matrix is taken in blocks of
64 x 64 in rising order, all of them in one tile, and which of ACC0 to ACC3 that is is a free value (DESIGN CHOICE, log 12). -/
def useTile (fc : Nat) (sums : List (List Nat)) (o : EngOut) : EngOut :=
  { o with effect := fun c =>
      let d := o.effect c
      let k := d.core fc
      { d.setCore fc { k with acc := SMap.set k.acc ((Config.freeWord d.freeCtr).toNat % 4) (lastBlock sums) } with freeCtr := d.freeCtr + 1 } }

/-! Multiplying (R103). -/

/-- One step of an accumulation: I8 into I32, or BF16 into FP32. -/
def macStep (float : Bool) (acc a b : Nat) : Nat :=
  if float then fma32 (fConvert bf16 fp32 a).1 (fConvert bf16 fp32 b).1 acc
  else wrapInt 32 ((acc : Int) + signed 8 a * signed 8 b)

/-- A sum of products in order. -/
def macSum (float : Bool) (l : List (Nat × Nat)) : Nat := l.foldl (fun acc p => macStep float acc p.1 p.2) 0

/-- An accumulator in an output type: FP32 and I32 as they are, BF16 and FP16 rounded once. -/
def accOut (ty acc : Nat) : Nat := if ty = 10 then (fConvert fp32 bf16 acc).1 else if ty = 9 then (fConvert fp32 fp16 acc).1 else acc

/-- The types that GEMM allows (R342). -/
def gemmTypes (a b c : Nat) : Bool := (a = 1 && b = 1 && c = 5) || (a = 10 && b = 10 && (c = 11 || c = 10 || c = 9))

/-- GEMM (R342). No element of an empty A or B is accessed (R197, where B.EXTENT1 does not count): with K = 0 a sum has no product and is 0; where another
extent of 0 makes one empty the spec gives the sums no value, and they are free (DESIGN CHOICE, log 52). -/
def gemmBody (fc : Nat) (x : EngCmd) : Rd EngOut := do
  let a ← rdTensor fc 0x14 0x04 (x.addr 0x10)
  let b ← rdTensor fc 0x14 0x04 (x.addr 0x18)
  let c ← rdTensor fc 0x14 0x04 (x.addr 0x20)
  if gemmTypes a.ty b.ty c.ty = false then rdFail 0x14 0x07
  else
    let m := a.ext.getD 1 1
    let k := a.ext.getD 0 1
    let n := b.ext.getD 0 1
    let ia := fun i j => [j, i, 0, 0, 0]
    let none_ := k ≠ 0 && (a.empty || { b with ext := setAt b.ext 1 1 }.empty)
    let ks := if none_ then [] else List.range k
    let av ← rdAll (fun i => rdAll (fun j => rdElem mtIn a (ia i j)) ks) (List.range m)
    let bv ← rdAll (fun j => rdAll (fun i => rdElem mtIn b (ia i j)) ks) (List.range n)
    let r ← read
    let sums := av.zipIdx.map (fun p => bv.zipIdx.map (fun q =>
      if none_ then (Config.freeWord (r.chip.freeCtr + p.2 * n + q.2)).toNat % 2 ^ 32 else macSum (a.ty = 10) (p.1.zip q.1)))
    let out : Output := (sums.zipIdx).flatMap (fun p => (p.1.zipIdx).map (fun q =>
      ((c.elemAddr (ia p.2 q.2)).1, leBytes (tyBytes c.ty) (accOut c.ty q.1))))
    let ins := (List.range m).flatMap (fun i => ks.map (fun j => ((a.elemAddr (ia i j)).1, tyBytes a.ty))) ++
      ks.flatMap (fun i => (List.range n).map (fun j => ((b.elemAddr (ia i j)).1, tyBytes b.ty))) ++
      [(x.addr 0x10, 64), (x.addr 0x18, 64), (x.addr 0x20, 64)].map (fun p => (roundDown p.1 64, p.2))
    let w ← wrOutputs ins [out]
    return useTile fc sums (mtDone (w.1, if none_ then Nat.max w.2 (m * n) else w.2))

/-! VOXELISE. -/

/-- The Voxelise Block (Table 5 of Point Clouds). -/
structure VoxBlock where
  image : Word
  rows : Nat
  cols : Nat
  unit : Nat
  beam : Word
  az : Word
  pose : Word
  slices : Nat
  sweep : Nat
  voxel : List Nat
  origin : List Nat
  grid : List Nat
  rmin : Nat
  rmax : Nat
  cap : Nat
  deriving DecidableEq, Repr

/-- The block of 128 bytes. -/
def voxBlockOf (b : List Byte) : VoxBlock :=
  { image := w64 (fieldB b 0 8), rows := clampNat 1 256 (fieldB b 8 2), cols := clampNat 1 4096 (fieldB b 0x0A 2),
    unit := fieldB b 0x0C 4, beam := w64 (fieldB b 0x10 8), az := w64 (fieldB b 0x18 8), pose := w64 (fieldB b 0x20 8),
    slices := clampNat 1 64 (fieldB b 0x28 1), sweep := Nat.max 1 (fieldB b 0x2C 4),
    voxel := (List.range 3).map (fun i => fieldB b (0x30 + 4 * i) 4), origin := (List.range 3).map (fun i => fieldB b (0x3C + 4 * i) 4),
    grid := (List.range 3).map (fun i => clampNat 1 16384 (fieldB b (0x48 + 2 * i) 2)),
    rmin := fieldB b 0x50 4, rmax := fieldB b 0x54 4, cap := fieldB b 0x58 4 }

/-- The class of a point and, of a valid one, its moved coordinates and its voxel coordinates (R330). -/
inductive PointClass where
  | absent | outRange | outGrid
  | valid (pos : List Nat) (cell : List Nat)
  deriving DecidableEq, Repr

/-- The rotation of a pose (R333), three rows of three. -/
def poseMatrix (p : Nat → Nat) : List (List Nat) :=
  let one := int32 1
  let two := int32 2
  let d := fun a b => sub32 one (mul32 two (add32 a b))
  let q := fun i j => mul32 (p i) (p j)
  [[d (q 2 2) (q 3 3), mul32 two (sub32 (q 1 2) (q 0 3)), mul32 two (add32 (q 1 3) (q 0 2))],
   [mul32 two (add32 (q 1 2) (q 0 3)), d (q 1 1) (q 3 3), mul32 two (sub32 (q 2 3) (q 0 1))],
   [mul32 two (sub32 (q 1 3) (q 0 2)), mul32 two (add32 (q 2 3) (q 0 1)), d (q 1 1) (q 2 2)]]

/-- One point (R333): its range, the sine and cosine of its elevation and azimuth, and its pose (QW, QX, QY, QZ, TX, TY, TZ). -/
def pointClass (v : VoxBlock) (range sinEl cosEl sinAz cosAz : Nat) (pose : Nat → Nat) : PointClass :=
  let rho := mul32 (int32 range) v.unit
  if range = 0 then .absent
  else if !(le32 v.rmin rho && le32 rho v.rmax) then .outRange
  else
    let h := mul32 rho cosEl
    let xs := mul32 h cosAz
    let ys := mul32 h sinAz
    let zs := mul32 rho sinEl
    let pos := ((poseMatrix pose).zipIdx).map (fun r =>
      fma32 (r.1.getD 0 0) xs (fma32 (r.1.getD 1 0) ys (fma32 (r.1.getD 2 0) zs (pose (4 + r.2)))))
    let q := (List.range 3).map (fun a => div32 (sub32 (pos.getD a 0) (v.origin.getD a 0)) (v.voxel.getD a 0))
    if (List.range 3).all (fun a => le32 0 (q.getD a 0) && lt32 (q.getD a 0) (int32 (v.grid.getD a 1))) then
      .valid pos (q.map (fun b => fFloor fp32 b))
    else .outGrid

/-- The voxel key (R334). -/
def voxelKey (c : List Nat) : Nat := c.getD 0 0 + c.getD 1 0 * 2 ^ 14 + c.getD 2 0 * 2 ^ 28

/-- A point of a sweep: its scan index, slice, record fields and class. -/
structure SweepPoint where
  scan : Nat
  slice : Nat
  intensity : Nat
  ret : Nat
  time : Nat
  cls : PointClass
  deriving DecidableEq, Repr

/-- A voxel: its key, its survivor and its points (R334, R335). -/
structure Voxel where
  key : Nat
  pos : List Nat
  cell : List Nat
  best : SweepPoint
  count : Nat
  deriving DecidableEq, Repr

/-- A point joins its voxel: the lowest TIME_OFFSET survives, and among equals the lowest scan index, which came first (R335). -/
def joinVoxel (p : SweepPoint) (pos cell : List Nat) : List Voxel → List Voxel
  | [] => [{ key := voxelKey cell, pos := pos, cell := cell, best := p, count := 1 }]
  | v :: t =>
    if v.key = voxelKey cell then
      (if p.time < v.best.time then { v with pos := pos, best := p, count := v.count + 1 } else { v with count := v.count + 1 }) :: t
    else v :: joinVoxel p pos cell t

/-- The voxels of a sweep, numbered by the lowest scan index among their points (R334). -/
def voxelsOf (l : List SweepPoint) : List Voxel :=
  l.foldl (fun vs p => match p.cls with | .valid pos cell => joinVoxel p pos cell vs | _ => vs) []

/-- A voxel record (Table 2 of Point Clouds). -/
def Voxel.record (v : Voxel) : List Byte :=
  v.pos.flatMap (fun a => leBytes 4 a) ++ leBytes 4 v.best.scan ++ v.cell.flatMap (fun a => leBytes 2 a) ++
    leBytes 1 v.best.intensity ++ leBytes 1 (v.best.ret % 4 + 4 * v.best.slice) ++ leBytes 4 v.best.time ++ leBytes 4 v.count

/-- The points of the image (R329 to R333). -/
def rdSweep (v : VoxBlock) : Rd (List SweepPoint) := do
  let n := v.rows * v.cols
  let img ← rdBytes mtIn v.image (8 * n)
  let beam ← rdBytes mtIn v.beam (8 * v.rows)
  let az ← rdBytes mtIn v.az (8 * v.cols)
  let pose ← rdBytes mtIn v.pose (32 * v.slices)
  return (List.range n).map (fun s =>
    let time := fieldB img (8 * s + 4) 4
    let k := Nat.min (v.slices - 1) (time * v.slices / v.sweep)
    { scan := s, slice := k, intensity := fieldB img (8 * s + 2) 1, ret := fieldB img (8 * s + 3) 1, time := time,
      cls := pointClass v (fieldB img (8 * s) 2) (fieldB beam (8 * (s % v.rows)) 4) (fieldB beam (8 * (s % v.rows) + 4) 4)
        (fieldB az (8 * (s / v.rows)) 4) (fieldB az (8 * (s / v.rows) + 4) 4) (fun i => fieldB pose (32 * k + 4 * i) 4) })

/-- The Hash Table Header of a Matrix Tile command (R337, code 0x04). -/
def rdVoxHeader (fc : Nat) (a0 : Word) : Rd HtHeader := do
  let a := roundDown a0 64
  let r ← read
  if r.chip.inOwnPool fc a 64 = false then rdFail 0x14 0x04
  else
    let h := headerOf a (← rdBytes mtIn a 64)
    if h.inPool r.chip fc = false then rdFail 0x14 0x04 else return h

/-- The first empty slot from j on among those used. -/
def emptySlot (size : Nat) (used : SMap Nat) : Nat → Nat → Nat
  | 0, j => j
  | n + 1, j => if (SMap.find used j).isSome then emptySlot size used n ((j + 1) % size) else j

/-- The voxel hash (R337): slot numbers with their values. -/
def voxelHash (size : Nat) (vs : List Voxel) : SMap Nat :=
  (vs.zipIdx).foldl (fun m p => SMap.set m (emptySlot size m size (mx64n p.1.key % size)) (p.1.key * 2 ^ 21 + p.2 + 1)) []

/-- The voxel of a key, if there is one. -/
def voxelNumber (vs : List Voxel) (key : Nat) : Nat := ((vs.zipIdx).find? (fun p => p.1.key = key)).elim 0xFFFFFFFF (fun p => p.2)

/-- A map entry (R336). -/
def mapEntry (vs : List Voxel) (p : SweepPoint) : Nat :=
  match p.cls with
  | .valid _ cell => voxelNumber vs (voxelKey cell)
  | _ => 0xFFFFFFFF

/-- A point's 16 bytes at PTS_ADDR (R336). -/
def pointBytes (p : SweepPoint) : List Byte :=
  match p.cls with
  | .valid pos _ => pos.flatMap (fun a => leBytes 4 a) ++ leBytes 4 (2 ^ 31 + p.slice)
  | _ => List.replicate 16 0

/-- The result record (R338). -/
def sweepRecord (l : List SweepPoint) (voxels : Nat) : List Byte :=
  let n := fun (f : PointClass → Bool) => (l.filter (fun p => f p.cls)).length
  leBytes 4 (n (fun c => match c with | .valid _ _ => true | _ => false)) ++ leBytes 4 (n (fun c => c = .absent)) ++
    leBytes 4 (n (fun c => c = .outRange)) ++ leBytes 4 (n (fun c => c = .outGrid)) ++ leBytes 4 voxels ++ List.replicate 12 0

/-- The block and the header of a VOXELISE (R337, R341, code 0x04), which it reads when it starts. -/
def rdVoxelise (fc : Nat) (x : EngCmd) : Rd (VoxBlock × HtHeader) := do
  let pa := roundDown (x.addr 0x10) 64
  let r ← read
  if r.chip.inOwnPool fc pa 128 = false then rdFail 0x14 0x04
  else return (voxBlockOf (← rdBytes mtIn pa 128), ← rdVoxHeader fc (x.addr 0x18))

/-- What VOXELISE reads. -/
def voxInputs (x : EngCmd) (v : VoxBlock) (h : HtHeader) : List (Word × Nat) :=
  [(v.image, 8 * v.rows * v.cols), (v.beam, 8 * v.rows), (v.az, 8 * v.cols), (v.pose, 32 * v.slices), (roundDown (x.addr 0x10) 64, 128)] ++ h.read

/-- The slots of a hash as one output. -/
def HtHeader.output (h : HtHeader) (hash : SMap Nat) : Output :=
  let n := Nat.min h.poolSlots h.size
  let bytes := fun (l : List Nat) => l.flatMap (fun j => leBytes 8 (SMap.get 0 hash j))
  [(h.slotBase, bytes (List.range n)), (h.spillBase, bytes ((List.range (h.size - n)).map (fun j => n + j)))]

/-- VOXELISE first writes every slot as 0 (R337). -/
def voxClear (fc : Nat) (x : EngCmd) : Rd EngOut := do
  let (v, h) ← rdVoxelise fc x
  let w ← wrOutputs (voxInputs x v h) [h.output []]
  return { writes := w.1, stop := some .again,
           effect := fun c => ({ c with freeCtr := c.freeCtr + w.2 }).setCmd fc 5 { x with prog := 0, sub := [0] } }

/-- VOXELISE (R331 to R338, R347): its output but for the result record, which follows. Too many voxels leave the hash cleared. -/
def voxeliseBody (fc : Nat) (x : EngCmd) : Rd EngOut := do
  let (v, h) ← rdVoxelise fc x
  let pts ← rdSweep v
  let vs := voxelsOf pts
  if v.cap < vs.length ∨ 7 * h.size / 8 < vs.length then rdFail 0x14 0x05
  else
    let maps := (pts.flatMap (fun p => leBytes 4 (mapEntry vs p)))
    let extra : Output := if x.addr 0x30 = 0 then [] else [(x.addr 0x30, pts.flatMap pointBytes)]
    let r ← read
    let s := settle r (voxInputs x v h) [h.output (voxelHash h.size vs), [(x.addr 0x20, vs.flatMap Voxel.record)], [(x.addr 0x28, maps)], extra,
      [(effAddr h.base 0x30, leBytes 4 vs.length)], [(x.addr 0x38, sweepRecord pts vs.length)]]
    let w ← rdAll wrOutput (s.1.take 5)
    return { writes := w.flatten, stop := some .again,
             effect := fun c => ({ c with freeCtr := c.freeCtr + s.2 }).setCmd fc 5
               { x with prog := 0, sub := 1 :: (s.1.getD 5 []).flatMap (fun (p : Word × List Byte) => p.2.map (fun (b : Byte) => b.toNat)) } }

/-- The last part of VOXELISE, after all its other output (R338). -/
def sweepTail (x : EngCmd) : Rd EngOut := do
  return EngOut.ofWrites (← wrBytes mtOut (x.addr 0x38) (x.sub.tail.map (fun n => BitVec.ofNat 8 n)))

/-! RULES, CONV. -/

/-- Offset o of the rulebook as steps of 0, 1 or 2 above -1 in x, y and z (R339). -/
def ruleStep (o : Nat) : List Nat := [o % 3, o / 3 % 3, o / 9]

/-- The neighbour of a voxel, none outside 0 to 16,383 (R339). -/
def neighbourKey (cell : List Nat) (o : Nat) : Option Nat :=
  let n := (cell.zip (ruleStep o)).map (fun p => p.1 + p.2)
  if n.all (fun a => 1 ≤ a ∧ a ≤ 16384) then some (voxelKey (n.map (fun a => a - 1))) else none

/-- The voxel that a hash holds for a key (R339). -/
def lookVoxel (h : HtHeader) (key : Nat) : Rd (Option Nat) := do
  let r ← walkSlots mtIn h [] h.size (mx64n key % h.size)
  return (r.1.find? (fun v => v / 2 ^ 21 = key)).map (fun v => (v + 2 ^ 21 - 1) % 2 ^ 21)

/-- RULES (R339, R340, R349). -/
def rulesBody (fc : Nat) (x : EngCmd) : Rd EngOut := do
  let h ← rdVoxHeader fc (x.addr 0x10)
  let n := x.field 0x28 4
  let mask := x.field 0x2C 4
  let recs ← rdBytes mtRec (x.addr 0x18) (32 * n)
  let cell := fun v => (List.range 3).map (fun i => fieldB recs (32 * v + 0x10 + 2 * i) 2)
  let find := fun (o v : Nat) =>
    match neighbourKey (cell v) o with
    | none => (pure none : Rd (Option Nat))
    | some k => lookVoxel h k
  let per ← rdAll (fun o =>
    if (mask / 2 ^ o) % 2 = 0 then (pure [] : Rd (List (Nat × Nat)))
    else do
      let l ← rdAll (fun v => do return (← find o v, v)) (List.range n)
      return l.filterMap (fun p => p.1.map (fun i => (i, p.2)))) (List.range 27)
  let total := (per.map List.length).foldl (fun a b => a + b) 0
  if x.field 0x30 4 < total then rdFail 0x14 0x06
  else
    let offs := per.foldl (fun l g => l ++ [l.getLastD 0 + g.length]) [0]
    let rules := per.flatten.flatMap (fun p => leBytes 4 p.1 ++ leBytes 4 p.2)
    let ins := (x.addr 0x18, 32 * n) :: h.ranges ++ h.read
    return mtDone (← wrOutputs ins [[(x.addr 0x20, rules)], [(x.addr 0x38, offs.flatMap (fun v => leBytes 4 v))]])

/-- CIN and COUT: 1 to 512 (R343). -/
def chanCount (n : Nat) : Nat := clampNat 1 512 n

/-- CONV (R343, R349). -/
def convBody (fc : Nat) (x : EngCmd) : Rd EngOut := do
  let p := x.addr 0x38
  let n := bits p 31 0
  let cin := chanCount (bits p 41 32)
  let cout := chanCount (bits p 51 42)
  let float := bit p 52
  let mode := bits p 54 53
  let w := if float then 2 else 1
  let ty := if float ∧ mode = 1 then 10 else if float ∧ mode = 2 then 9 else 11
  if n = 0 then return EngOut.ofWrites []
  else
    let offs ← rdBytes mtIn (x.addr 0x30) (4 * 28)
    let off := fun o => fieldB offs (4 * o) 4
    let rules ← rdAll (fun o => do
      let k := off (o + 1) - off o
      let b ← rdBytes mtIn (effAddr (x.addr 0x28) (w64 (8 * off o))) (8 * k)
      return ((List.range k).map (fun i => (fieldB b (8 * i) 4, fieldB b (8 * i + 4) 4))).filter (fun q => q.2 < n)) (List.range 27)
    let weights ← rdAll (fun o =>
      if (rules.getD o []).isEmpty then (pure [] : Rd (List Byte))
      else rdBytes mtIn (effAddr (x.addr 0x18) (w64 (o * cin * cout * w))) (cin * cout * w)) (List.range 27)
    let used := (rules.flatten.map (fun q => q.1)).eraseDups
    let rows ← rdAll (fun i => do return (i, ← rdBytes mtIn (effAddr (x.addr 0x10) (w64 (i * cin * w))) (cin * w))) used
    let row := fun i => match rows.find? (fun q => q.1 = i) with | some q => q.2 | none => []
    let terms := fun v c => (rules.zipIdx).flatMap (fun r => ((r.1.filter (fun q => q.2 = v)).flatMap (fun q =>
      (List.range cin).map (fun k => (fieldB (row q.1) (k * w) w, fieldB (weights.getD r.2 []) ((k * cout + c) * w) w)))))
    let sums := (List.range n).map (fun v => (List.range cout).map (fun c => macSum float (terms v c)))
    let out := sums.flatten.flatMap (fun a => leBytes (tyBytes ty) (accOut ty a))
    let ins := (x.addr 0x30, 112) :: (rows.map (fun q => (effAddr (x.addr 0x10) (w64 (q.1 * cin * w)), cin * w))) ++
      (List.range 27).flatMap (fun o => [(effAddr (x.addr 0x28) (w64 (8 * off o)), 8 * (off (o + 1) - off o)),
        (effAddr (x.addr 0x18) (w64 (o * cin * cout * w)), (weights.getD o []).length)])
    return useTile fc sums (mtDone (← wrOutputs ins [[(x.addr 0x20, out)]]))

/-! BEV, LABELS. -/

/-- A cell's value in one channel (R344). -/
def bevValue (f : Fmt) (sum : Bool) (vals : List Nat) : Nat :=
  match vals with
  | [] => 0
  | v :: t =>
    let r := if sum then (fConvert fp32 f (t.foldl (fun a b => add32 a (fConvert f fp32 b).1) (fConvert f fp32 v).1)).1
             else t.foldl (fun a b => (fMinMax f true a b).1) v
    if isNan f r then f.nanBits else r

/-- BEV (R344, R349). -/
def bevBody (x : EngCmd) : Rd EngOut := do
  let p := x.addr 0x28
  let n := bits p 31 0
  let ch := bits p 41 32
  let ty := bits p 45 42
  let shift := Nat.min 4 (bits p 48 46)
  let mx := x.field 0x30 2
  let my := x.field 0x32 2
  match (if ty = 9 ∨ ty = 10 ∨ ty = 11 then tyFmt ty else none) with
  | none => rdFail 0x14 0x07
  | some f =>
    let w := tyBytes ty
    let recs ← rdBytes mtRec (x.addr 0x10) (32 * n)
    let feats ← rdBytes mtIn (x.addr 0x18) (n * ch * w)
    let cell := fun v => (fieldB recs (32 * v + 0x10) 2 / 2 ^ shift, fieldB recs (32 * v + 0x12) 2 / 2 ^ shift)
    let out := (List.range my).flatMap (fun cy => (List.range mx).flatMap (fun cx =>
      let vs := (List.range n).filter (fun v => cell v = (cx, cy))
      (List.range ch).flatMap (fun c => leBytes w (bevValue f (bit p 49) (vs.map (fun v => fieldB feats ((v * ch + c) * w) w))))))
    return mtDone (← wrOutputs [(x.addr 0x10, 32 * n), (x.addr 0x18, n * ch * w)] [[(x.addr 0x20, out)]])

/-- LABELS (R345). -/
def labelsBody (x : EngCmd) : Rd EngOut := do
  let n := x.field 0x28 4
  let voxels := x.field 0x2C 4
  let map ← rdBytes mtRec (x.addr 0x10) (4 * n)
  let vs := (List.range n).map (fun s => fieldB map (4 * s) 4)
  let used := (vs.filter (fun v => v < voxels)).eraseDups
  let labels ← rdAll (fun v => do return (v, leNat (← rdBytes mtRec (effAddr (x.addr 0x18) (w64 (2 * v))) 2))) used
  let label := fun v => match labels.find? (fun q => q.1 = v) with | some q => q.2 | none => x.field 0x30 2
  let ins := (x.addr 0x10, 4 * n) :: used.map (fun v => (effAddr (x.addr 0x18) (w64 (2 * v)), 2))
  return mtDone (← wrOutputs ins [[(x.addr 0x20, vs.flatMap (fun v => leBytes 2 (label v)))]])

/-! Rows of the table. -/

/-- The OPCODEs of the Matrix Tile (Table 3 of Point Clouds). -/
def mtOpcodes : List Nat := [1, 2, 3, 4, 5, 6]

/-- A body carried out for a Matrix Tile command, which keeps memory as it was when it started while it waits (R341, R350). -/
def Chip.mtCarry (c : Chip) (fc : Nat) (x : EngCmd) (body : EngCmd → Rd EngOut) : Chip :=
  let y := { x with seen := some (x.seen.getD c.mem) }
  match (body y).result (c.reader fc 5 y) with
  | .ok (out, reads) => c.commitCmd fc 5 y out reads
  | .error st => (c.setCmd fc 5 y).engineStop fc 5 y st

/-- A row of the table for the Matrix Tile. -/
def Chip.mtRow (c : Chip) (fc opcode : Nat) (ecc : Bool) (body : EngCmd → Rd EngOut) : Chip :=
  c.onCommand fc 5 (some opcode) mtOpcodes ecc (fun x => c.mtCarry fc x body)

/-- GEMM (R342). -/
def execGemm (fc : BitVec 6) (ecc : Bool) (s : State) : Host.Outcome State Fault Refusal :=
  s.run (fun c => c.mtRow fc.toNat 1 ecc (gemmBody fc.toNat))

/-- One part of VOXELISE; what follows writes waits until they are performed (R337, R338). -/
def Chip.voxStep (c : Chip) (fc : Nat) (x : EngCmd) : Chip :=
  if x.sub = [] then c.mtCarry fc x (voxClear fc)
  else if (c.core fc).engineOutstanding 5 then c.stallEngine fc 5 .lateRemote
  else if x.sub = [0] then c.mtCarry fc x (voxeliseBody fc)
  else c.mtCarry fc x sweepTail

/-- VOXELISE goes on from part to part until it waits or is done. -/
def voxRun (fc : Nat) (seq : BitVec 32) : Nat → Chip → Chip
  | 0, c => c
  | n + 1, c =>
    match ((c.core fc).engine 5).current with
    | none => c
    | some x =>
      if x.seq = seq then
        let d := c.voxStep fc x
        match ((d.core fc).engine 5).current with
        | none => d
        | some y => if y.seq = seq ∧ y.sub ≠ x.sub then voxRun fc seq n d else d
      else c

/-- VOXELISE (R333). -/
def execVoxelise (fc : BitVec 6) (ecc : Bool) (s : State) : Host.Outcome State Fault Refusal :=
  s.run (fun c => c.onCommand fc.toNat 5 (some 2) mtOpcodes ecc (fun x => voxRun fc.toNat x.seq 3 c))

/-- RULES (R339). -/
def execRules (fc : BitVec 6) (ecc : Bool) (s : State) : Host.Outcome State Fault Refusal :=
  s.run (fun c => c.mtRow fc.toNat 3 ecc (rulesBody fc.toNat))

/-- CONV (R343). -/
def execConv (fc : BitVec 6) (ecc : Bool) (s : State) : Host.Outcome State Fault Refusal :=
  s.run (fun c => c.mtRow fc.toNat 4 ecc (convBody fc.toNat))

/-- BEV (R344). -/
def execBev (fc : BitVec 6) (ecc : Bool) (s : State) : Host.Outcome State Fault Refusal :=
  s.run (fun c => c.mtRow fc.toNat 5 ecc bevBody)

/-- LABELS (R345). -/
def execLabels (fc : BitVec 6) (ecc : Bool) (s : State) : Host.Outcome State Fault Refusal :=
  s.run (fun c => c.mtRow fc.toNat 6 ecc labelsBody)

end Sys2Proof.Machine
end

