-- ==== Sys2Proof/Machine/AllToAll.lean ====
section
/-! DEFINITION. All-to-all and broadcast (R479 to R481): the A2A and BCAST commands of the Stream Unit, and the receiver of an
all-to-all. -/

namespace Sys2Proof.Machine

/-- The Global Address of an offset of a package (R113). -/
def gaOf (pkg o : Nat) : Word := w64 (2 ^ 62 + pkg % 4096 * 2 ^ 50 + o % 2 ^ 50)

/-- Writes to another package turned into Bulk messages. -/
def Wr.asBulk (kind : TrkKind) : Wr → Wr
  | .remote t p d => .bulk kind t p d
  | w => w

/-! The receiver (R480). -/

/-- The bytes of the counts at RECV: PART_COUNT U32 counts, padded to 64. -/
def A2aRecv.header (a : A2aRecv) : Nat := roundUp (4 * a.parts) 64

/-- The rows of source participant k. -/
def A2aRecv.rowsOf (a : A2aRecv) (k : Nat) : Nat :=
  match a.counts.find? (fun q => q.1 = k) with
  | some q => q.2.2
  | none => 0

/-- The rows of the participants before k. -/
def A2aRecv.rowsBefore (a : A2aRecv) (k : Nat) : Nat := (List.range k).foldl (fun n i => n + a.rowsOf i) 0

/-- The offset of a participant's rows, from RECV. -/
def A2aRecv.offset (a : A2aRecv) (k : Nat) : Nat := a.header + a.rowsBefore k * a.rowBytes

/-- The packages of the sources, each once. -/
def A2aRecv.pkgs (a : A2aRecv) : List Nat := (a.counts.map (fun q => q.2.1)).eraseDups

/-- The commands of this package that take part in an all-to-all: core, command. -/
def Chip.a2aCmds (c : Chip) (name : Nat) : List (Nat × EngCmd) :=
  (List.range 64).filterMap (fun fc =>
    match ((c.core fc).engine 0).current with
    | some x => if x.field 0 1 = 2 ∧ x.sub ≠ [] ∧ x.field 0x36 2 = name then some (fc, x) else none
    | none => none)

/-- The plan of a command: for each receiving package how far it is (0 counted, 1 its offset is known, 2 written, 3 reported) and the
offset, kept as numbers after a leading 1. -/
def planOf : List Nat → List (Nat × Nat × Nat)
  | p :: st :: o :: t => (p, st, o) :: planOf t
  | _ => []

/-- A plan as numbers. -/
def planNums (l : List (Nat × Nat × Nat)) : List Nat := 1 :: l.flatMap (fun q => [q.1, q.2.1, q.2.2])

/-- One source takes its offset from a receiver. -/
def Chip.a2aOffsetHere (c : Chip) (receiver name part off : Nat) : Chip :=
  (c.a2aCmds name).foldl (fun c q =>
    if q.2.field 0x32 2 = part then
      c.setCmd q.1 0 { q.2 with sub := planNums ((planOf q.2.sub.tail).map (fun e => if e.1 = receiver ∧ e.2.1 = 0 then (e.1, 1, off) else e)) }
    else c) c

/-- A receiver's RESULT reaches the sources of this package: code 0x07 ends their Requests; when every receiver has reported, a command
is done. -/
def Chip.a2aResultHere (c : Chip) (receiver name code : Nat) : Chip :=
  (c.a2aCmds name).foldl (fun c q =>
    let plan := (planOf q.2.sub.tail).map (fun e => if e.1 = receiver then (e.1, 3, e.2.2) else e)
    let x := { q.2 with sub := planNums plan }
    if !(planOf q.2.sub.tail).any (fun e => e.1 = receiver) then c
    else if code ≠ 0 then c.failCmd q.1 0 x 0x14 code
    else if plan.all (fun e => e.2.1 = 3) then c.finishCmd q.1 0 x
    else c.setCmd q.1 0 x) c

/-- RESULT to every source (R480). -/
def Chip.a2aReport (c : Chip) (a : A2aRecv) (code : Nat) : Chip :=
  a.pkgs.foldl (fun c p =>
    if p = c.self then c.a2aResultHere c.self a.name code else c.send (c.resultMsg p a.name c.self 2 0 code [])) c

/-- An all-to-all received here, replaced or dropped. -/
def Chip.setA2a (c : Chip) (a : A2aRecv) (ended : Bool) : Chip :=
  let rest := c.conf.a2a.filter (fun b => b.name ≠ a.name)
  { c with conf := { c.conf with a2a := if ended then rest else a :: rest } }

/-- A receiver whose area is full reports (R480). -/
def Chip.a2aSettle (c : Chip) (a : A2aRecv) : Chip :=
  if a.replied && a.left = 0 then (c.setA2a a true).a2aReport a 0 else c.setA2a a false

/-- A receiver that holds every count writes the counts at RECV and returns each source's offset (R480); the bytes that pad the counts
are free. A total above RECV_CAP is error 0x07. The HUB writes nothing where it may not (R117, R118, R124; DESIGN CHOICE, log 21). -/
def Chip.a2aReply (c : Chip) (a : A2aRecv) : Chip :=
  let total := a.header + a.rowsBefore a.parts * a.rowBytes
  if a.cap < total then (c.setA2a a true).a2aReport a 0x07
  else
    let pad := (List.range (a.header - 4 * a.parts)).map (fun i => (Config.freeWord (c.freeCtr + i)).setWidth 8)
    let data := (List.range a.parts).flatMap (fun k => leBytes 4 (a.rowsOf k)) ++ pad
    let cells := (cellsAt a.recv data).filter (fun p => c.hubTakes p.1)
    let c1 := ({ c with freeCtr := c.freeCtr + pad.length }.wakePool a.recv).put cells
    let c2 := a.counts.foldl (fun c q =>
      if q.2.1 = c.self then c.a2aOffsetHere c.self a.name q.1 (a.offset q.1)
      else c.send { c.blankMsg 0x26 q.2.1 with
        addr := collAddr a.name c.self, data := leBytes 2 q.1 ++ leBytes 6 0 ++ leBytes 8 (a.offset q.1) }) c1
    c2.a2aSettle { a with replied := true, left := a.rowsBefore a.parts * a.rowBytes }

/-- An A2A_COUNT (R480): the rows that a participant of a package has for this one. -/
def Chip.a2aCount (c : Chip) (name part pkg rows parts rowBytes cap recv : Nat) : Chip :=
  let a := (c.conf.a2a.find? (fun b => b.name = name)).getD
    { name := name, recv := recv, cap := cap, parts := parts, rowBytes := rowBytes, counts := [], replied := false, left := 0 }
  let a1 := { a with counts := a.counts ++ [(part, pkg, rows)] }
  if a1.parts ≤ a1.counts.length && !a.replied then c.a2aReply a1 else c.setA2a a1 false

/-- Rows written into a receive area bring it nearer to full. -/
def Chip.a2aLanded (c : Chip) (o n : Nat) : Chip :=
  match c.conf.a2a.find? (fun a => a.replied && a.recv ≤ o && o < a.recv + a.cap) with
  | some a => c.a2aSettle { a with left := a.left - n }
  | none => c

/-! The A2A command. -/

/-- Rows per group from the offsets, and the package of each group. -/
def a2aGroups (x : EngCmd) : Rd (List (Nat × Nat × Nat)) := do
  let n := x.field 0x38 4
  let ob ← rdBytes suSrc (x.addr 0x18) (4 * (n + 1))
  let mb ← rdBytes suSrc (x.addr 0x20) (2 * n)
  return (List.range n).map (fun g => (fieldB mb (2 * g) 2, fieldB ob (4 * g) 4, fieldB ob (4 * g + 4) 4))

/-- A package that the command names is this one, or can be reached. -/
def rdReach (p : Nat) : Rd Unit := rdOf fun r =>
  if p = r.chip.self ∨ r.chip.reachable p = true then .ok () else .error (.dead (p % 4096))

/-- The receiving packages, each once, with their rows. -/
def a2aTotals (gs : List (Nat × Nat × Nat)) : List (Nat × Nat) :=
  ((gs.map (fun g => g.1)).eraseDups).map (fun p => (p, ((gs.filter (fun g => g.1 = p)).map (fun g => g.2.2 - g.2.1)).sum))

/-- The counts go out (R480, step 1). -/
def Chip.a2aStart (fc : Nat) (x : EngCmd) (totals : List (Nat × Nat)) (c : Chip) : Chip :=
  let name := x.field 0x36 2
  let part := x.field 0x32 2
  let c1 := c.setCmd fc 0 { x with sub := planNums (totals.map (fun t => (t.1, 0, 0))), prog := 0 }
  totals.foldl (fun c t =>
    if t.1 = c.self then
      c.a2aCount name part c.self t.2 (x.field 0x34 2) (x.field 0x30 2) (x.field 0x3C 4) (x.field 0x28 8 % 2 ^ 50)
    else c.send { c.blankMsg 0x25 t.1 with
      addr := collAddr name t.1, ctx := BitVec.ofNat 32 x.ctx,
      data := leBytes 2 part ++ leBytes 2 (x.field 0x34 2) ++ leBytes 4 t.2 ++ leBytes 2 (x.field 0x30 2) ++ leBytes 2 0 ++
        leBytes 4 (x.field 0x3C 4) ++ leBytes 8 (x.field 0x28 8) }) c1

/-- The first part of A2A: the groups are read and the counts sent. -/
def a2aHead (fc : Nat) (x : EngCmd) : Rd EngOut := do
  let gs ← a2aGroups x
  let totals := a2aTotals gs
  let _ ← rdAll (fun (t : Nat × Nat) => rdReach t.1) totals
  let _ ← rdAll (fun (t : Nat × Nat) => wrBytes suDst (gaOf t.1 (x.field 0x28 8)) [0]) totals
  return { writes := [], effect := Chip.a2aStart fc x totals, stop := if totals.isEmpty then none else some .again }

/-- The second part: once every receiver has returned an offset, the rows are written there, in group order. -/
def a2aRows (fc : Nat) (x : EngCmd) : Rd EngOut := do
  let plan := planOf x.sub.tail
  if plan.any (fun e => e.2.1 = 0) then rdStop (.wait .lateRemote)
  else
    let gs ← a2aGroups x
    let w := x.field 0x30 2
    let ws ← rdAll (fun (e : Nat × Nat × Nat) => do
      if e.2.1 = 1 then
        let mine := gs.filter (fun g => g.1 = e.1)
        let data ← rdAll (fun (g : Nat × Nat × Nat) => rdBytes suSrc (effAddr (x.addr 0x10) (w64 (g.2.1 * w))) ((g.2.2 - g.2.1) * w)) mine
        wrBytes suDst (gaOf e.1 (x.field 0x28 8 + e.2.2)) data.flatten
      else pure []) plan
    let own := fun (c : Chip) => ((plan.zip ws).filter (fun q => q.1.1 = c.self ∧ q.1.2.1 = 1)).map (fun q =>
      (x.field 0x28 8 % 2 ^ 50 + q.1.2.2, (q.2.map (fun v => match v with | .here _ d => d.length | _ => 0)).sum))
    return {
      writes := ws.flatten.map (Wr.asBulk .bulk),
      effect := fun c =>
        let c1 := c.setCmd fc 0 { x with sub := planNums (plan.map (fun e => if e.2.1 = 1 then (e.1, 2, e.2.2) else e)), prog := 0 }
        (own c).foldl (fun c p => if p.2 = 0 then c else c.a2aLanded p.1 p.2) c1,
      stop := some .again }

/-- A2A (R479, R480). -/
def execA2a (fc : BitVec 6) (ecc : Bool) (s : State) : Host.Outcome State Fault Refusal :=
  s.run (fun c => c.onCommand fc.toNat 0 (some 2) [1, 2, 3] ecc (fun x =>
    if x.sub = [] then c.carry fc.toNat 0 x (a2aHead fc.toNat x)
    else if (planOf x.sub.tail).any (fun e => e.2.1 < 2) then c.carry fc.toNat 0 x (a2aRows fc.toNat x)
    else c.stallEngine fc.toNat 0 .lateRemote))

/-! The BCAST command. -/

/-- The live packages of a box (R481): lost ones are skipped. -/
def Chip.boxPkgs (c : Chip) (box : Nat) : List Nat :=
  let f := fun i => box / 2 ^ (4 * i) % 16
  let axis := fun lo hi => (List.range 16).filter (fun v => lo ≤ v ∧ v ≤ hi)
  ((axis (f 0) (f 1)).flatMap (fun x => (axis (f 2) (f 3)).flatMap (fun y => (axis (f 4) (f 5)).map (fun z => x * 256 + y * 16 + z)))).filter
    (fun p => c.inGeom p && (p = c.self || p ∈ c.net.live))

/-- The block list of a BCAST (R481): not the Request's own. -/
def bcastList (x : EngCmd) : Rd (List Block) :=
  rdList suList { addr := roundDown (x.addr 0x20) 16, count := Nat.min (x.field 0x28 4) 65536, bus := false, own := false, port := 0 }

/-- BCAST: the bytes of the block list at DEST_OFF of every live package of the box (R481). -/
def bcastBody (x : EngCmd) : Rd EngOut := do
  let bs ← bcastList x
  let r ← read
  let pkgs := r.chip.boxPkgs (x.field 0x18 4)
  let _ ← rdAll rdReach pkgs
  let data ← readBlocks suSrc 0 bs 0 (blocksLen bs)
  let ws ← rdAll (fun p => wrBytes suDst (gaOf p (x.field 0x10 8)) data) pkgs
  return EngOut.ofWrites (ws.flatten.map (Wr.asBulk .bcast))

/-- BCAST (R481). -/
def execBcast (fc : BitVec 6) (ecc : Bool) (s : State) : Host.Outcome State Fault Refusal :=
  s.run (fun c => c.engineRow fc.toNat 0 (some 3) [1, 2, 3] ecc bcastBody)

end Sys2Proof.Machine
end

