-- ==== Sys2Proof/Machine/Transit.lean ====
section
/-! DEFINITION. Messages in flits (R471), what a router does with a message for another package (R463 to R465, R474, R476), waypoints
(R469), and how a message that reaches its package is dispatched. -/

namespace Sys2Proof.Machine

/-! Flits. -/

/-- VC of a flit. -/
def flitVc (f : List Byte) : Nat := fieldB f 6 1 % 8
/-- DCLASS of a flit. -/
def flitClass (f : List Byte) : Nat := fieldB f 6 1 / 8 % 2
/-- FRAG of a flit. -/
def flitFrag (f : List Byte) : Nat := fieldB f 6 1 / 16 % 4

/-- The message in a flit (R437, R471): the reads carry no data. -/
def msgOfFlit (f : List Byte) : Msg :=
  let t := fieldB f 7 1
  let n := fieldB f 0x1E 1
  { mtype := BitVec.ofNat 8 t, dest := BitVec.ofNat 12 (fieldB f 8 2), src := BitVec.ofNat 12 (fieldB f 0xA 2),
    addr := w64 (fieldB f 0x10 8), lockTag := BitVec.ofNat 32 (fieldB f 0x18 4), txn := BitVec.ofNat 16 (fieldB f 0x1C 2),
    len := BitVec.ofNat 8 n, cause := BitVec.ofNat 8 (fieldB f 0x1F 1), position := w64 (fieldB f 0x20 8),
    final := BitVec.ofNat 16 (fieldB f 0x28 2), ctx := BitVec.ofNat 32 (fieldB f 0x2C 4),
    data := if t = 0x01 ∨ t = 0x03 ∨ t = 0x05 then [] else sliceB f 0x30 (if n % 64 = 0 then 64 else n % 64) }

/-! Routers. -/

/-- Whether a router on the direct route from p to d stands at q, within a number of hops. -/
def Chip.onRoute (c : Chip) (d q : Nat) : Nat → Nat → Bool
  | 0, _ => false
  | n + 1, p =>
    if p = q then true
    else if p = d then false
    else
      match c.direct p d with
      | some h => if h.1 < 6 then c.onRoute d q n (c.neighbour p h.1) else false
      | none => false

/-- NET_CONF.COMBINE (R478). -/
def Chip.combining (c : Chip) : Bool := bit c.net.conf 0

/-- Whether a waiting flit is the sibling of a chunk of a collective (R474, R494). -/
def flitSibling (m : Msg) (f : List Byte) : Bool :=
  let q := msgOfFlit f
  flitFrag f = 0 && q.mtype = m.mtype && q.addr = m.addr && q.lockTag = m.lockTag && (chunkOf q).sibling (chunkOf m)

/-- A chunk combined with the flit of its sibling (R474). -/
def Chip.combineFlit (c : Chip) (m : Msg) (f : List Byte) : List Byte :=
  let a := chunkOf (msgOfFlit f)
  let b := chunkOf m
  let k := if a.node % 2 = 0 then a.combine b else b.combine a
  let q := { c.chunkMsg (Msg.name m) (Msg.root m) m.ctx.toNat k with src := m.src, dest := m.dest, lockTag := m.lockTag, final := m.final }
  flitOf q 2 (flitClass f) 0 q.txn.toNat q.data

/-- The first element that passes a test, changed. -/
def mapFirst {α : Type} (p : α → Bool) (f : α → α) : List α → List α
  | [] => []
  | a :: t => if p a then f a :: t else a :: mapFirst p f t

/-- Chunks that wait in this router for a sibling or for their turn: each takes one of its 4,096 combining entries (R474). -/
def Chip.chunksWaiting (c : Chip) : Nat :=
  (c.links.map (fun q => (q.2.txq.map (fun p => (p.2.filter (fun f => fieldB f 7 1 = 0x21 || fieldB f 7 1 = 0x22)).length)).sum)).sum

/-- Flits leave on a link for another package; a chunk meets its sibling among the flits that wait there, while the entries suffice. -/
def Chip.relayOn (c : Chip) (n port dclass : Nat) (m : Msg) : Chip :=
  match vcOf m.mtype.toNat with
  | none => c
  | some vc =>
    let k := c.link n
    match (if c.combining && (m.mtype = 0x21 || m.mtype = 0x22) && c.chunksWaiting ≤ 4096 then
        k.txq.find? (fun p => p.2.any (flitSibling m)) else none) with
    | some p => (c.setLink n { k with txq := SMap.set k.txq p.1 (mapFirst (flitSibling m) (c.combineFlit m) p.2) }).netCount 4 1
    | none => (c.setLink n (k.offer port vc (flitsOf m vc dclass))).emit (.net m)

/-- DCLASS of a hop (R465): 1 on the dateline link of its dimension and after it in the same dimension; where a message came from no link,
its class is 0 before the hop. -/
def Chip.hopClass (c : Chip) (dir : Nat) (came : Option (Nat × Nat)) : Nat :=
  if c.dateline c.self dir then 1
  else
    match came with
    | some (n, cls) => if n / 4 / 2 = dir / 2 then cls else 0
    | none => 0

/-- The input port of a message: the link that it came by, or this package (R467). -/
def portOf (came : Option (Nat × Nat)) : Nat := (came.map (fun x => x.1)).getD ownPort

/-- A message goes on by the Route Table entry of its DEST, over the link that R464 names; one whose link is down, or that has no
route, is discarded and counted. -/
def Chip.relay (c : Chip) (came : Option (Nat × Nat)) (m : Msg) : Chip :=
  let d := m.dest.toNat
  let vc := (vcOf m.mtype.toNat).getD 0
  let r := c.route d
  let ls := c.setLinks c.self r.dir
  match ls[(m.src.toNat + 3 * d + vc) % ls.length]? with
  | none => c.netCount 3 (flitsOf m vc 0).length
  | some n => if (c.link n).up then c.relayOn n (portOf came) (c.hopClass r.dir came) m else c.netCount 3 (flitsOf m vc 0).length

/-! Merging of slice reads (R269, R476). -/

/-- A slice read of one row in transit: it joins one from another package that is unanswered, or goes on; a router can copy only an
answer that it carries, so it remembers a read whose answer passes here. -/
def Chip.mergeRead (c : Chip) (came : Option (Nat × Nat)) (m : Msg) : Chip :=
  if c.merging && m.len.toNat = 8 && m.cause = 0 then
    match c.openRead m with
    | some e => c.joinRead e m
    | none =>
      if c.onRoute m.src.toNat c.self 64 m.dest.toNat then (c.noteRead m).relay came m else c.relay came m
  else c.relay came m

/-- Whether an answer settles a merged slice read: SLICE_DATA, or the REFUSE of a slice read, which is told by its LEN of 8. -/
def Merge.answered (e : Merge) (m : Msg) : Bool :=
  (m.mtype = 0x51 || (m.mtype = 0x1F && m.len = 8)) &&
  e.table = bits m.addr 5 0 && e.row = m.position.toNat && e.member = m.src.toNat && e.first = m.dest.toNat

/-- An answer to a slice read is copied to each requester that waits here (R269, R279, R476), this package among them. An answer that a
sibling gave this package for others goes out in this package's name. -/
def Chip.copyAnswer (c : Chip) (m : Msg) (serve : Msg → Chip → Chip) : Chip :=
  match c.conf.merges.find? (fun e => e.answered m) with
  | none => c
  | some e =>
    let c1 := { c with conf := { c.conf with merges := c.conf.merges.erase e } }
    e.requesters.foldl (fun c q =>
      let a := { m with dest := BitVec.ofNat 12 q.1, ctx := BitVec.ofNat 32 q.2, src := if e.relayed then BitVec.ofNat 12 c.self else m.src }
      if q.1 = c.self then serve a c else if e.relayed then c.send a else c.relay none a) c1

/-- A message for another package passes through; a copy of its answer for this package is served here. -/
def Chip.transit (c : Chip) (came : Option (Nat × Nat)) (m : Msg) (serve : Msg → Chip → Chip) : Chip :=
  if m.mtype = 0x06 then c.mergeRead came m
  else if m.mtype = 0x51 || m.mtype = 0x1F then (c.copyAnswer m serve).relay came m
  else c.relay came m

/-! Waypoints (R469). -/

/-- Whether a message stands at its waypoint: VIA names another final destination. -/
def Chip.atWaypoint (c : Chip) (m : Msg) : Bool := m.final.getLsbD 15 && m.final.toNat % 4096 ≠ c.self

/-- A message that reached this package: its own meaning here, the forwarding buffer of a waypoint, or the way on. -/
def Chip.arrive (c : Chip) (came : Option (Nat × Nat)) (m : Msg) (serve : Msg → Chip → Chip) : Chip :=
  if m.dest.toNat ≠ c.self then c.transit came m serve
  else if c.atWaypoint m then { c with net := { c.net with via := c.net.via ++ [m] } }
  else serve m c

/-- The HUB of a waypoint sends a message on, unchanged but for DEST and DCLASS 0, and counts its flits. -/
def Chip.reinject (c : Chip) (m : Msg) : Chip :=
  if m ∈ c.net.via then
    let c1 := { c with net := { c.net with via := c.net.via.erase m } }
    (c1.netCount 6 (flitsOf m 0 0).length).relay none { m with dest := BitVec.ofNat 12 (m.final.toNat % 4096) }
  else c

/-- WAYPOINT_REINJECT (R469). -/
def execWaypointReinject (m : Msg) (s : State) : Host.Outcome State Fault Refusal := s.run (fun c => c.reinject m)

end Sys2Proof.Machine
end

