-- ==== Sys2Proof/Machine/Messages.lean ====
section
/-! DEFINITION. What each message does at the package that it is for (R51, R55, R472 to R481), and how an operation that is refused,
lost or timed out ends (R141, R470, R473). -/

namespace Sys2Proof.Machine

/-! Answers. -/

/-- Data bytes that LEN names: 0 means 64 (R471). -/
def msgLen (m : Msg) : Nat := if m.len.toNat % 64 = 0 then 64 else m.len.toNat % 64

/-- The package-local offset in ADDR. -/
def msgOff (m : Msg) : Nat := bits m.addr 49 0

/-- An answer to a message, with its TXN and CTX. -/
def Chip.answer (c : Chip) (m : Msg) (mtype : Nat) (data : List Byte) : Chip :=
  c.send { c.blankMsg mtype m.src.toNat with
    txn := m.txn, ctx := m.ctx, len := BitVec.ofNat 8 (data.length % 64), data := data }

/-- Whether this package serves a message: it holds the lock, and the tags agree (R51, R55). -/
def Chip.tagOk (c : Chip) (m : Msg) : Bool := c.locked && m.lockTag = c.lockTag

/-- A message refused by lock tag (R51, R473). POSITION 1 marks one whose TXN is no tracker. -/
def Chip.refuseTag (c : Chip) (m : Msg) (noTracker : Bool) : Chip :=
  c.send { c.blankMsg 0x1F m.src.toNat with txn := m.txn, ctx := m.ctx, cause := 1, position := if noTracker then 1 else 0 }

/-! Requests at the home of their address. -/

/-- The row that n bytes from an offset lie in, as another package may reach them: no Self Pool (R118). -/
def homeRow (o n : Nat) : Option Row :=
  match rowOf o, rowOf (o + n - 1) with
  | some r, some q => if r = q ∧ r ≠ .selfPool then some r else none
  | _, _ => none

/-- EMPTY_AT as RD and WR carry it in POSITION; 0 stands for none (R240). -/
def Msg.tag (m : Msg) : Option Word := if (m.mtype = 0x01 ∨ m.mtype = 0x02) ∧ m.position ≠ 0 then some m.position else none

/-- n bytes of this package for another one, of class REMOTE at the arbiters (R241): the Basin control range reads 0 (R116), an offset where nothing lies reads a free value. -/
def Chip.homeBytes (c : Chip) (m : Msg) (o n : Nat) : List Byte × Chip :=
  match homeRow o n with
  | some .basin => (List.replicate n 0, c)
  | some _ => (c.bytes o n, c.memAccess (farRequester m.src.toNat) 2 (Msg.tag m) o)
  | none => ((List.range n).map (fun i => (Config.freeWord (c.freeCtr + i)).setWidth 8), { c with freeCtr := c.freeCtr + n })

/-- Bytes of another package written here; the Recipe Store (R117) and an offset where nothing lies take nothing. -/
def Chip.homeWrite (c : Chip) (m : Msg) (o : Nat) (data : List Byte) : Chip :=
  match homeRow o data.length with
  | none => c
  | some .store => c
  | some _ => (c.memAccess (farRequester m.src.toNat) 2 (Msg.tag m) o).putAt o data

/-- A message is served, refused by its tag, or waits here for a power domain (R51, R504). -/
def Chip.atHome (c : Chip) (m : Msg) (f : Chip → Chip) : Chip :=
  if c.tagOk m = false then c.refuseTag m false
  else
    match homeRow (msgOff m) 1 with
    | some r =>
      match c.homeWait { pkg := none, off := (msgOff m), row := r, ty := 0, wp := false } with
      | some _ => { c with net := { c.net with inbox := c.net.inbox ++ [m] } }
      | none => f c
    | none => f c

/-- RD: the bytes go back in RD_DATA. -/
def Chip.serveRd (c : Chip) (m : Msg) : Chip :=
  c.atHome m (fun c =>
    let r := c.homeBytes m (msgOff m) (msgLen m)
    r.2.answer m 0x11 r.1)

/-- WR: the bytes are performed and WR_ACK returns. -/
def Chip.serveWr (c : Chip) (m : Msg) : Chip :=
  c.atHome m (fun c => (c.homeWrite m (msgOff m) (sliceB m.data 0 (msgLen m))).answer m 0x12 [])

/-- Who holds a reservation for another package: the core of TXN and the slot that RSV_RD and STC carry in bits [19:17] of CTX (DESIGN
CHOICE, log 14). -/
def msgHolder (m : Msg) : Nat := m.txn.toNat / 1024 * 8 + m.ctx.toNat / 2 ^ 17 % 8

/-- RSV_RD: as RD, and the home slice keeps the reservation (R144, R145). -/
def Chip.serveRsv (c : Chip) (m : Msg) : Chip :=
  c.atHome m (fun c =>
    let r := c.homeBytes m (msgOff m) 8
    (r.2.reserveHome m.src.toNat (msgHolder m) (msgOff m)).answer m 0x11 r.1)

/-- STC: the store is performed only under the reservation (R144 to R146); RSV_RESULT carries the value that STCV returns. -/
def Chip.serveStc (c : Chip) (m : Msg) : Chip :=
  c.atHome m (fun c =>
    let ok := c.reservedHome m.src.toNat (msgHolder m) (msgOff m)
    let c1 := if ok then c.homeWrite m (msgOff m) (sliceB m.data 0 8) else c
    (c1.unreserveHome m.src.toNat (msgHolder m)).answer m 0x13 [if ok then 0 else 1])

/-! Slice reads (R264, R270, R272, R276, R277). -/

/-- The answer to a slice read of one row. -/
def Chip.answerSlice (c : Chip) (m : Msg) (row : Nat) (data : Option (List Byte)) : Chip :=
  match data with
  | some d => c.send { c.blankMsg 0x51 m.src.toNat with addr := m.addr, position := w64 row, ctx := m.ctx, data := d }
  | none => c.send { c.blankMsg 0x1F m.src.toNat with addr := m.addr, position := w64 row, ctx := m.ctx, cause := 2, len := 8 }

/-- The slice of a row of this package, free where no Recipe-use HBM lies. -/
def Chip.sliceBytes (c : Chip) (t row : Nat) : List Byte :=
  (c.placeOffsets t (c.rowPlace t row) ((c.table t).slice c.groupSize)).map (fun o =>
    if rowOf o = some .hbm then Mem.read c.mem o else (Config.freeWord (c.freeCtr + o)).setWidth 8)

/-- A poisoned row (R277): a table that is not replicated answers poison, as a sibling does; any other row is asked of the sibling, and
its answer goes on from here. -/
def Chip.servePoisoned (c : Chip) (m : Msg) (t row : Nat) : Chip :=
  let tb := c.table t
  let n := c.pkgCount / c.groupSize
  let me := c.rank c.self
  if m.cause = 1 ∨ tb.replicated = false ∨ n ≤ 1 then (c.countPoison t row).answerSlice m row none
  else
    match c.memberPkg tb (me / c.groupSize + 1) (me % c.groupSize) with
    | .inr _ => (c.countPoison t row).answerSlice m row none
    | .inl p =>
      if p = c.self then (c.countPoison t row).answerSlice m row none
      else
        let e : Merge := { table := t, row := row, member := p, tag := m.lockTag, first := c.self,
                           relayed := true, requesters := [(m.src.toNat, m.ctx.toNat)] }
        ({ c.countPoison t row with conf := { c.conf with merges := e :: c.conf.merges } }).send
          { c.blankMsg 0x06 p with addr := m.addr, len := 8, cause := 1, ctx := m.ctx, data := leBytes 8 row }

/-- One row of a slice read (R264); an uncorrectable error lies in its Hot Row Cache entry or in HBM. -/
def Chip.serveSlice (c : Chip) (m : Msg) (ecc : Bool) (row : Nat) : Chip :=
  let t := bits m.addr 5 0
  let d := channelDie (c.rowPlace t row).1
  if c.poisoned t row then c.servePoisoned m t row
  else if ecc && !(c.hotRow t row d) then ((c.countSlice t row d).poisonRow t row).answerSlice m row none
  else
    let c1 := (if ecc then c.hotError t row d else c).countSlice t row d
    let c2 := (lineStarts (c1.placeOffsets t (c1.rowPlace t row) ((c1.table t).slice c1.groupSize))).foldl
      (fun c o => c.memAccess (farRequester m.src.toNat) 2 none o) c1
    c2.answerSlice m row (some (c2.sliceBytes t row))

/-- The rows that a SLICE_RD names. -/
def Msg.rows (m : Msg) : List Nat := (List.range ((msgLen m) / 8)).map (fun i => fieldB m.data (8 * i) 8)

/-- SLICE_RD at a member (R264): its rows one after another; rows of one message that lie in a domain that is off wait together. -/
def Chip.serveSliceRd (c : Chip) (m : Msg) (ecc : Bool) : Chip :=
  let t := bits m.addr 5 0
  let offs := (Msg.rows m).flatMap (fun r => c.placeOffsets t (c.rowPlace t r) ((c.table t).slice c.groupSize))
  if c.tagOk m = false then c.send { c.blankMsg 0x1F m.src.toNat with
    addr := m.addr, position := w64 (fieldB m.data 0 8), ctx := m.ctx, cause := 1, len := 8 }
  else if offs.any (fun o => (c.homeWait { pkg := none, off := o, row := .hbm, ty := 0, wp := false }).isSome) then
    { c with net := { c.net with inbox := c.net.inbox ++ [m] } }
  else
    match Msg.rows m with
    | [] => c
    | r :: rest => rest.foldl (fun c r => c.serveSlice m false r) (c.serveSlice m ecc r)

/-! Answers at the issuer. -/

/-- The tracker that an answer names: of the core in TXN, for the package that answers. -/
def Chip.trkOf (c : Chip) (m : Msg) : Option Trk :=
  ((c.core (m.txn.toNat / 1024)).trks).find? (fun t => t.id = m.txn.toNat % 1024 && t.pkg = m.src.toNat)

/-- A tracker is free again (R219); an answer of another package is counted (R248). -/
def Chip.dropTrk (c : Chip) (fc : Nat) (t : Trk) (answered : Bool) : Chip :=
  let k := c.core fc
  let k1 := { k with trks := k.trks.filter (fun u => u.id ≠ t.id) }
  (c.setCore fc (if answered && t.holder.counts then k1.count 0x33 1 else k1)).checkQuiesced

/-- The Global Address of a place (R148). -/
def keyAddr (pkg key : Nat) : Word := gaOf pkg (key % 2 ^ 50)

/-- Bytes keyed from a place on, added to those answered. -/
def putGot (got : SMap Byte) : Nat → List Byte → SMap Byte
  | _, [] => got
  | k, b :: t => putGot (SMap.set got k b) (k + 1) t

/-- A slot's load has all its answers (R79, R81, R89, R134). -/
def Chip.loadDone (c : Chip) (l : Loc) (pkg : Nat) (p : PendLoad) : Chip :=
  let s := { c.slot l with pend := none }
  let v := SMap.get 0 p.got 0
  match p.dst with
  | .scalar rd n sgn => c.retire l (s.setX rd (extend n sgn v.toNat))
  | .reserve rd key =>
    c.retire l { s.setX rd v with rsv := some (granuleOf (keyAddr pkg key)), rsvAt := (c.core l.fc.toNat).cycles }
  | .vector vd ty mode active => c.retireVec l (s.setV vd (loadedReg ty.toNat mode.toNat active p.got (s.vr vd)))
  | .storeCond rd => c.retire l (s.setX rd v)
  | .sweep _ => c.setSlot l { s with wait := none }
  | .frame => c

/-- An answer with data reaches a slot: the element that its tracker stands for. -/
def Chip.slotAnswer (c : Chip) (l : Loc) (t : Trk) (data : List Byte) : Chip :=
  let s := c.slot l
  match s.pend with
  | none => c
  | some p =>
    match p.want.find? (fun w => w.1 = t.id) with
    | none => c
    | some w =>
      let q := { p with want := p.want.filter (fun u => u.1 ≠ t.id), got := SMap.set p.got w.2 (w64 (leNat (data.take 8))) }
      let c1 := match p.dst with
        | .sweep key => c.setSlot l { s with swGot := putGot s.swGot key data, pend := some q }
        | _ => c.setSlot l { s with pend := some q }
      if q.want.isEmpty then c1.loadDone l t.pkg q else c1

/-- Bytes answered to an engine; it may work on once no read is open, or where it waits for a tracker (R246). -/
def Chip.engineAnswer (c : Chip) (fc e key : Nat) (data : List Byte) : Chip :=
  let g := (c.core fc).engine e
  let open_ := g.asked.filter (fun k => k ≠ key)
  c.setCore fc ((c.core fc).setEngine e { g with
    got := putGot g.got key data, asked := open_, wait := if g.wait = some .lateRemote ∧ open_ ≠ [] then g.wait else none })

/-- The location of a slot of a core. -/
def locOf (fc k : Nat) : Loc := { fc := BitVec.ofNat 6 fc, slot := BitVec.ofNat 3 k }

/-- Bytes answered to a text job. -/
def TextJob.answered (j : TextJob) (t : Trk) (data : List Byte) : TextJob :=
  if j.ctx = t.ctx ∧ t.addr ∈ j.asked then { j with got := putGot j.got t.addr data, asked := j.asked.filter (fun k => k ≠ t.addr) } else j

/-- Bytes answered to a video job. -/
def VidJob.answered (j : VidJob) (t : Trk) (data : List Byte) : VidJob :=
  if j.ctx = t.ctx ∧ t.addr ∈ j.asked then { j with got := putGot j.got t.addr data, asked := j.asked.filter (fun k => k ≠ t.addr) } else j

/-- An answer that carries data: RD_DATA and RSV_RESULT. -/
def Chip.takeData (c : Chip) (m : Msg) (ok : TrkKind → Bool) : Chip :=
  let fc := m.txn.toNat / 1024
  match c.trkOf m with
  | none => c
  | some t =>
    if ok t.kind = false then c
    else
      let c1 := c.dropTrk fc t true
      let data := sliceB m.data 0 t.size
      match t.holder with
      | .slot k => c1.slotAnswer (locOf fc k) t data
      | .engine e => c1.engineAnswer fc e t.addr data
      | .text => { c1 with txu := { c1.txu with jobs := c1.txu.jobs.map (fun j => j.answered t data) } }
      | .video => { c1 with vid := { c1.vid with jobs := c1.vid.jobs.map (fun j => j.answered t data) } }
      | .gone => c1

/-- A store buffer without the entry that a tracker stands for. -/
def Core.ackStore (k : Core) (t : Trk) : Core :=
  { k with storeBuf := k.storeBuf.filter (fun e => !(e.sent && e.trk = t.id)) }.refill

/-- An engine that waited on its writes alone waits no longer once the last of them is acknowledged (R246). -/
def Chip.engineAcked (c : Chip) (fc : Nat) (t : Trk) : Chip :=
  match t.holder with
  | .engine e =>
    let k := c.core fc
    let g := k.engine e
    if g.wait = some .lateRemote ∧ g.asked = [] ∧ k.engineOutstanding e = false then c.setCore fc (k.setEngine e { g with wait := none }) else c
  | _ => c

/-- WR_ACK: a write is performed at its home (R132, R137). -/
def Chip.takeAck (c : Chip) (m : Msg) : Chip :=
  let fc := m.txn.toNat / 1024
  match c.trkOf m with
  | none => c
  | some t =>
    if t.kind = .write ∨ t.kind = .bulk ∨ t.kind = .bcast then (c.dropTrk fc t true).engineAcked fc t
    else if t.kind = .storeBuf then
      let c1 := c.dropTrk fc t true
      c1.setCore fc ((c1.core fc).ackStore t)
    else c

/-- SM_ACK: the sender's credit returns (R225). -/
def Chip.takeCredit (c : Chip) (m : Msg) : Chip :=
  match c.trkOf m with
  | none => c
  | some t => if t.kind = .message then c.dropTrk (m.txn.toNat / 1024) t true else c

/-! Operations that end without their answer (R141, R470, R473, R485). -/

/-- The holder of an operation stops: a slot that waits for it, a store in the buffer, an engine's command. -/
def Core.lose (k : Core) (t : Trk) : Core :=
  let k1 := { k with trks := k.trks.filter (fun u => u.id ≠ t.id) }
  match t.holder with
  | .gone => k1
  | .text => k1
  | .video => k1
  | .slot i =>
    let k2 := k1.ackStore t
    let s := k2.slot i
    if s.pend.isSome then k2.setSlot i { s with pend := none, stopped := true, wait := none } else k2
  | .engine e =>
    let g := k1.engine e
    k1.setEngine e { g with queue := g.queue.map (fun x => if x.ctx = t.ctx ∧ (x.phase = .started ∨ g.current = some x) then { x with killed := true } else x) }

/-- An operation ends, and with it its Request (R141); one of a Request that KILL has ended is only over. -/
def Chip.loseOp (c : Chip) (fc : Nat) (t : Trk) (status : Nat) (detail : BitVec 32) : Chip :=
  let c1 := c.setCore fc ((c.core fc).lose t)
  if t.holder = .gone then c1.checkQuiesced else c1.endReq t.ctx status detail

/-- A slice read that a REFUSE answers: the engines that wait for it (R277, R279, R473). -/
def Chip.loseSlice (c : Chip) (fc : Nat) (m : Msg) : Chip :=
  match ((c.core fc).engine 1).current with
  | none => c
  | some x =>
    if x.ctx ≠ m.ctx.toNat % 2 ^ 17 ∨ !(((c.core fc).engine 1).asked.any (fun k =>
        (k - 2 ^ 100) / 2 ^ 73 = bits m.addr 5 0 ∧ (k - 2 ^ 100) / 2 ^ 33 % 2 ^ 40 = m.position.toNat)) then c
    else
      let c1 := c.setCore fc { c.core fc with trks := (c.core fc).trks.filter (fun t => !(t.holder = Holder.engine 1 ∧ 2 ^ 100 ≤ t.addr)) }
      if m.cause = 2 then c1.failCmd fc 1 x 0x11 0x40
      else (c1.setCmd fc 1 { x with killed := true }).endReq x.ctx 0x15 (detailRemote m.src.toNat true)

/-- An uncorrectable error in an answer to a slot or an engine (R157). -/
def Chip.losePoison (c : Chip) (fc : Nat) (t : Trk) : Chip :=
  match t.holder with
  | .gone => c.dropTrk fc t false
  | .text => c.loseOp fc t 0x11 (detailOf 0x41 0x40)
  | .video => c.loseOp fc t 0x11 (detailOf 0x42 0x40)
  | .slot _ => c.loseOp fc t 0x11 (detailOf fc 0x40)
  | .engine e =>
    match ((c.core fc).engine e).current with
    | some x => (c.dropTrk fc t false).failCmd fc e x 0x11 0x40
    | none => c.dropTrk fc t false

/-- REFUSE (R473): CAUSE 1 a lock tag, 2 poison, 3 a collective that has ended, which the root hears from a participant. -/
def Chip.takeRefuse (c : Chip) (m : Msg) : Chip :=
  let fc := m.txn.toNat / 1024
  if m.cause = 3 then
    (if Msg.root m = c.self then c.rootAbort (bits m.position 15 0 = 1) (Msg.name m) (bits m.position 63 16) (m.txn = 1)
     else c.collLost (bits m.position 15 0) (Msg.root m) (Msg.name m) (Msg.root m))
  else if m.len = 8 then (List.range 64).foldl (fun c fc => c.loseSlice fc m) (c.copyAnswer m (fun _ c => c))
  else if m.cause = 1 then
    match (if m.position = 1 then none else c.trkOf m) with
    | some t => c.loseOp fc t 0x15 (detailRemote m.src.toNat true)
    | none => if m.position = 1 then c.endReq (m.ctx.toNat % 2 ^ 17) 0x15 (detailRemote m.src.toNat true) else c
  else if m.cause = 2 then
    match c.trkOf m with
    | some t => c.losePoison fc t
    | none => c
  else c

/-- An operation without answer for REMOTE_TIMEOUT (R470); nothing here waits on this package itself. -/
def Chip.timeOut (c : Chip) (fc id : Nat) : Chip :=
  match (c.core fc).trks.find? (fun t => t.id = id && t.pkg ≠ c.self) with
  | some t => c.loseOp fc t 0x15 (detailRemote t.pkg false)
  | none => c

/-! Short Messages (R225, R237). -/

/-- The 64 bytes of a message with those from LEN on set to 0. -/
def smBytes (b : List Byte) : List Byte :=
  let n := 16 + Nat.min 48 (fieldB b 0x0D 1)
  sliceB (b.take n) 0 64

/-- Whether a message notifies, and its queue. -/
def Msg.notify (m : Msg) : Bool := fieldB m.data 0x0C 1 / 128 = 1
/-- DEST_HQ. -/
def Msg.destHq (m : Msg) : Nat := fieldB m.data 0x0C 1 % 128

/-- A message is written, its handle put, and the sender's credit returned. -/
def Chip.deliverSm (c : Chip) (fc : Nat) (m : Msg) : Chip :=
  let c1 := c.putAt (msgOff m) (smBytes m.data)
  let c2 := if Msg.notify m then
      c1.hqAdd fc (Msg.destHq m) (w64 (fieldB m.data 8 4)) (if m.src.toNat = c.self then some (m.ctx.toNat % 2 ^ 17) else none)
    else c1
  if m.src.toNat = c.self then
    match c2.trkOf m with
    | some t => if t.kind = .message ∨ t.kind = .ownMessage then c2.dropTrk (m.txn.toNat / 1024) t false else c2
    | none => c2
  else c2.answer m 0x14 []

/-- A Short Message of another package arrives (R225): with EN = 0 it is written at once; else it waits for SMSG_DELIVER. -/
def Chip.takeSm (c : Chip) (m : Msg) : Chip :=
  if c.tagOk m = false then c.refuseTag m false
  else
    match poolCore (msgOff m) with
    | none => c.answer m 0x14 []
    | some fc =>
      if Msg.notify m then (c.wakePool (msgOff m)).setCore fc { c.core fc with smWaiting := (c.core fc).smWaiting ++ [m] }
      else c.deliverSm fc m

/-- The oldest waiting message of a core that can be delivered: its queue has room, and no earlier message waits for the same queue
(R142). -/
def Chip.smReady (c : Chip) (fc : Nat) : List Msg → List Nat → Option Msg
  | [], _ => none
  | m :: t, blocked =>
    if Msg.notify m = false then some m
    else if Msg.destHq m ∉ blocked ∧ c.hqRoom fc (Msg.destHq m) = true then some m
    else c.smReady fc t (Msg.destHq m :: blocked)

/-- SMSG_DELIVER (R225). -/
def Chip.smDeliver (c : Chip) (fc : Nat) : Chip :=
  match c.smReady fc (c.core fc).smWaiting [] with
  | none => c
  | some m => (c.setCore fc { c.core fc with smWaiting := (c.core fc).smWaiting.erase m }).deliverSm fc m

/-! Slices at their home. -/

/-- SLICE_DATA reaches an engine that waits for it: its member is told by the rank of the package that answers (R254, R264). Columns of a member
that holds other registers and returns fewer bytes take free values (R253). -/
def Chip.sliceFor (c : Chip) (fc : Nat) (m : Msg) : Chip :=
  let member := c.rank m.src.toNat % c.groupSize
  let g := (c.core fc).engine 1
  match g.current with
  | none => c
  | some x =>
    match g.asked.find? (fun k => 2 ^ 100 ≤ k && (k - 2 ^ 100) / 2 ^ 73 = bits m.addr 5 0 &&
        (k - 2 ^ 100) / 2 ^ 33 % 2 ^ 40 = m.position.toNat && (k - 2 ^ 100) / 2 ^ 21 % 4096 = member) with
    | none => c
    | some key =>
      if x.ctx ≠ m.ctx.toNat % 2 ^ 17 then c
      else
        let mine := (c.core fc).trks.filter (fun t => t.holder = Holder.engine 1 ∧ t.addr = key)
        let k := { c.core fc with trks := (c.core fc).trks.filter (fun t => !(t.holder = Holder.engine 1 ∧ t.addr = key)) }
        let k1 := k.setEngine 1 { g with asked := g.asked.filter (fun j => j ≠ key) }
        let s := (c.table (bits m.addr 5 0)).slice c.groupSize
        let rest := (List.range (s - m.data.length)).map (fun i => (Config.freeWord (c.freeCtr + i)).setWidth 8)
        let c1 := c.setCore fc (k1.count 0x33 mine.length)
        ({ c1 with freeCtr := c1.freeCtr + rest.length }).engineAnswer fc 1 (sliceAt key) (m.data.take s ++ rest)

/-- SLICE_DATA (R264, R476). -/
def Chip.takeSlice (c : Chip) (m : Msg) : Chip := (List.range 64).foldl (fun c fc => c.sliceFor fc m) (c.copyAnswer m (fun _ c => c))

/-! Collectives and Bulk. -/

/-- A collective message that this package serves: with the lock tag (R51). -/
def Chip.collective (c : Chip) (m : Msg) (f : Chip → Chip) : Chip := if c.tagOk m then f c else c.refuseTag m true

/-- BULK_WR: rows land in a receive area (R480). -/
def Chip.takeBulk (c : Chip) (m : Msg) : Chip :=
  c.atHome m (fun c => ((c.homeWrite m (msgOff m) (sliceB m.data 0 (msgLen m))).answer m 0x12 []).a2aLanded (msgOff m) (msgLen m))

/-- BCAST_DATA: the bytes are performed and acknowledged (R481). -/
def Chip.takeBcast (c : Chip) (m : Msg) : Chip :=
  c.atHome m (fun c => (c.homeWrite m (msgOff m) (sliceB m.data 0 (msgLen m))).answer m 0x12 [])

/-- RESULT (R475, R480): of a reduction or selection, or of an all-to-all. -/
def Chip.takeResult (c : Chip) (m : Msg) : Chip :=
  if m.position = 2 then c.a2aResultHere m.src.toNat (Msg.name m) m.cause.toNat
  else c.resultHere (bits m.position 15 0) (Msg.root m) (Msg.name m) (bits m.position 63 16) m.cause.toNat m.data

/-- What a message does at the package that it is for, by its type; the register and epoch messages have rows of their own. -/
def Chip.serve (c : Chip) (m : Msg) (ecc : Bool) : Chip :=
  let t := m.mtype.toNat
  if t = 0x01 then c.serveRd m
  else if t = 0x02 then c.serveWr m
  else if t = 0x03 then c.serveRsv m
  else if t = 0x04 then c.serveStc m
  else if t = 0x06 then c.serveSliceRd m ecc
  else if t = 0x11 then c.takeData m (fun k => k = .read ∨ k = .reserve)
  else if t = 0x12 then c.takeAck m
  else if t = 0x13 then c.takeData m (fun k => k = .storeCond)
  else if t = 0x14 then c.takeCredit m
  else if t = 0x1F then c.takeRefuse m
  else if t = 0x21 ∨ t = 0x22 then c.collective m (fun c =>
    if Msg.isList m then c.rootList (Msg.name m) ((List.range (m.data.length / 8)).map (fun i => fieldB m.data (8 * i) 8))
    else c.rootChunk (Msg.name m) (chunkOf m))
  else if t = 0x23 then c.collective m (fun c => c.rootJoin (m.cause = 1) (Msg.name m) (joinerOf m))
  else if t = 0x24 then c.takeResult m
  else if t = 0x25 then
    c.collective m (fun c => c.a2aCount (Msg.name m) (fieldB m.data 0 2) m.src.toNat (fieldB m.data 4 4) (fieldB m.data 2 2) (fieldB m.data 8 2)
      (fieldB m.data 12 4) (fieldB m.data 16 8 % 2 ^ 50))
  else if t = 0x26 then c.a2aOffsetHere m.src.toNat (Msg.name m) (fieldB m.data 0 2) (fieldB m.data 8 8)
  else if t = 0x31 then c.takeSm m
  else if t = 0x51 then c.takeSlice m
  else if t = 0x52 then c.takeBcast m
  else if t = 0x53 then c.takeBulk m
  else c

/-- Messages that waited here for a power domain are served again (R504). -/
def Chip.serveWaiting (c : Chip) : Chip :=
  (c.net.inbox).foldl (fun c m => c.serve m false) { c with net := { c.net with inbox := [] } }

/-- A message of a row of the table: its type is the row's. A package without power or clocks takes none. -/
def Chip.message (c : Chip) (t : Nat) (m : Msg) (ecc : Bool) : Chip :=
  let q := { m with mtype := BitVec.ofNat 8 t }
  if c.hubOn then c.arrive none q (fun q c => c.serve q ecc) else c

/-! Rows. -/

/-- RD (R472). -/
def execRd (m : Msg) (s : State) : Host.Outcome State Fault Refusal := s.run (fun c => c.message 0x01 m false)
/-- WR (R472). -/
def execWr (m : Msg) (s : State) : Host.Outcome State Fault Refusal := s.run (fun c => c.message 0x02 m false)
/-- RSV_RD (R472). -/
def execRsvRd (m : Msg) (s : State) : Host.Outcome State Fault Refusal := s.run (fun c => c.message 0x03 m false)
/-- STC (R472). -/
def execStc (m : Msg) (s : State) : Host.Outcome State Fault Refusal := s.run (fun c => c.message 0x04 m false)
/-- PFH_MESSAGE: a hint has no effect at its home and no answer (R86, R472). -/
def execPfhMessage (m : Msg) (s : State) : Host.Outcome State Fault Refusal := s.run (fun c => c.message 0x05 m false)
/-- SLICE_RD (R264). -/
def execSliceRd (m : Msg) (ecc : Bool) (s : State) : Host.Outcome State Fault Refusal := s.run (fun c => c.message 0x06 m ecc)
/-- RD_DATA (R472). -/
def execRdData (m : Msg) (s : State) : Host.Outcome State Fault Refusal := s.run (fun c => c.message 0x11 m false)
/-- WR_ACK (R472). -/
def execWrAck (m : Msg) (s : State) : Host.Outcome State Fault Refusal := s.run (fun c => c.message 0x12 m false)
/-- RSV_RESULT (R472). -/
def execRsvResult (m : Msg) (s : State) : Host.Outcome State Fault Refusal := s.run (fun c => c.message 0x13 m false)
/-- SM_ACK (R225). -/
def execSmAck (m : Msg) (s : State) : Host.Outcome State Fault Refusal := s.run (fun c => c.message 0x14 m false)
/-- REFUSE (R473). -/
def execRefuse (m : Msg) (s : State) : Host.Outcome State Fault Refusal := s.run (fun c => c.message 0x1F m false)
/-- CONTRIB (R474). -/
def execContrib (m : Msg) (s : State) : Host.Outcome State Fault Refusal := s.run (fun c => c.message 0x21 m false)
/-- HIST (R474). -/
def execHist (m : Msg) (s : State) : Host.Outcome State Fault Refusal := s.run (fun c => c.message 0x22 m false)
/-- JOIN (R475). -/
def execJoin (m : Msg) (s : State) : Host.Outcome State Fault Refusal := s.run (fun c => c.message 0x23 m false)
/-- RESULT (R475). -/
def execResult (m : Msg) (s : State) : Host.Outcome State Fault Refusal := s.run (fun c => c.message 0x24 m false)
/-- A2A_COUNT (R480). -/
def execA2aCount (m : Msg) (s : State) : Host.Outcome State Fault Refusal := s.run (fun c => c.message 0x25 m false)
/-- A2A_OFFSET (R480). -/
def execA2aOffset (m : Msg) (s : State) : Host.Outcome State Fault Refusal := s.run (fun c => c.message 0x26 m false)
/-- SMSG_MESSAGE (R225). -/
def execSmsgMessage (m : Msg) (s : State) : Host.Outcome State Fault Refusal := s.run (fun c => c.message 0x31 m false)
/-- SMSG_DELIVER (R225). -/
def execSmsgDeliver (fc : BitVec 6) (s : State) : Host.Outcome State Fault Refusal := s.run (fun c => c.smDeliver fc.toNat)
/-- SLICE_DATA (R264). -/
def execSliceData (m : Msg) (s : State) : Host.Outcome State Fault Refusal := s.run (fun c => c.message 0x51 m false)
/-- BCAST_DATA (R481). -/
def execBcastData (m : Msg) (s : State) : Host.Outcome State Fault Refusal := s.run (fun c => c.message 0x52 m false)
/-- BULK_WR (R480). -/
def execBulkWr (m : Msg) (s : State) : Host.Outcome State Fault Refusal := s.run (fun c => c.message 0x53 m false)
/-- REMOTE_TIMEOUT (R470). -/
def execRemoteTimeout (fc : BitVec 6) (txn : BitVec 10) (s : State) : Host.Outcome State Fault Refusal :=
  s.run (fun c => c.timeOut fc.toNat txn.toNat)

end Sys2Proof.Machine
end

