-- ==== Sys2Proof/Machine/Epoch.lean ====
section
/-! DEFINITION. Link states as the network sees them (R432, R609), fabric epochs (R482 to R493) and joining (R559, R560, R610). -/

namespace Sys2Proof.Machine

/-! Links. -/

/-- A counter of a link: 0 FLITS_TX, 1 FLITS_RX, 2 CW_CORR_SYM, 3 CW_UNCORR, 4 CRC_FAIL, 5 REPLAYS, 6 RETRAINS, 7 DOWNS, 8 ISO_DROP,
9 LTEST_ERR, 10 REPLAY_FULL (R454). -/
def Link.tally (k : Link) (i n : Nat) : Link := { k with counters := SMap.set k.counters i (SMap.get 0 k.counters i + w64 n) }

/-- A LINK_ERR bit set. -/
def Link.raise (k : Link) (i : Nat) : Link := { k with err := k.err ||| BitVec.ofNat 8 (2 ^ i) }

/-- A LINK_STATE entry (R609). -/
def Chip.logLink (c : Chip) (n : Nat) (old new : LinkState) : Chip :=
  let k := c.link n
  c.log 0x0020 1 (0x50 + n) ([BitVec.ofNat 8 n, BitVec.ofNat 8 old.code, BitVec.ofNat 8 new.code, k.err] ++ leBytes 2 k.peerPkg.toNat)

/-- The LTEST flits of a test (R452, R454). -/
def Link.testLength (k : Link) : Nat := 2 ^ clampNat 16 32 (bits k.ctrl 15 8)

/-- A link test starts (R452): both results are cleared, and the PRBS31 streams of its bodies start again (R437). -/
def Link.startTest (k : Link) : Link :=
  { k with testDone := false, testPass := false, testLeft := some k.testLength, testBad := false, testSyms := 0, testCws := 0,
           testWaits := false, ltTx := 0x7FFFFFFF, ltRx := 0x7FFFFFFF }

/-- A link enters a state; entry to ISOLATED or ACTIVE is logged. -/
def Chip.moveLink (c : Chip) (n : Nat) (st : LinkState) : Chip :=
  let old := (c.link n).state
  let c1 := c.setLink n { c.link n with state := st }
  if (st = .isolated ∨ st = .active) ∧ old ≠ st then c1.logLink n old st else c1

/-- The links of this package that are up. -/
def Chip.upLinks (c : Chip) : List Nat := (List.range 24).filter (fun n => (c.link n).up)

/-! Reports (R483, R559). -/

/-- A report goes out on each up link but the one it came on. -/
def Chip.flood (c : Chip) (r : Report) (from_ : Option Nat) : Chip :=
  (c.upLinks.filter (fun n => from_ ≠ some n)).foldl (fun c n => c.emit (.report n r)) { c with net := { c.net with seen := r :: c.net.seen } }

/-- Both ends of a link, each by its package and number. -/
def Chip.ends (c : Chip) (e : Nat × Nat) : List (Nat × Nat) := [e, c.otherEnd e]

/-- The links that a list of reports says are down. -/
def Chip.downs (c : Chip) (l : List Report) : List (Nat × Nat) :=
  l.flatMap (fun r => match r with | .linkDown p n => c.ends (p, n) | _ => [])

/-- The ends that a list of reports says are in ISOLATED with TEST_PASS = 1. -/
def readies (l : List Report) : List (Nat × Nat) := l.filterMap (fun r => match r with | .linkReady p n => some (p, n) | _ => none)

/-- The packages that report a join, with their lock tags. -/
def joins (l : List Report) : List (Nat × BitVec 32) := l.filterMap (fun r => match r with | .join p t => some (p, t) | _ => none)

/-- Whether the installation is at epoch 0 as far as this package and its peers' training sets say. -/
def Chip.epochZero (c : Chip) : Bool :=
  c.net.epoch = 0 && c.upLinks.all (fun n => !(c.link n).peerS9 || fieldB (c.link n).lastTs 0x20 4 = 0)

/-- The packages among which the lowest is the coordinator (R484, R559): the live S9 packages, and at epoch 0 those whose join report has
come. -/
def Chip.candidates (c : Chip) : List Nat :=
  c.net.live.filter (fun p => c.liveS9 p) ++ (if c.epochZero then (joins c.net.reports).map (fun j => j.1) else [])

/-- The lowest number of a list. -/
def lowest : List Nat → Option Nat
  | [] => none
  | a :: t => match lowest t with | none => some a | some b => some (Nat.min a b)

/-- Whether this package is the coordinator. -/
def Chip.coordinates (c : Chip) : Bool := lowest c.candidates = some c.self

/-! The plan of an epoch change. -/

/-- The packages that the reports say are lost (R483, R610). -/
def Chip.lostNow (c : Chip) (down : List (Nat × Nat)) : List Nat :=
  c.net.live.filter (fun p =>
    let mine := c.net.links.filter (fun e => e.1 = p)
    (!mine.isEmpty && mine.all (fun e => e ∈ down)) || (joins c.net.reports).any (fun j => j.1 = p))

/-- The change that the gathered reports make (R484, R485, R559, R560, R610), with losses forced by FREEZE_LIMIT. A SHRINK takes no package
in. Where a package joins, the join set names every member and every link of the new epoch, so that it learns them. -/
def Chip.planNow (c : Chip) (forced : List Nat) : EpochPlan :=
  let down := c.downs c.net.reports
  let removed := c.net.links.filter (fun e => e ∈ down)
  let lost := (forced ++ c.lostNow down).eraseDups
  let grow := lost.isEmpty && removed.isEmpty
  let joined := if grow then ((joins c.net.reports).filter (fun j => j.1 ∉ c.net.live ∧ j.2 = c.lockTag)).map (fun j => j.1) else []
  let live := c.net.live.filter (fun p => p ∉ lost) ++ joined
  let ready := readies c.net.reports
  let added := ready.filter (fun e => c.otherEnd e ∈ ready && e.1 ∈ live && (c.otherEnd e).1 ∈ live && e ∉ down && e ∉ c.net.links)
  { epoch := c.net.epoch + 1, grow := grow, coord := BitVec.ofNat 12 c.self, lost := lost, removed := removed,
    joined := if joined.isEmpty then [] else live.eraseDups, added := (if joined.isEmpty then added else c.net.links ++ added).eraseDups }

/-- Whether the gathered reports hold a change (R483). -/
def Chip.changeDue (c : Chip) : Bool :=
  let p := c.planNow []
  !p.lost.isEmpty || !p.removed.isEmpty || !p.added.isEmpty || !(joins c.net.reports).isEmpty ||
    c.net.reports.any (fun r => match r with | .request _ => true | _ => false)

/-- A package freezes (R484): new operations wait from here on. A reissued FREEZE restarts the drain (R490). -/
def Chip.freezeNow (c : Chip) (p : EpochPlan) : Chip :=
  { c with net := { c.net with
      plan := some p, phase := .freeze, drained := [],
      frozenSince := if c.net.phase = .freeze ∨ c.net.phase = .drained then c.net.frozenSince else c.tide } }

/-- A join whose tag differs from the coordinator's is refused and logged as CONFIG; what item and key slot the entry names is not
stated (R559). -/
def Chip.refuseJoins (c : Chip) : Chip :=
  ((joins c.net.reports).filter (fun j => j.1 ∉ c.net.live ∧ j.2 ≠ c.lockTag)).foldl (fun c _ =>
    c.spend.log 0x0005 0 0x44 (leBytes 2 (c.free.toNat % 65536))) c

/-- The coordinator sends FREEZE and freezes itself (R484). -/
def Chip.sendFreeze (c : Chip) (p : EpochPlan) : Chip := ((c.emit (.freeze p)).freezeNow p).refuseJoins

/-- A report is gathered (R483, R484, R490): the first change starts Collect; during a change the coordinator reissues FREEZE with the
union. A report that a link is down takes back one that it is ready, and of a link outside the link set the other way round. -/
def Chip.gather (c : Chip) (r : Report) : Chip :=
  let kept := match r with
    | .linkDown p n => c.net.reports.filter (fun q => match q with | .linkReady a b => (a, b) ∉ c.ends (p, n) | _ => true)
    | .linkReady p n =>
      c.net.reports.filter (fun q => match q with | .linkDown a b => (a, b) ∉ c.ends (p, n) || (p, n) ∈ c.net.links | _ => true)
    | .join p _ => c.net.reports.filter (fun q => match q with | .join a _ => a ≠ p | _ => true)
    | _ => c.net.reports
  let c1 := { c with net := { c.net with reports := if r ∈ kept then kept else kept ++ [r] } }
  match c1.net.phase, c1.net.plan with
  | .run, _ => if c1.changeDue then { c1 with net := { c1.net with phase := .collect } } else c1
  | .collect, _ => c1
  | _, some p =>
    let q := c1.planNow p.lost
    if p.coord.toNat = c1.self ∧ (q.lost ≠ p.lost ∨ q.removed ≠ p.removed ∨ q.joined ≠ p.joined ∨ q.added ≠ p.added) then c1.sendFreeze q
    else c1
  | _, none => c1

/-- A change that this package reports: it floods it and gathers it itself. -/
def Chip.reportChange (c : Chip) (r : Report) : Chip := (c.flood r none).gather r

/-- EPOCH_REPORT: forwarded once, and gathered (R483). -/
def Chip.takeReport (c : Chip) (n : Nat) (r : Report) : Chip :=
  if (c.link n).up = false ∨ r ∈ c.net.seen then c else (c.flood r (some n)).gather r

/-- The join report of a DISCOVERED package that holds the lock (R559). -/
def Chip.joinReport (c : Chip) : Chip :=
  if c.rst.phase = .discovered ∧ c.locked = true then c.reportChange (.join c.self c.lockTag) else c

/-- A link goes down (R432): it discards its replay buffer and queues, sets LINK_ERR.DOWN and reports the loss, where it is in
the link set or was reported ready (R483); a test under way is abandoned (R452). -/
def Chip.linkDown (c : Chip) (n : Nat) (to_ : LinkState) : Chip :=
  let k := c.link n
  let k1 := ({ k with
    state := to_, replay := [], resend := [], resends := 0, txq := [], held := [], testLeft := none, testWaits := false, badCws := 0 }.raise 5).tally 7 1
  let mask : BitVec 24 := ~~~(BitVec.ofNat 24 (2 ^ n))
  let c1 := c.setLink n k1
  let c2 := { c1 with rst := { c1.rst with qualified := c1.rst.qualified &&& mask, bad := c1.rst.bad &&& mask } }
  let c3 := c2.logLink n k.state to_
  if (c.self, n) ∈ c.net.links ∨ .linkReady c.self n ∈ c.net.reports then c3.reportChange (.linkDown c.self n) else c3

/-! The phases. -/

/-- FREEZE arrives (R484): for the next epoch, or for a package that has not joined. -/
def Chip.takeFreeze (c : Chip) (p : EpochPlan) : Chip :=
  if p.epoch = c.net.epoch + 1 ∨ c.self ∉ c.net.live then c.freezeNow p else c

/-- Whether the router carries no flit of channels 0, 2, 3 and 5 and the HUB holds no operation unanswered (R484). -/
def Chip.quiet (c : Chip) : Bool :=
  c.net.inbox.isEmpty && c.net.via.isEmpty &&
    (List.range 24).all (fun n => (c.link n).txq.all (fun p => p.1 % 6 = 1 || p.1 % 6 = 4 || p.2.isEmpty))

/-- A drained package is recorded by the coordinator, which commits once all live packages, and those that join, have drained (R484). -/
def Chip.noteDrained (c : Chip) (pkg : Nat) : Chip :=
  match c.net.plan with
  | none => c
  | some p =>
    if p.coord.toNat ≠ c.self ∨ pkg ∈ c.net.drained then c
    else
      let c1 := { c with net := { c.net with drained := pkg :: c.net.drained } }
      let members := c.net.live.filter (fun q => q ∉ p.lost) ++ p.joined
      if members.all (fun q => q ∈ c1.net.drained) then c1.emit (.commit p.epoch) else c1

/-- DRAIN_QUIET (R484). -/
def Chip.drainQuiet (c : Chip) : Chip :=
  match c.net.plan with
  | none => c
  | some p =>
    if c.net.phase = .freeze ∧ c.quiet = true then
      ({ c with net := { c.net with phase := .drained } }.emit (.drained c.self p.epoch)).noteDrained c.self
    else c

/-- The package that DETAIL names at a SHRINK commit (R485). -/
def Chip.shrinkPkg (c : Chip) (p : EpochPlan) : Nat :=
  match lowest p.lost with
  | some q => q
  | none =>
    let low := p.removed.filter (fun e => e.1 ≤ (c.otherEnd e).1)
    match low.foldl (fun best e =>
      match best with
      | none => some e
      | some (b : Nat × Nat) => if e.1 < b.1 ∨ (e.1 = b.1 ∧ e.2 < b.2) then some e else some b) none with
    | some e => (c.otherEnd e).1
    | none => 0

/-- Every operation that this package issued and that is unanswered ends (R485); OPS_ENDED counts them. -/
def Chip.endOps (c : Chip) (pkg : Nat) : Chip :=
  (List.range 64).foldl (fun c fc =>
    let mine := (c.core fc).trks.filter (fun t => t.pkg ≠ c.self)
    mine.foldl (fun c t => (c.loseOp fc t 0x15 (detailRemote pkg false)).netCount 2 1) c) c

/-- Whether a command takes part in a collective that is not complete: SCATTER, a collective SELECT or A2A under way. -/
def EngCmd.inCollective (x : EngCmd) (e : Nat) : Bool :=
  !x.sub.isEmpty && ((e = 2 && x.field 0 1 = 6) || (e = 3 && x.bit 0x1D 1) || (e = 0 && x.field 0 1 = 2))

/-- Every collective not yet complete ends on this package (R485, R308, R326). -/
def Chip.endCollectives (c : Chip) (pkg : Nat) : Chip :=
  let c1 := (List.range 64).foldl (fun c fc => [0, 2, 3].foldl (fun c e =>
    match ((c.core fc).engine e).current with
    | some x => if x.inCollective e then c.lostCmd fc e x pkg else c
    | none => c) c) c
  { c1 with conf := { roots := [], merges := [], a2a := [] } }

/-- The links of this package move between ISOLATED and ACTIVE as the link set says (R434). A test that started in ACTIVE and has waited
runs from here (R452). -/
def Chip.moveLinks (c : Chip) : Chip :=
  (List.range 24).foldl (fun c n =>
    let k := c.link n
    if k.state = .isolated ∧ (c.self, n) ∈ c.net.links ∧ k.testPass = true then c.moveLink n .active
    else if k.state = .active ∧ (c.self, n) ∉ c.net.links then
      (c.setLink n (if k.testWaits then k.startTest else k)).moveLink n .isolated
    else c) c

/-- The reports that outlive a commit: ends that are ready and not in the link set, and joins that no GROW commit has settled (R610). -/
def Report.stays (live : List Nat) (links : List (Nat × Nat)) (grow : Bool) : Report → Bool
  | .linkReady p n => (p, n) ∉ links
  | .join p _ => p ∉ live && !grow
  | _ => false

/-- The packages that are no S9, as far as the training sets of this package's links say (R436, R488); routes change only at a commit (R482). -/
def Chip.partnersNow (c : Chip) : List Nat :=
  let said := fun (s9 : Bool) => (c.upLinks.filter (fun n => (c.link n).peerS9 = s9)).map (fun n => (c.link n).peerPkg.toNat)
  (said false ++ c.net.partners.filter (fun p => p ∉ said true)).eraseDups

/-- COMMIT (R485, R486, R492, R560): tables are swapped, a SHRINK ends what is unanswered, links move, and a package that joins steps
Tide. -/
def Chip.commit (c : Chip) (p : EpochPlan) (tide : Word) : Chip :=
  let live := (c.net.live.filter (fun q => q ∉ p.lost) ++ p.joined).eraseDups
  let gone := fun (e : Nat × Nat) => e ∈ p.removed || e.1 ∈ p.lost || (c.otherEnd e).1 ∈ p.lost
  let links := (c.net.links.filter (fun e => !gone e) ++ p.added).eraseDups
  let joins_ : Bool := c.self ∈ p.joined && c.self ∉ c.net.live
  let c1 := if p.grow then c else (c.endOps (c.shrinkPkg p)).endCollectives (c.shrinkPkg p)
  let c2 := { c1 with net := { c1.net with
    epoch := p.epoch, live := live, links := links, partners := c1.partnersNow, coord := p.coord, plan := none, phase := .drained, drained := [], seen := [],
    reports := c1.net.reports.filter (Report.stays live links p.grow) } }
  let c3 := if joins_ then { c2 with tide := tide, rst := { c2.rst with phase := .joined } } else c2
  ((c3.netCount 0 1).log 0x0021 0 0x43
    (leBytes 4 p.epoch.toNat ++ [if p.grow then 0 else 1] ++ leBytes 2 p.coord.toNat ++ leBytes 2 p.lost.length)).moveLinks

/-- EPOCH_COMMIT for the epoch that was announced. -/
def Chip.takeCommit (c : Chip) (epoch : BitVec 32) (tide : Word) : Chip :=
  match c.net.plan with
  | some p => if p.epoch = epoch then c.commit p tide else c
  | none => c

/-- RESUME: injection resumes on the new routes; FREEZE_NS takes the time frozen (R484). -/
def Chip.resume (c : Chip) : Chip :=
  if c.net.phase = .drained ∧ c.net.plan = none then
    let held := c.net.held
    let c1 := { c with net := { c.net with phase := .run, held := [] } }
    let c2 := c1.netCount 1 (c.tide - c.net.frozenSince).toNat
    let c3 := if c2.changeDue then { c2 with net := { c2.net with phase := .collect } } else c2
    held.foldl (fun c m => c.send m) c3
  else c

/-- COLLECT ends: the coordinator sends FREEZE (R484). -/
def Chip.collectOver (c : Chip) : Chip :=
  if c.net.phase = .collect ∧ c.coordinates = true then c.sendFreeze (c.planNow []) else c

/-- A package that has not drained within FREEZE_LIMIT is lost (R483): the coordinator reissues FREEZE. -/
def Chip.freezeOver (c : Chip) (pkg : Nat) : Chip :=
  match c.net.plan with
  | none => c
  | some p =>
    if p.coord.toNat = c.self ∧ pkg ∈ c.net.live ++ p.joined ∧ pkg ∉ c.net.drained ∧ pkg ∉ p.lost then c.sendFreeze (c.planNow (p.lost ++ [pkg]))
    else c

/-- The next-lowest live S9 package becomes coordinator and reissues FREEZE (R491). -/
def Chip.failover (c : Chip) : Chip :=
  match c.net.plan with
  | none => c
  | some p =>
    if lowest (c.candidates.filter (fun q => p.coord.toNat < q)) = some c.self then c.sendFreeze { p with coord := BitVec.ofNat 12 c.self }
    else c

/-! Rows. -/

/-- EPOCH_REPORT (R483). -/
def execEpochReport (link : Nat) (report : Report) (s : State) : Host.Outcome State Fault Refusal :=
  s.runIf (link < 24) (fun c => c.takeReport link report)
/-- EPOCH_FREEZE (R484). -/
def execEpochFreeze (plan : EpochPlan) (s : State) : Host.Outcome State Fault Refusal := s.run (fun c => c.takeFreeze plan)
/-- DRAIN_QUIET (R484). -/
def execDrainQuiet (s : State) : Host.Outcome State Fault Refusal := s.run (fun c => c.drainQuiet)
/-- EPOCH_DRAINED (R484). -/
def execEpochDrained (pkg : BitVec 12) (s : State) : Host.Outcome State Fault Refusal := s.run (fun c => c.noteDrained pkg.toNat)
/-- EPOCH_COMMIT (R485). -/
def execEpochCommit (epoch : BitVec 32) (tide : Word) (s : State) : Host.Outcome State Fault Refusal :=
  s.run (fun c => c.takeCommit epoch tide)
/-- EPOCH_RESUME (R484). -/
def execEpochResume (s : State) : Host.Outcome State Fault Refusal := s.run (fun c => c.resume)
/-- COLLECT_EXPIRY (R484). -/
def execCollectExpiry (s : State) : Host.Outcome State Fault Refusal := s.run (fun c => c.collectOver)
/-- FREEZE_LIMIT_EXPIRY (R483). -/
def execFreezeLimitExpiry (pkg : BitVec 12) (s : State) : Host.Outcome State Fault Refusal := s.run (fun c => c.freezeOver pkg.toNat)
/-- COORDINATOR_FAILOVER (R491). -/
def execCoordinatorFailover (s : State) : Host.Outcome State Fault Refusal := s.run (fun c => c.failover)
/-- NET_CMD_EPOCH: a write of NET_CMD.EPOCH reports a change (R483). -/
def execNetCmdEpoch (s : State) : Host.Outcome State Fault Refusal := s.run (fun c => c.reportChange (.request c.self))

end Sys2Proof.Machine
end

