-- ==== Sys2Proof/Machine/Links.lean ====
section
/-! DEFINITION. Sparline links: training (R432 to R436, R455, R458, R459), retry (R443 to R445), the link test (R452) and which links
qualify (R555, R556). -/

namespace Sys2Proof.Machine

/-! Retry. -/

/-- A link enters RETRAIN (R434): it keeps its replay buffer and sequence numbers, and a test under way in ISOLATED is abandoned. -/
def Chip.retrain (c : Chip) (n : Nat) : Chip :=
  let k := c.link n
  if k.up then
    let k1 := ({ k with
      state := .retrain, before := k.state, laneGood := [], laneRun := [], laneLast := [], laneDone := [], laneSent := [], eqSent := [],
      lastTs := [], tsSame := 0, agreed := [], ts2Sent := none, badCws := 0, held := [], testLeft := none, testDone := if k.testLeft.isSome then false else k.testDone }.raise 4).tally 6 1
    (c.setLink n k1).logLink n k.state .retrain
  else c

/-- SEQ distance modulo 4,096. -/
def seqDist (a b : Nat) : Nat := (b + 4096 - a % 4096) % 4096

/-- Whether an ACK_SEQ is taken (R443): between the newest acknowledged and the newest sent. -/
def Link.ackInRange (k : Link) (seq : Nat) : Bool := seqDist k.acked seq ≤ seqDist k.acked (k.txSeq + 4095)

/-- A taken ACK_SEQ releases every flit up to it (R443); progress ends a run of resends. -/
def Link.release (k : Link) (seq : Nat) : Link :=
  let n := seqDist k.acked seq
  if n = 0 then k
  else { k with acked := seq, resends := 0, replay := k.replay.drop n, resend := k.resend.filter (fun p => n < seqDist k.acked p.1) }

/-- Every unacknowledged flit is resent in order (R444); four resends in a row without progress put the link into RETRAIN (R445). -/
def Chip.startResend (c : Chip) (n : Nat) : Chip :=
  let k := c.link n
  if k.replay.isEmpty then c
  else if 4 ≤ k.resends then (c.setLink n { k with resends := 0 }).retrain n
  else c.setLink n ({ k with resend := k.replay, resends := k.resends + 1 }.tally 5 1)

/-- A flit stays unacknowledged for 20 µs (R444). -/
def Chip.replayTimeout (c : Chip) (n : Nat) : Chip :=
  let k := c.link n
  if k.up ∧ k.replay.isEmpty = false then (c.setLink n (k.raise 3)).startResend n else c

/-! Qualification. -/

/-- The other link number of the same index in the opposite direction. -/
def crossLink (n : Nat) : Nat := if n / 4 % 2 = 0 then n + 4 else n - 4

/-- A package leaves Bring-up Mode (R556): in BRINGUP, not held back by R554, with HBM ready and a link qualified. -/
def Chip.tryDiscover (c : Chip) : Chip :=
  if c.rst.phase = .bringup ∧ c.rst.unnumbered = false ∧ c.rst.strapLow = false ∧ c.rst.hbmReady = true ∧ c.rst.qualified ≠ 0 then
    { c with rst := { c.rst with phase := .discovered, bringupMode := false } }
  else c

/-- A link that fails a condition of R555 after its test: its BAD bit is set and LINK_STATE logged. -/
def Chip.badLink (c : Chip) (n : Nat) : Chip :=
  if c.rst.bad.getLsbD n then c
  else ({ c with rst := { c.rst with bad := c.rst.bad ||| BitVec.ofNat 24 (2 ^ n) } }).logLink n .isolated .isolated

/-- The read of a peer's NET_GEOM (R555). -/
def Chip.askGeom (c : Chip) (n : Nat) : Chip :=
  c.sendOn n { c.blankMsg 0x41 (c.link n).peerPkg.toNat with addr := 0x98000, len := 8 }

/-- A link in ISOLATED with TEST_PASS = 1 is checked against the geometry (R555): QUALIFIED, BAD, or its peer's sizes are asked for. -/
def Chip.qualify (c : Chip) (n : Nat) : Chip :=
  let k := c.link n
  if k.state ≠ .isolated ∨ k.testPass = false then c
  else if k.peerPkg.toNat ≠ c.neighbour c.self (n / 4) ∨ k.peerLink.toNat ≠ crossLink n then c.badLink n
  else
    let good := (({ c with rst := { c.rst with qualified := c.rst.qualified ||| BitVec.ofNat 24 (2 ^ n) } }).reportChange
      (.linkReady c.self n)).tryDiscover
    if k.peerS9 = false then good
    else
      match SMap.find c.net.peerGeom n with
      | none => c.askGeom n
      | some g => if bits g 11 0 = bits c.net.geom 11 0 then good else c.badLink n

/-! The link test. -/

/-- A write of LINK_CTRL.TEST (R452): in ISOLATED the test starts; in ACTIVE it waits for ISOLATED. -/
def Chip.linkTest (c : Chip) (n : Nat) : Chip :=
  let k := c.link n
  if k.state = .isolated then
    let mask : BitVec 24 := ~~~(BitVec.ofNat 24 (2 ^ n))
    { c.setLink n k.startTest with rst := { c.rst with qualified := c.rst.qualified &&& mask, bad := c.rst.bad &&& mask } }
  else if k.state = .active then c.setLink n { k with testDone := false, testPass := false, testLeft := none, testWaits := true }
  else c

/-- The span of a test has been received: TEST_DONE, and TEST_PASS with its result (R452); the link is then checked (R555). -/
def Chip.testOver (c : Chip) (n : Nat) : Chip :=
  let k := c.link n
  if k.testLeft = some 0 ∧ k.state = .isolated then
    (c.setLink n { k with testLeft := none, testDone := true, testPass := !k.testBad && k.testSyms * 1024 ≤ k.testCws }).qualify n
  else c

/-! Training. -/

/-- DETECT, with what the training has learnt so far dropped. -/
def Link.detect (k : Link) : Link :=
  { k with state := .detect, before := .eq, laneGood := [], laneRun := [], laneLast := [], laneDone := [], laneSent := [], eqSent := [],
           lastTs := [], tsSame := 0, agreed := [], ts2Sent := none, polarity := 0, reversed := false, held := [], badCws := 0 }

/-- Whether a link retrains, also through CONFIG. -/
def Link.retraining (k : Link) : Bool :=
  k.state = .retrain || (k.state = .config && (k.before = .isolated || k.before = .active))

/-- A time-out of POLL, EQ or CONFIG (R433): DETECT, or FAILED at the eighth. A link that was retraining goes down. -/
def Chip.trainTimeout (c : Chip) (n : Nat) (st : LinkState) : Chip :=
  let k := c.link n
  if k.state ≠ st then c
  else
    let c1 := if k.retraining then c.linkDown n .detect else c
    let k1 := (c1.link n).detect
    let fails := k.fails + 1
    if fails < 8 then c1.setLink n { k1 with fails := fails }
    else (c1.setLink n ({ k1 with fails := fails, state := .failed }.raise 6)).logLink n st .failed

/-- RETRAIN runs out: the link goes to DETECT and down (R432). -/
def Chip.retrainTimeout (c : Chip) (n : Nat) : Chip :=
  if (c.link n).retraining then
    let c1 := c.linkDown n .detect
    c1.setLink n (c1.link n).detect
  else c

/-- Whether the frames of all eight lanes name an accepted order: 0 to 7, or 7 to 0 (R435). -/
def Link.laneOrder (k : Link) : Option Bool :=
  let named := fun (i : Nat) => (SMap.find k.laneLast i).map (fun (f : LaneFrame) => f.lane.toNat)
  if (List.range 8).all (fun i => named i = some i) then some false
  else if (List.range 8).all (fun i => named i = some (7 - i)) then some true
  else none

/-- A lane frame in its lane's history (R435): good when its marker matches and its fields equal those of the three before it. -/
def Link.noteFrame (k : Link) (lane : Nat) (f : LaneFrame) : Link :=
  match f.marker with
  | none => { k with laneRun := SMap.set k.laneRun lane 0 }
  | some straight =>
    let same := match SMap.find k.laneLast lane with
      | some g => decide (g.lane = f.lane ∧ g.link = f.link ∧ g.fkind = f.fkind ∧ g.eqReq = f.eqReq ∧ g.marker = f.marker)
      | none => false
    let run := if same then SMap.get 0 k.laneRun lane + 1 else 1
    let bit8 := BitVec.ofNat 8 (2 ^ lane)
    { k with
      laneRun := SMap.set k.laneRun lane run, laneLast := SMap.set k.laneLast lane f,
      laneGood := if 4 ≤ run then SMap.set k.laneGood lane (SMap.get 0 k.laneGood lane + 1) else k.laneGood,
      laneDone := if f.fkind = 2 then SMap.set k.laneDone lane (SMap.get 0 k.laneDone lane + 1) else k.laneDone,
      polarity := if straight then k.polarity &&& ~~~bit8 else k.polarity ||| bit8 }

/-- The steps that a 2-bit pair of EQ_REQ asks for (Table 3). -/
def eqStep (v : Nat) : Int := if v = 1 then 1 else if v = 2 then -1 else 0

/-- The pre, main and post taps of a lane's transmitter, moved as a frame's EQ_REQ asks (R432, Table 3). -/
def Link.moveTaps (k : Link) (lane : Nat) (f : LaneFrame) : Link :=
  if f.marker.isNone then k
  else
    { k with taps := (List.range 3).foldl (fun m i =>
        SMap.set m (3 * lane + i) (SMap.get 0 m (3 * lane + i) + eqStep (f.eqReq.toNat / 4 ^ i % 4))) k.taps }

/-- Whether a count has reached n on every lane. -/
def allLanes (m : SMap Nat) (n : Nat) : Bool := (List.range 8).all (fun i => n ≤ SMap.get 0 m i)

/-- Whether every lane's skew is within 16 ns. -/
def Link.skewOk (k : Link) : Bool := k.laneLast.all (fun p => p.2.skewOk)

/-- CONFIG begins (R428, R429). -/
def Link.enterConfig (k : Link) : Link := 
  { k with state := .config, lastTs := [], tsSame := 0, agreed := [], ts2Sent := none, held := [], badCws := 0 }

/-- What the lanes have exchanged ends POLL, EQ or the first part of RETRAIN (R432, R435): 64 good frames and 64 sent after the first on
every lane, or 16 EQ_DONE frames sent and 16 received on every lane. -/
def Link.lanesOver (k : Link) : Link :=
  if k.state = .eq then
    (if allLanes k.laneDone 16 && allLanes k.eqSent 16 then Link.enterConfig { k with before := .eq } else k)
  else if k.state = .poll ∨ k.state = .retrain then
    match k.laneOrder with
    | some rev =>
      if allLanes k.laneGood 64 && allLanes k.laneSent 64 && k.skewOk then
        (if k.state = .poll then { k with state := .eq, reversed := rev, laneGood := [], laneSent := [], laneDone := [], eqSent := [] }
         else Link.enterConfig { k with reversed := rev })
      else k
    | none => k
  else k

/-- A lane frame that came in POLL, EQ or RETRAIN (R432, R435); one whose marker does not match asks for nothing. -/
def Link.laneFrame (k : Link) (lane : Nat) (f : LaneFrame) : Link :=
  if k.state = .poll ∨ k.state = .retrain then (k.noteFrame lane f).lanesOver
  else if k.state = .eq then ((k.noteFrame lane f).moveTaps lane f).lanesOver
  else k

/-- FKIND of the frame that a lane sends (Table 3): EQ_DONE once its receiver asks for nothing more. -/
def Link.frameKind (k : Link) (done : Bool) : Nat := if k.state = .eq then (if done then 2 else 1) else 0

/-- The lane frame that a lane sends (Table 3), its first bit as bit 0; only EQ asks for taps. -/
def Link.frameBits (k : Link) (n lane : Nat) (done : Bool) (req : Nat) : BitVec 680 :=
  BitVec.ofNat 680 (0xA5C3F00F3C + (lane <<< 40) + (n <<< 43) + (k.frameKind done <<< 48) +
    ((if k.state = .eq then req % 64 else 0) <<< 50) + ((prbs13 624 k.fill).1 <<< 56))

/-- One frame has gone out on every lane: it counts after the lane's first good frame, or as an EQ_DONE frame. -/
def Link.framesSent (k : Link) (done : BitVec 8) : Link :=
  let one := fun (m : SMap Nat) (p : Nat → Bool) =>
    (List.range 8).foldl (fun m i => if p i then SMap.set m i (SMap.get 0 m i + 1) else m) m
  Link.lanesOver { k with
    laneSent := if k.state = .eq then k.laneSent else one k.laneSent (fun i => 0 < SMap.get 0 k.laneGood i),
    eqSent := if k.state = .eq then one k.eqSent (fun i => done.getLsbD i) else k.eqSent,
    fill := (prbs13 624 k.fill).2 }

/-- Whether a training set is valid (R436). -/
def tsValid (t : List Byte) : Bool :=
  t.length = 128 && fieldB t 0x7C 4 = crc32 (t.take 0x7C) && fieldB t 1 1 = 1 && (fieldB t 0 1 = 1 || fieldB t 0 1 = 2)

/-- What a training set says of the peer: its number, link, kind and the credits it grants. -/
def Link.learn (k : Link) (t : List Byte) : Link :=
  { k with peerPkg := BitVec.ofNat 12 (fieldB t 2 2), peerLink := BitVec.ofNat 5 (fieldB t 4 1), peerS9 := fieldB t 5 1 % 2 = 1,
           adv := (List.range 12).map (fun q => (q, Nat.min 2048 (fieldB t (8 + 2 * q) 2))) }

/-- Fresh sequence and credit counts, as CONFIG that leads into ISOLATED leaves them (R439, R449). -/
def Link.fresh (k : Link) : Link :=
  { k with txSeq := 0, acked := 4095, rxLast := 4095, nakDue := false, nakSent := false, replay := [], resend := [], resends := 0,
           sent := [], peerFreed := [], freed := [], crNext := 0 }

/-- The scrambler restarts after CONFIG; the descrambler restarts at a KIND 1 codeword (R429). -/
def Link.rescramble (k : Link) : Link := { k with scrTx := 0x7FFFFFFF }

/-- CONFIG leads into ISOLATED: a link test starts, and the failure count is cleared (R433, R452). -/
def Chip.toIsolated (c : Chip) (n : Nat) (t : List Byte) : Chip :=
  let k := { ((c.link n).learn t).fresh.rescramble with fails := 0, before := .eq }
  let c1 := { c with net := { c.net with peerGeom := SMap.erase c.net.peerGeom n } }
  (c1.setLink n k.startTest).moveLink n .isolated

/-- CONFIG leads back to the state before RETRAIN: the sender resends from the peer's RX_NEXT, which counts as a taken ACK (R445). Back in
ISOLATED a link test starts (R452), and so it does where the link may not enter ACTIVE, because TEST_PASS is 0 (R434, R452). -/
def Chip.toBefore (c : Chip) (n : Nat) (t : List Byte) : Chip :=
  let k := (c.link n).learn t
  let seq := (fieldB t 6 2 % 4096 + 4095) % 4096
  let k1 := if k.ackInRange seq then k.release seq else k
  let k2 := { k1.rescramble with before := .eq }
  let c1 :=
    if k.before = .active ∧ k.testPass = true then (c.setLink n k2).moveLink n .active
    else (c.setLink n { k2.startTest with fails := 0 }).moveLink n .isolated
  c1.startResend n

/-- CONFIG ends once eight identical valid TS2 have come and 16 TS2 were sent after the first that came (R432). A peer that has changed
since RETRAIN began takes the link down, and CONFIG then leads into ISOLATED (R455). -/
def Chip.configOver (c : Chip) (n : Nat) : Chip :=
  let k := c.link n
  let t := k.agreed
  if k.state ≠ .config ∨ t = [] ∨ k.ts2Sent.getD 0 < 16 then c
  else if k.retraining then
    (if BitVec.ofNat 12 (fieldB t 2 2) = k.peerPkg ∧ BitVec.ofNat 5 (fieldB t 4 1) = k.peerLink then c.toBefore n t
     else (c.linkDown n .config).toIsolated n t)
  else c.toIsolated n t

/-- A valid TS2 that came: the eighth of eight identical ones is the set that CONFIG ends with. -/
def Link.takeTs2 (k : Link) (t : List Byte) : Link :=
  let same := if t = k.lastTs then k.tsSame + 1 else 1
  { k with lastTs := t, tsSame := same, agreed := if 8 ≤ same then t else k.agreed, ts2Sent := some (k.ts2Sent.getD 0) }

/-- A training set that came in CONFIG (R432, R436). -/
def Chip.trainingSet (c : Chip) (n : Nat) (t : List Byte) : Chip :=
  let k := c.link n
  if k.state ≠ .config then c
  else if tsValid t = false then c.setLink n { k with tsSame := 0 }
  else if fieldB t 0 1 = 1 then c.setLink n { k with lastTs := t, tsSame := 0 }
  else (c.setLink n (k.takeTs2 t)).configOver n

/-- Whether a link's PHY has power: domain 172 + n (R501). -/
def Chip.phyOn (c : Chip) (n : Nat) : Bool := (c.dom (172 + n)).state = .run && c.rst.phase ≠ .mcBoot && c.rst.phase ≠ .rails

/-- EN = 0 sends a link to DISABLED (R454); an up link, or one that retrains, goes down. -/
def Chip.linkOff (c : Chip) (n : Nat) : Chip :=
  let c1 := if (c.link n).up || (c.link n).retraining then c.linkDown n .disabled else c
  c1.setLink n { (c1.link n).detect with state := .disabled }

/-- LINK_CTRL.EN written 0. -/
def Chip.linkDisable (c : Chip) (n : Nat) : Chip :=
  let c1 := c.linkOff n
  c1.setLink n { c1.link n with ctrl := setBits (c1.link n).ctrl 0 1 0 }

/-- LINK_CTRL.EN written 1: DISABLED leaves for DETECT, and so does FAILED when EN was 0 (R432). -/
def Chip.linkEnable (c : Chip) (n : Nat) : Chip :=
  let k := c.link n
  let k1 := { k with ctrl := setBits k.ctrl 0 1 1 }
  if c.phyOn n ∧ (k.state = .disabled ∨ (k.state = .failed ∧ bit k.ctrl 0 = false)) then c.setLink n k1.detect else c.setLink n k1

/-! Rows. -/

/-- REPLAY_TIMEOUT (R444). -/
def execReplayTimeout (link : Nat) (s : State) : Host.Outcome State Fault Refusal := s.runIf (link < 24) (fun c => c.replayTimeout link)
/-- LOSS_OF_LOCK (R429, R434). -/
def execLossOfLock (link : Nat) (s : State) : Host.Outcome State Fault Refusal := s.runIf (link < 24) (fun c => c.retrain link)
/-- SIGNAL_DETECT: signal on all eight lanes in DETECT (R432). -/
def execSignalDetect (link : Nat) (s : State) : Host.Outcome State Fault Refusal :=
  s.runIf (link < 24) (fun c =>
    if (c.link link).state = .detect then c.setLink link { (c.link link).detect with state := .poll } else c)
/-- LANE_FRAME (R435). -/
def execLaneFrame (link : Nat) (lane : BitVec 3) (frame : LaneFrame) (s : State) : Host.Outcome State Fault Refusal :=
  s.runIf (link < 24) (fun c => c.setLink link ((c.link link).laneFrame lane.toNat frame))
/-- POLL_TIMEOUT (R433). -/
def execPollTimeout (link : Nat) (s : State) : Host.Outcome State Fault Refusal := s.runIf (link < 24) (fun c => c.trainTimeout link .poll)
/-- EQ_TIMEOUT (R433). -/
def execEqTimeout (link : Nat) (s : State) : Host.Outcome State Fault Refusal := s.runIf (link < 24) (fun c => c.trainTimeout link .eq)
/-- CONFIG_TIMEOUT (R433). -/
def execConfigTimeout (link : Nat) (s : State) : Host.Outcome State Fault Refusal :=
  s.runIf (link < 24) (fun c => c.trainTimeout link .config)
/-- RETRAIN_TIMEOUT (R432). -/
def execRetrainTimeout (link : Nat) (s : State) : Host.Outcome State Fault Refusal := s.runIf (link < 24) (fun c => c.retrainTimeout link)
/-- LINK_TEST (R452). -/
def execLinkTest (link : Nat) (s : State) : Host.Outcome State Fault Refusal := s.runIf (link < 24) (fun c => c.linkTest link)
/-- LINK_TEST_DONE (R452). -/
def execLinkTestDone (link : Nat) (s : State) : Host.Outcome State Fault Refusal := s.runIf (link < 24) (fun c => c.testOver link)
/-- LINK_RETRAIN: ignored by a link that is down or in RETRAIN (R434, R458). -/
def execLinkRetrain (link : Nat) (s : State) : Host.Outcome State Fault Refusal := s.runIf (link < 24) (fun c => c.retrain link)
/-- LINK_DISABLE (R454). -/
def execLinkDisable (link : Nat) (s : State) : Host.Outcome State Fault Refusal := s.runIf (link < 24) (fun c => c.linkDisable link)
/-- LINK_ENABLE (R432). -/
def execLinkEnable (link : Nat) (s : State) : Host.Outcome State Fault Refusal := s.runIf (link < 24) (fun c => c.linkEnable link)

end Sys2Proof.Machine
end

