-- ==== Sys2Proof/Machine/Image.lean ====
section
/-! DEFINITION. Reading a Recipe image in its area of the Recipe Store (R58 to R60, R536), judging a staged one (R63), and what a reset or
link loss does to a partner port (R420). -/

namespace Sys2Proof.Machine

/-! The Recipe image. -/

/-- The n-byte field at an image offset of the image in a Recipe Store area (R58). -/
def Chip.img (c : Chip) (area o n : Nat) : Nat := leNat (c.bytes (areaBase area + o) n)

/-- STAGE_COUNT (Table 9 of the Request chapter). -/
def Chip.stageCount (c : Chip) (area : Nat) : Nat := c.img area 0x06 2
/-- The image offset of stage s (R60). -/
def Chip.stageAt (c : Chip) (area s : Nat) : Nat := c.img area 0x10 8 + 128 * s
/-- KIND of a stage: 0 CORE, 1 TEXT, 2 VIDEO (Table 10). -/
def Chip.stageKind (c : Chip) (area s : Nat) : Nat := c.img area (c.stageAt area s) 1
/-- PRED_COUNT of a stage. -/
def Chip.predCount (c : Chip) (area s : Nat) : Nat := c.img area (c.stageAt area s + 0x02) 2
/-- ENTRY of a CORE stage. -/
def Chip.stageEntry (c : Chip) (area s : Nat) : Nat := c.img area (c.stageAt area s + 0x04) 4
/-- CORE_MASK of a CORE stage. -/
def Chip.coreMask (c : Chip) (area s : Nat) : Word := w64 (c.img area (c.stageAt area s + 0x08) 8)
/-- The 64 bytes of ARGS or JOB of a stage. -/
def Chip.stageArgs (c : Chip) (area s : Nat) : List Byte := c.bytes (areaBase area + c.stageAt area s + 0x40) 64
/-- EDGE_COUNT. -/
def Chip.edgeCount (c : Chip) (area : Nat) : Nat := c.img area 0x18 4
/-- The edges of the stage graph, each as FROM and TO. -/
def Chip.stageEdges (c : Chip) (area : Nat) : List (Nat × Nat) :=
  (List.range (c.edgeCount area)).map (fun i =>
    (c.img area (c.img area 0x20 8 + 8 * i) 4, c.img area (c.img area 0x20 8 + 8 * i + 4) 4))
/-- VOCAB_REQUIRED. -/
def Chip.vocabRequired (c : Chip) (area : Nat) : Bool := c.img area 0x05 1 % 2 = 1
/-- Bit i of VOCAB_MASK. -/
def Chip.vocabBit (c : Chip) (area i : Nat) : Bool := (c.img area 0x38 2 / 2 ^ i) % 2 = 1
/-- The digest that the image records for VOCAB_ID i. -/
def Chip.vocabDigest (c : Chip) (area i : Nat) : List Byte := c.bytes (areaBase area + c.img area 0x30 8 + 48 * i) 48

/-- Whether a section lies before the trailer and is aligned; one of no bytes is not looked at (R63). -/
def sectionOk (trailer off len align : Nat) : Bool := len = 0 || (off + len ≤ trailer && off % align = 0)

/-- Stages of which no unfinished stage is a predecessor, taken away n times; a graph without a cycle is left empty (R63). -/
def peelStages (es : List (Nat × Nat)) : Nat → List Nat → List Nat
  | 0, l => l
  | n + 1, l => peelStages es n (l.filter (fun s => es.any (fun e => e.2 = s && l.contains e.1)))

/-- The conditions on one entry of the stage table (R63). -/
def Chip.stageOk (c : Chip) (area trailer : Nat) (es : List (Nat × Nat)) (s : Nat) : Bool :=
  let kind := c.stageKind area s
  kind ≤ 2 && c.predCount area s = (es.filter (fun e => e.2 = s)).length &&
    (kind ≠ 0 || (c.coreMask area s ≠ 0 && c.stageEntry area s + 4 ≤ trailer)) && (kind ≠ 1 || c.vocabRequired area)

/-- Step 3 of VERIFY (R63) on an image whose trailer begins at an offset. -/
def Chip.formatOk (c : Chip) (area trailer : Nat) : Bool :=
  let n := c.stageCount area
  let es := c.stageEdges area
  c.img area 0x00 4 = 0x31504352 && c.img area 0x04 1 = 1 && 1 ≤ n && n ≤ 4096 && c.edgeCount area ≤ 65536 && c.img area 0x48 4 ≤ 65536 &&
    sectionOk trailer (c.img area 0x10 8) (128 * n) 64 && sectionOk trailer (c.img area 0x20 8) (8 * c.edgeCount area) 8 &&
    sectionOk trailer (c.img area 0x28 8) 256 8 && sectionOk trailer (c.img area 0x30 8) 768 8 &&
    sectionOk trailer (c.img area 0x40 8) (32 * c.img area 0x48 4) 8 && es.all (fun e => e.1 < n && e.2 < n) &&
    (List.range n).all (fun s => c.stageOk area trailer es s) && (peelStages es n (List.range n)).isEmpty

/-- Whether the trailer's key slot holds a key under which the signature over a digest verifies (R536). -/
def Chip.signatureOk (c : Chip) (area trailer : Nat) (digest : List Byte) : Bool :=
  let slot := c.img area trailer 1
  let key := SMap.get [] c.mc.cfg.recipeKeys slot
  slot ≤ 3 && !key.isEmpty && ecdsaOk key digest (c.bytes (areaBase area + trailer + 8) 96)

/-! A partner port that is reset or loses its link. -/

/-- Whether a completion that waits is of a Request. -/
def CplItem.isRequest : CplItem → Bool
  | .request _ => true
  | .descriptor _ _ _ _ => false

/-- What R420 takes from a window: its queue, and the entries of descriptors that ended at admission, which are counted as discarded;
after a reset its registers too (R421). Without one, the Requests that run on stay ACTIVE until their delivery is discarded. -/
def Window.cutOff (x : Window) (reset : Bool) : Window :=
  let keep := x.cplQ.filter CplItem.isRequest
  if reset then { Window.reset with cplQ := keep } else { x with queue := [], waiting := [], cplQ := keep }

/-- Deliveries of descriptors that ended at admission, which R420 discards. -/
def Window.lostEntries (x : Window) : Nat := (x.cplQ.filter (fun i => !i.isRequest)).length

/-- Requests admitted through a port run on, but their deliveries are discarded (R420); after a reset no window counts them. -/
def Chip.cutRequests (c : Chip) (n : Nat) (reset : Bool) : Chip :=
  { c with req := { c.req with
      ctxs := c.req.ctxs.map (fun p => if p.2.port = n then (p.1, { p.2 with cut := true, gone := p.2.gone || reset }) else p),
      stallHead := match c.req.stallHead with
        | some q => if q.1 = n then none else some q
        | none => none } }

/-- Function Level Reset, Pn_PERST_N, link down (reset) or Bus Master Enable = 0 at port n (R420, R577). -/
def Chip.portCut (c : Chip) (n : Nat) (reset : Bool) : Chip :=
  let p := c.port n
  let lost := p.windows.foldl (fun a w => a + w.2.lostEntries) 0
  let p1 := { p with discarded := p.discarded + w64 lost, windows := p.windows.map (fun w => (w.1, w.2.cutOff reset)) }
  let p2 := if reset then { p1 with errVec := 0, aper := 0, fabWin := 0, msix := [], pba := [] } else p1
  (c.setPort n p2).cutRequests n reset

/-- The link of port n goes down (R420). -/
def Chip.portDown (c : Chip) (n : Nat) : Chip :=
  (c.setPort n { c.port n with linkUp := false }).portCut n true

/-- Whether a port can write and read on its far side. -/
def Port.alive (p : Port) : Bool := p.linkUp && p.busMaster

end Sys2Proof.Machine
end

