-- ==== Sys2Proof/Machine/Power.lean ====
section
/-! DEFINITION. Power domains and frequencies (R498, R500 to R518), and start-up's last steps that a self-test completes (R549). -/

namespace Sys2Proof.Machine

/-! Domains (R500). -/

/-- FC logic. -/
def isCoreDom (d : Nat) : Bool := d < 128 && d % 2 = 0
/-- FC Pool. -/
def isPoolDom (d : Nat) : Bool := d < 128 && d % 2 = 1
/-- A Basin slice or an HBM domain. -/
def isMemDom (d : Nat) : Bool := 128 ≤ d && d < 172
/-- A link PHY. -/
def isLinkDom (d : Nat) : Bool := 172 ≤ d && d < 196
/-- A partner port. -/
def isPortDom (d : Nat) : Bool := 196 ≤ d && d < 200
/-- A decode engine. -/
def isEngineDom (d : Nat) : Bool := 200 ≤ d && d < 232
/-- A Text Unit lane. -/
def isLaneDom (d : Nat) : Bool := 232 ≤ d && d < 236

/-- What a request asks for (REQ of Table 5). -/
inductive PwrTarget where
  | run | freewheel | off
  deriving DecidableEq, Repr

/-- FREEWHEEL acts as OFF for domains other than FC logic. -/
def PwrTarget.on (t : PwrTarget) (d : Nat) : PwrTarget := if t = .freewheel ∧ isCoreDom d = false then .off else t

/-- What a latched request asks for. -/
def Pending.target : Pending → Option PwrTarget
  | .none => Option.none
  | .on => some .run
  | .off => some .off
  | .freewheel => some .freewheel

/-- A bit of PWR_ERR (Table 4). -/
def Chip.pwrErr (c : Chip) (i : Nat) : Chip := { c with pwr := { c.pwr with err := c.pwr.err ||| BitVec.ofNat 4 (2 ^ i) } }

/-- A domain transition is completed. -/
def Chip.countTransition (c : Chip) : Chip := { c with pwr := { c.pwr with transitions := c.pwr.transitions + 1 } }

/-- The bytes of a range become 0. -/
def Chip.zeroRange (c : Chip) (base n : Nat) : Chip := { c with mem := c.mem.filter (fun p => !(base ≤ p.1 && p.1 < base + n)) }

/-- The Pool domain of a core in a state; a Pool that comes on or goes off holds zeros (R501, R506). -/
def Chip.setPool (c : Chip) (n : Nat) (st : DomState) : Chip :=
  let c1 := (c.setDom (2 * n + 1) { c.dom (2 * n + 1) with state := st }).zeroRange (poolBase + n * poolSize) poolSize
  { c1 with pwr := { c1.pwr with poolAlone := c1.pwr.poolAlone.filter (fun m => m ≠ n) } }

/-- Return from Off is a core reset (R506): its registers, streams, queues, engines and Pool; messages that wait for it stay. -/
def Chip.coreReset (c : Chip) (n : Nat) : Chip :=
  (c.setPool n .run).setCore n { Core.reset with smWaiting := (c.core n).smWaiting }

/-- A core is idle (R502): no task, command, transaction, buffered store or pending PMC_WRAP. -/
def Core.idle (k : Core) : Bool := k.atRest && k.pmPending.isEmpty

/-- A domain begins to turn off or to go to Freewheel (R503); a link PHY and a port are off at once (Table 3). -/
def Chip.turnOff (c : Chip) (d : Nat) (fw : Bool) : Chip :=
  if isLinkDom d then ((c.linkOff (d - 172)).setDom d { c.dom d with state := .off, latch := .none }).countTransition
  else if isPortDom d then ((c.portDown (d - 196)).setDom d { c.dom d with state := .off, latch := .none }).countTransition
  else c.setDom d { c.dom d with state := .turningOff, latch := .none, fwSide := fw, begun := isMemDom d }

/-- A domain begins to turn on. -/
def Chip.turnOn (c : Chip) (d : Nat) (fw : Bool) : Chip :=
  c.setDom d { c.dom d with state := .turningOn, latch := .none, fwSide := fw, begun := true }

/-- A request that arrives during a transition (R507). -/
def Chip.latchReq (c : Chip) (d : Nat) (p : Pending) : Chip := c.setDom d { c.dom d with latch := p }

/-- A request for a domain (R501, R503, R504, R507, R515): ignored for a Pool and while nothing is
powered; refused for memory that is in use. -/
def Chip.powerReq (c : Chip) (d : Nat) (t0 : PwrTarget) : Chip :=
  let t := t0.on d
  let x := c.dom d
  if isPoolDom d || !c.hubOn then c
  else if t = .off ∧ isMemDom d ∧ !(c.req.quiesced && !c.locked) then c.pwrErr 0
  else
    match x.state with
    | .failed => c.turnOn d false
    | .run => if t = .run then c else c.turnOff d (t = .freewheel)
    | .freewheel => if t = .run then c.turnOn d true else if t = .off then c.turnOff d false else c
    | .off => if t = .run then c.turnOn d false else c
    | .turningOn => c.latchReq d (match t with | .run => .none | .off => .off | .freewheel => .freewheel)
    | .selfTest => c.latchReq d (match t with | .run => .none | .off => .off | .freewheel => .freewheel)
    | .turningOff =>
      c.latchReq d (match t with
        | .run => .on
        | .off => if x.fwSide then .off else .none
        | .freewheel => if x.fwSide then .none else .freewheel)

/-- A latched request is carried out when the transition completes (R507). -/
def Chip.carryOut (c : Chip) (d : Nat) : Chip :=
  match (c.dom d).latch.target with
  | none => c
  | some t => (c.latchReq d .none).powerReq d t

/-- Whether a unit that turns off has ended its work (R503, Table 3). -/
def Chip.drained (c : Chip) (d : Nat) : Bool :=
  if isCoreDom d then (c.core (d / 2)).idle
  else if isEngineDom d then c.vid.units.all (fun u => match u.hold with | some h => h.2 ≠ d - 200 | none => true)
  else if isLaneDom d then c.txu.jobs.all (fun j => j.lane ≠ some (d - 232))
  else true

/-- POWER_TRANSITION_BEGIN: a domain in TURNING_OFF whose work has ended begins its transition (R503). -/
def Chip.beginTransition (c : Chip) (d : Nat) : Chip :=
  let x := c.dom d
  if x.state = .turningOff ∧ x.begun = false ∧ c.drained d = true then c.setDom d { x with begun := true } else c

/-- A domain reaches Run; messages that waited for it are served (R504), and a link PHY trains its link (R432). -/
def Chip.reachRun (c : Chip) (d : Nat) : Chip :=
  let c1 := (c.setDom d { c.dom d with state := .run }).countTransition
  if isMemDom d then c1.serveWaiting
  else if isLinkDom d then (if bit (c1.link (d - 172)).ctrl 0 then c1.linkEnable (d - 172) else c1)
  else c1

/-- A Basin slice that goes off holds no line (Table 3 of the power chapter). -/
def Chip.emptySlice (c : Chip) (s : Nat) : Chip := { c with traffic := { c.traffic with lines := SMap.erase c.traffic.lines s } }

/-- A domain reaches Off or Freewheel; a core's Pool follows it to Off (R501). -/
def Chip.reachOff (c : Chip) (d : Nat) : Chip :=
  let x := c.dom d
  let c1 := (c.setDom d { x with state := if x.fwSide then .freewheel else .off }).countTransition
  if isCoreDom d ∧ x.fwSide = false then c1.setPool (d / 2) .off
  else if 128 ≤ d ∧ d < 160 then c1.emptySlice (d - 128)
  else c1

/-- POWER_TRANSITION_DONE (R507, R508): Feature Cores pass through SELFTEST, after a core reset when they come from Off. -/
def Chip.endTransition (c : Chip) (d : Nat) : Chip :=
  let x := c.dom d
  if x.state = .turningOff ∧ x.begun = true then (c.reachOff d).carryOut d
  else if x.state = .turningOn then
    (if isCoreDom d then
      (let c1 := if x.fwSide then c else c.coreReset (d / 2)
       c1.setDom d { c1.dom d with state := .selfTest })
     else (c.reachRun d).carryOut d)
  else c

/-- BRINGUP begins when every Feature Core has ended its self-test and every HBM stack its training (R549). -/
def Chip.tryBringup (c : Chip) : Chip :=
  if c.rst.phase = .training ∧ c.rst.hbmTrained = true ∧ (List.range 64).all (fun n => n ∈ c.rst.coresTested) then
    ({ c with rst := { c.rst with phase := .bringup } }).tryDiscover
  else c

/-- SELFTEST_DONE (R508): Run, or FAILED with PWR_ERR.SELFTEST_FAIL and a log entry. -/
def Chip.selfTestDone (c : Chip) (n : Nat) (pass : Bool) : Chip :=
  let d := 2 * n
  if (c.dom d).state = .selfTest then
    let c1 := { c with rst := { c.rst with coresTested := if n ∈ c.rst.coresTested then c.rst.coresTested else n :: c.rst.coresTested } }
    let c2 :=
      if pass then ({ c1.reachRun d with pwr := { (c1.reachRun d).pwr with fresh := n :: c1.pwr.fresh.filter (fun m => m ≠ n) } }).carryOut d
      else ((c1.setDom d { c1.dom d with state := .failed, latch := .none }).pwrErr 1).log 0x0032 2 0x44 [BitVec.ofNat 8 d]
    c2.tryBringup
  else c

/-! The automatic policy (R512, R513). -/

/-- Whether PWR_POLICY.AUTO is 1. -/
def Chip.autoOn (c : Chip) : Bool := bit c.pwr.policy 0

/-- The cores that a mask names and that are eligible for placement (R44, R508): in Run, and since before the last admission. -/
def Chip.eligible (c : Chip) (mask : Word) : List Nat :=
  (List.range 64).filter (fun n => bit mask n && (c.dom (2 * n)).state = .run && !(c.pwr.fresh.contains n))

/-- The free task slots of a core. -/
def Core.freeSlots (k : Core) : List Nat := (List.range 8).filter (fun i => (k.slot i).task.isNone)

/-- CORE_MASK of a stage that waits in the placement queue. -/
def Chip.maskOf (c : Chip) (p : Nat × Nat) : Word :=
  match c.ctx p.1 with
  | some x => c.coreMask x.area p.2
  | none => 0

/-- A stage waits: no eligible core has a free task slot (R45). -/
def Chip.stageWaits (c : Chip) (p : Nat × Nat) : Bool := (c.eligible (c.maskOf p)).all (fun n => (c.core n).freeSlots.isEmpty)

/-- A core on its way to Run. -/
def Chip.waking (c : Chip) (n : Nat) : Bool :=
  let x := c.dom (2 * n)
  x.state = .turningOn || x.state = .selfTest || (x.state = .turningOff && x.latch = .on)

/-- A core that the policy may bring to Run. -/
def Chip.wakeable (c : Chip) (n : Nat) : Bool :=
  let x := c.dom (2 * n)
  x.auto && (x.state = .off || x.state = .freewheel || (x.state = .turningOff && x.latch ≠ .on))

/-- For one waiting stage the policy requests Run for a core of its mask (R512): which one is not stated, and is free; none while one is on
its way. -/
def Chip.wakeFor (c : Chip) (p : Nat × Nat) : Chip :=
  let cores := (List.range 64).filter (fun n => bit (c.maskOf p) n)
  if c.stageWaits p = false || cores.any c.waking then c
  else
    let may := cores.filter c.wakeable
    match may[c.free.toNat % may.length]? with
    | none => c
    | some n => c.spend.powerReq (2 * n) .run

/-- AUTO_WAKE (R512). -/
def Chip.autoWake (c : Chip) : Chip := if c.autoOn then c.req.placeQ.foldl (fun c p => c.wakeFor p) c else c

/-- UNIT_WAKE (R513) for n domains from one on: none is in Run or TURNING_ON, so the lowest that is OFF or TURNING_OFF is asked for. -/
def Chip.unitWake (c : Chip) (base n : Nat) : Chip :=
  let ds := (List.range n).map (fun i => base + i)
  if ds.any (fun d => (c.dom d).state = .run || (c.dom d).state = .turningOn) then c
  else
    match ds.find? (fun d => (c.dom d).state = .off || (c.dom d).state = .turningOff) with
    | none => c
    | some d => c.powerReq d .run

/-- A ready text job or decode unit wakes a lane or an engine (R513). -/
def Chip.unitsWake (c : Chip) : Chip :=
  if c.autoOn then
    let c1 := if c.txu.jobs.any (fun j => j.lane.isNone) then c.unitWake 232 4 else c
    if c1.vid.units.any (fun u => u.hold.isNone) then c1.unitWake 200 32 else c1
  else c

/-- A written request for a domain; one that takes the last lane or engine out of Run meets R513. -/
def Chip.askDomain (c : Chip) (d : Nat) (t : PwrTarget) : Chip :=
  let c1 := c.powerReq d t
  if isLaneDom d || isEngineDom d then c1.unitsWake else c1

/-- The Feature Cores in Run. -/
def Chip.running (c : Chip) : Nat := ((List.range 64).filter (fun n => (c.dom (2 * n)).state = .run)).length

/-- FW_IDLE µs of idleness are over: the core goes to Freewheel, but RUN_MIN cores stay in Run (R512). -/
def Chip.fwIdle (c : Chip) (n : Nat) : Chip :=
  let x := c.dom (2 * n)
  if c.autoOn && x.auto && x.state = .run && bits c.pwr.policy 47 32 ≠ 0 && (c.core n).idle &&
      Nat.min 64 (bits c.pwr.policy 14 8) < c.running then
    (c.powerReq (2 * n) .freewheel).autoWake
  else c

/-- OFF_IDLE ms in Freewheel are over: the core goes to Off (R512). -/
def Chip.offIdle (c : Chip) (n : Nat) : Chip :=
  let x := c.dom (2 * n)
  if c.autoOn && x.auto && x.state = .freewheel && bits c.pwr.policy 63 48 ≠ 0 then (c.powerReq (2 * n) .off).autoWake else c

/-- A Pool powered on alone returns to Off 1 ms after its last access (R505). -/
def Chip.poolIdle (c : Chip) (n : Nat) : Chip := if n ∈ c.pwr.poolAlone then c.setPool n .off else c

/-! Frequencies (R498, R509, R510, R526). -/

/-- The die of a Feature Core, and of a temperature sensor: 0 CD0, 1 CD1, 2 HUB (R597). -/
def sensorDie (i : Nat) : Nat := if i < 20 then 0 else if i < 40 then 1 else 2
/-- The die of a Feature Core (R18). -/
def coreDie (n : Nat) : Nat := n / 32

/-- MAX_MHZ as it acts: within 800 and 2,200, rounded down to 100 (Table 4). -/
def Chip.maxMhz (c : Chip) (n : Nat) : Nat := clampNat 800 2200 ((SMap.get 2200 c.pwr.maxMhz n).toNat) / 100 * 100
/-- The thermal limit of a core (R509). -/
def Chip.thermMhz (c : Chip) (n : Nat) : Nat := SMap.get 2200 c.pwr.thermMhz n
/-- The limit of a core under the power cap (R510). -/
def Chip.capMhz (c : Chip) (n : Nat) : Nat := SMap.get 2200 c.pwr.capMhz n
/-- The frequency that a core is to run at (R498, R526). -/
def Chip.goalMhz (c : Chip) (n : Nat) : Nat :=
  if c.pwr.crit.any (fun i => sensorDie i = coreDie n) then 800 else Nat.min (c.maxMhz n) (Nat.min (c.thermMhz n) (c.capMhz n))

/-- THERM.THROTTLE_C in 1/16 °C. -/
def Chip.throttleAt (c : Chip) : Int := (bits c.pwr.therm 7 0 * 16 : Nat)
/-- THROTTLE_C less HYST in 1/16 °C. -/
def Chip.regainBelow (c : Chip) : Int := c.throttleAt - (bits c.pwr.therm 15 8 * 16 : Nat)

/-- A core's thermal limit after a sample (R509). -/
def Chip.thermNext (c : Chip) (temps : List Int) (n : Nat) : Nat :=
  let mine := (temps.zipIdx.filter (fun p => sensorDie p.2 = coreDie n)).map (fun p => p.1)
  if mine.any (fun t => c.throttleAt < t) then Nat.max 800 (Nat.min (c.thermMhz n) (c.goalMhz n) - 100)
  else if mine.all (fun t => t < c.regainBelow) then Nat.min 2200 (c.thermMhz n + 100)
  else c.thermMhz n

/-- A power controller's reading of the temperature sensors (R509): the limits move, and THROTTLED is set while one holds a core back. -/
def Chip.thermalSample (c : Chip) (temps : List Int) : Chip :=
  let hot : Int := temps.foldl (fun a t => if a < t then t else a) 0
  let lim := (List.range 64).map (fun n => (n, c.thermNext temps n))
  let c1 := { c with pwr := { c.pwr with thermMhz := lim, hottest := BitVec.ofNat 8 (hot.toNat / 16) } }
  if (List.range 64).any (fun n => c1.thermMhz n < c1.maxMhz n) then c1.pwrErr 2 else c1

/-- A core's limit under the power cap after a sample (R510). -/
def Chip.capNext (c : Chip) (watts n : Nat) : Nat :=
  let cap := bits c.pwr.cap 15 0
  if cap < watts ∧ (c.dom (2 * n)).state = .run then Nat.max 800 (Nat.min (c.capMhz n) (c.goalMhz n) - 100)
  else if watts * 20 ≤ cap * 19 then Nat.min 2200 (c.capMhz n + 100)
  else c.capMhz n

/-- The power controller's reading of the package power (R510). -/
def Chip.capSample (c : Chip) (watts : Nat) : Chip :=
  let lim := (List.range 64).map (fun n => (n, c.capNext watts n))
  let c1 := { c with pwr := { c.pwr with capMhz := lim, measured := BitVec.ofNat 16 watts } }
  if (List.range 64).any (fun n => c1.capMhz n < Nat.min (c1.maxMhz n) (c1.thermMhz n)) then c1.pwrErr 3 else c1

/-- The power controller works: it lies in the AON domain (R495, R548). -/
def Chip.aon (c : Chip) : Bool := c.rst.por && !c.rst.held

/-! Rows. -/

/-- PWR_REQ_RUN (R507). -/
def execPwrReqRun (domain : Nat) (s : State) : Host.Outcome State Fault Refusal := s.runIf (domain < 236) (fun c => c.askDomain domain .run)
/-- PWR_REQ_FREEWHEEL (R503). -/
def execPwrReqFreewheel (domain : Nat) (s : State) : Host.Outcome State Fault Refusal :=
  s.runIf (domain < 236) (fun c => c.askDomain domain .freewheel)
/-- PWR_REQ_OFF (R501). -/
def execPwrReqOff (domain : Nat) (s : State) : Host.Outcome State Fault Refusal := s.runIf (domain < 236) (fun c => c.askDomain domain .off)
/-- POWER_TRANSITION_BEGIN (R503). -/
def execPowerTransitionBegin (domain : Nat) (s : State) : Host.Outcome State Fault Refusal :=
  s.runIf (domain < 236) (fun c => c.beginTransition domain)
/-- POWER_TRANSITION_DONE (R507). -/
def execPowerTransitionDone (domain : Nat) (s : State) : Host.Outcome State Fault Refusal :=
  s.runIf (domain < 236) (fun c => c.endTransition domain)
/-- SELFTEST_DONE (R508). -/
def execSelftestDone (fc : BitVec 6) (pass : Bool) (s : State) : Host.Outcome State Fault Refusal :=
  s.run (fun c => c.selfTestDone fc.toNat pass)
/-- FW_IDLE_EXPIRY (R512). -/
def execFwIdleExpiry (fc : BitVec 6) (s : State) : Host.Outcome State Fault Refusal := s.run (fun c => c.fwIdle fc.toNat)
/-- OFF_IDLE_EXPIRY (R512). -/
def execOffIdleExpiry (fc : BitVec 6) (s : State) : Host.Outcome State Fault Refusal := s.run (fun c => c.offIdle fc.toNat)
/-- POOL_IDLE_OFF (R505). -/
def execPoolIdleOff (fc : BitVec 6) (s : State) : Host.Outcome State Fault Refusal := s.run (fun c => c.poolIdle fc.toNat)
/-- FREQ_CHANGE_DONE: the core's PLL has locked at the new frequency (R498). -/
def execFreqChangeDone (fc : BitVec 6) (s : State) : Host.Outcome State Fault Refusal :=
  s.run (fun c => { c with pwr := { c.pwr with curMhz := SMap.set c.pwr.curMhz fc.toNat (c.goalMhz fc.toNat) } })
/-- THERMAL_SAMPLE (R509): 48 temperatures in 1/16 °C. -/
def execThermalSample (temps : List Int) (s : State) : Host.Outcome State Fault Refusal :=
  s.runIf (temps.length = 48) (fun c => if c.aon then c.thermalSample temps else c)
/-- POWER_CAP_SAMPLE (R510). -/
def execPowerCapSample (watts : BitVec 16) (s : State) : Host.Outcome State Fault Refusal :=
  s.run (fun c => if c.aon then c.capSample watts.toNat else c)

end Sys2Proof.Machine
end

