-- ==== Sys2Proof/Machine/Requests.lean ====
section
/-! DEFINITION. The life of a Request: admission (R39 to R43), placement (R44, R45, R61, R62), deadlines (R34, R46), quiesce (R53, R54, R64,
R65), delivery and completion (R37, R409 to R417). -/

namespace Sys2Proof.Machine

/-! The order of completions. -/

/-- Whether nothing of a Request is left at work, so that its context may be released (R24, R26, R170, R223), no Short Message
that would still put its handle included: reads whose data is to be
discarded when it comes do not count. -/
def Chip.ctxIdle (c : Chip) (ctx : Nat) : Bool :=
  c.cores.all (fun p =>
    p.2.slots.all (fun s => match s.2.task with | some t => t.ctx ≠ ctx | none => true) &&
    p.2.engines.all (fun e => e.2.queue.all (fun x => x.ctx ≠ ctx)) && p.2.storeBuf.all (fun e => e.ctx ≠ ctx) && p.2.frameQ.all (fun e => e.ctx ≠ ctx) &&
    p.2.trks.all (fun t => t.ctx ≠ ctx || t.holder = .gone) &&
    p.2.smWaiting.all (fun m => m.src.toNat ≠ c.self || m.ctx.toNat % 2 ^ 17 ≠ ctx)) &&
  c.req.placeQ.all (fun p => p.1 ≠ ctx) && c.txu.jobs.all (fun j => j.ctx ≠ ctx) && c.vid.jobs.all (fun j => j.ctx ≠ ctx) &&
  c.vid.units.all (fun u => u.ctx ≠ ctx)

/-- Whether a completion's entry may be written: a descriptor's, a delivered Request's, or that of a Request whose end is complete. -/
def Chip.cplReady (c : Chip) : CplItem → Bool
  | .descriptor _ _ _ _ => true
  | .request k =>
    match c.ctx k with
    | none => true
    | some x => x.delivering || (x.ended.isSome && c.ctxIdle k)

/-- A delivery begins, and its completion takes its place: after those whose delivery has begun, and before Requests that have ended but are
not yet at rest, whose delivery has not (R412). -/
def Chip.cplPlace (c : Chip) (q : List CplItem) (i : CplItem) : List CplItem :=
  q.filter c.cplReady ++ [i] ++ q.filter (fun j => !(c.cplReady j))

/-- A completion that may be written takes its place in its window's order. -/
def Chip.beginCpl (c : Chip) (n w : Nat) (i : CplItem) : Chip :=
  c.setWindow n w { c.window n w with cplQ := c.cplPlace (c.window n w).cplQ i }

/-! Admission. -/

/-- Check 5 (R40): whether the vocabulary that a descriptor names serves the Recipe in an area. -/
def Chip.vocabOk (c : Chip) (area id : Nat) : Bool :=
  if id = 0xFF then !c.vocabRequired area
  else id < 16 && c.vocabBit area id && (c.txu.voc id).state = 2 && (c.txu.voc id).digest = c.vocabDigest area id

/-- The checks of Table 4 in order: the status and DETAIL of the first that fails. -/
def Chip.checks (c : Chip) (d : List Byte) : Option (Nat × Nat) :=
  let slot := fieldB d 0x08 1 % 4
  let count := fieldB d 0x20 4
  let deadline := fieldB d 0x10 8
  if fieldB d 0x0A 1 ≠ 1 then some (0x12, 1)
  else if fieldB d 0x0B 1 % 2 = 1 ∧ fieldB d 0x3C 4 ≠ crc32c (d.take 0x3C) then some (0x12, 2)
  else if fieldB d 0x18 8 % 16 ≠ 0 ∨ count = 0 ∨ 65536 < count then some (0x12, 3)
  else if c.locked = false then some (0x30, 1)
  else if (c.rcp.slot slot).ready = false then some (0x30, 0)
  else if c.vocabOk (c.rcp.area slot) (fieldB d 0x09 1) = false then some (0x31, fieldB d 0x09 1)
  else if deadline ≠ 0 ∧ deadline ≤ c.tide.toNat then some (0x16, 1)
  else none

/-- The head of an Intake Queue. -/
def Chip.headDesc (c : Chip) (n w : Nat) : Option Desc := (c.window n w).queue.head?

/-- The queue whose turn it is (R39): the first that is not empty, from the next one on; each by its port and window. -/
def Chip.turnQueue (c : Chip) : Option (Nat × Nat) :=
  ((List.range 256).map (fun i => ((c.req.nextQueue + i) % 256 / 64, (c.req.nextQueue + i) % 64))).find? (fun q =>
    (c.headDesc q.1 q.2).isSome)

/-- CWB_EVERY (Table 5 of the port chapter). -/
def Window.cwbEvery (x : Window) : Nat := if bits x.ctrl 23 16 = 0 then 1 else bits x.ctrl 23 16

/-- TAKEN is written to the bus address of WINw_CWB_ADDR (R407). -/
def Chip.cwbWrite (c : Chip) (n w : Nat) : Chip :=
  let x := c.window n w
  let c1 := c.setWindow n w { x with cwbCount := 0 }
  if (c.port n).alive then c1.busWrites n (x.cwbAddr.toNat / 8 * 8) (leBytes 4 x.taken.toNat) false false else c1

/-- A descriptor leaves its queue (R407): TAKEN advances. -/
def Chip.takeDesc (c : Chip) (n w : Nat) : Chip :=
  let x := c.window n w
  let on : Bool := x.cwbAddr.toNat / 8 ≠ 0
  let y := { x with queue := x.queue.drop 1, taken := x.taken + 1, cwbCount := if on then x.cwbCount + 1 else 0 }
  let c1 := c.setWindow n w y
  if on ∧ x.cwbEvery ≤ y.cwbCount then c1.cwbWrite n w else c1

/-- A descriptor ends at admission without a context (R40, R423); where it was the one that admission stalled at, the stall is over (R41). -/
def Chip.rejectDesc (c : Chip) (n w : Nat) (d : Desc) (status detail : Nat) : Chip :=
  let c1 := (c.takeDesc n w).beginCpl n w (.descriptor d.bytes d.arrival (BitVec.ofNat 8 status) (BitVec.ofNat 32 detail))
  { c1 with req := { c1.req with
      rejected := c1.req.rejected + 1, stallHead := if c1.req.stallHead = some (n, w) then none else c1.req.stallHead } }

/-- Contexts held. -/
def Chip.inUse (c : Chip) : Nat := c.req.ctxs.length

/-- All 131,072 contexts are in use (R41). -/
def Chip.full (c : Chip) : Bool := 131072 ≤ c.inUse

/-- Admission stalls at a queue's head (R41); one episode lasts until admission goes on. -/
def Chip.admitStalls (c : Chip) (n w : Nat) : Chip :=
  if c.req.stallHead.isSome then c
  else { c with req := { c.req with
    stallHead := some (n, w), admitStallEvents := c.req.admitStallEvents + 1, events := c.req.events ||| 4 } }

/-- The Weir (R42): occupancy has risen to WEIR_LEVEL while armed. -/
def Chip.weirRise (c : Chip) : Chip :=
  let level := bits c.req.weir 17 0
  if level ≠ 0 ∧ c.req.weirFired = false ∧ level ≤ c.inUse then
    (List.range 4).foldl (fun c n => c.signalVec n (SMap.get 0 c.req.weirVec n))
      { c with req := { c.req with weirFired := true, events := c.req.events ||| 1 } }
  else c

/-- The Weir re-arms (R42). -/
def Chip.weirFall (c : Chip) : Chip :=
  let level := bits c.req.weir 17 0
  if level = 0 ∨ c.inUse ≤ Nat.min (bits c.req.weir 49 32) (level - 1) then { c with req := { c.req with weirFired := false } } else c

/-- TRACE_ADMIT or TRACE_DONE of a descriptor whose TRACE flag is set (R35; Table 3 of the Management chapter). -/
def Chip.trace (c : Chip) (code : Nat) (d : List Byte) (ctx : Option Nat) (port window status : Nat) : Chip :=
  if fieldB d 0x0B 1 / 4 % 2 = 1 then
    let word := match ctx with
      | some k => 2 ^ 31 + k
      | none => 0
    c.log code 0 0x40 (sliceB d 0 8 ++ leBytes 4 word ++ [BitVec.ofNat 8 port, BitVec.ofNat 8 window, BitVec.ofNat 8 status])
  else c

/-- The place of a Request in the order of admissions. -/
def Chip.seqOf (c : Chip) (ctx : Nat) : Nat :=
  match c.ctx ctx with
  | some x => x.seq
  | none => 0

/-- A stage put into the placement queue in admission order (R45). -/
def Chip.putStage (c : Chip) (p : Nat × Nat) : List (Nat × Nat) → List (Nat × Nat)
  | [] => [p]
  | q :: t => if c.seqOf p.1 < c.seqOf q.1 then p :: q :: t else q :: Chip.putStage c p t

/-- A text job that is ready. -/
def newTextJob (ctx s : Nat) : TextJob := { ctx := ctx, stage := s, lane := none, prog := 0, sent := false, got := [], asked := [] }

/-- A video job that is ready. -/
def newVidJob (ctx s : Nat) : VidJob :=
  { ctx := ctx, stage := s, parsed := false, input := [], frames := 0, units := 0, ended := 0, bad := 0, skipped := 0, written := [],
    sending := [], sent := false, got := [], asked := [] }

/-- A stage becomes ready (R44, R61): a CORE stage waits for placement, a TEXT stage at the Text Unit, a VIDEO stage at Video Intake. -/
def Chip.stageReady (c : Chip) (ctx area s : Nat) : Chip :=
  let c1 := c.setStage ctx s .ready
  if c.stageKind area s = 0 then { c1 with req := { c1.req with placeQ := c1.putStage (ctx, s) c1.req.placeQ } }
  else if c.stageKind area s = 1 then { c1 with txu := { c1.txu with jobs := c1.txu.jobs ++ [newTextJob ctx s] } }
  else { c1 with vid := { c1.vid with jobs := c1.vid.jobs ++ [newVidJob ctx s] } }

/-- A descriptor that passed every check takes a context (R41, R43) and its first stages become ready (R61). -/
def Chip.bindDesc (c : Chip) (k n w : Nat) (d : Desc) : Chip :=
  let slot := fieldB d.bytes 0x08 1 % 4
  let area := c.rcp.area slot
  let x : Ctx := { desc := d.bytes, port := n, window := w, arrival := d.arrival, area := area, digest := (c.rcp.slot slot).digest,
                   tag := c.lockTag, stages := [], drops := 0, ended := none, delivering := false, recordBytes := 0,
                   seq := c.req.admitted.toNat, cut := false, gone := false }
  let c1 := (c.takeDesc n w).setCtx k x
  let c2 := c1.setWindow n w { c1.window n w with active := (c1.window n w).active + 1 }
  let c3 := { c2 with req := { c2.req with admitted := c2.req.admitted + 1, stallHead := none }, pwr := { c2.pwr with fresh := [] } }
  let c4 := c3.weirRise.trace 0x0040 d.bytes (some k) n w 0xFF
  let roots := (List.range (c.stageCount area)).filter (fun s => c.predCount area s = 0)
  (roots.foldl (fun c s => c.stageReady k area s) c4).autoWake.unitsWake

/-- ADMIT: the descriptor whose turn it is; `k` is the free context that it takes when it passes (R39 to R41). -/
def Chip.tryAdmit (c : Chip) (k : Nat) : Chip :=
  if bit c.req.control 0 then c
  else
    match c.turnQueue with
    | none => c
    | some (n, w) =>
      match c.headDesc n w with
      | none => c
      | some d =>
        let c1 := { c with req := { c.req with nextQueue := (64 * n + w + 1) % 256 } }
        match c.checks d.bytes with
        | some (st, det) => c1.rejectDesc n w d st det
        | none => if c.full then c1.admitStalls n w else if (c.ctx k).isSome then c else c1.bindDesc k n w d

/-- The deadline of a descriptor that waits at its queue's head for a context has passed (R41). -/
def Chip.stalledDeadline (c : Chip) (n w : Nat) : Chip :=
  match c.headDesc n w with
  | none => c
  | some d =>
    if c.full ∧ bit c.req.control 0 = false ∧ c.checks d.bytes = some (0x16, 1) then
      c.rejectDesc n w d 0x16 1
    else c

/-! Placement. -/

/-- The eligible core with the most free slots, the lowest on a tie (R44). -/
def Chip.bestCore (c : Chip) (mask : Word) : Option Nat :=
  (c.eligible mask).foldl (fun b n =>
    let f := (c.core n).freeSlots.length
    match b with
    | none => if f = 0 then none else some n
    | some m => if (c.core m).freeSlots.length < f then some n else some m) none

/-- The state in which a task starts (R62, R158). -/
def Chip.startSlot (c : Chip) (ctx area s : Nat) : Slot :=
  let args := c.stageArgs area s
  { Slot.reset with
    task := some { ctx := ctx, stage := s },
    x := (List.range 8).map (fun i => (i + 1, w64 (fieldB args (8 * i) 8))),
    pc := w64 (areaBase area + c.stageEntry area s) &&& ~~~(3 : Word),
    xsp := w64 (c.img area (c.stageAt area s + 0x10) 8), xvec := w64 (c.img area (c.stageAt area s + 0x18) 8),
    xstatus := w64 (1 + (c.img area (c.stageAt area s + 0x01) 1 % 2) * 2) }

/-- STAGE_PLACE: the first stage of the placement queue for which an eligible core has a free slot (R44, R45). Which free slot of the core
is not stated, and is free. -/
def Chip.stagePlace (c : Chip) : Chip :=
  match c.req.placeQ.find? (fun p => !c.stageWaits p) with
  | none => c
  | some p =>
    match c.ctx p.1, c.bestCore (c.maskOf p) with
    | some x, some n =>
      let free := (c.core n).freeSlots
      match free[c.free.toNat % free.length]? with
      | none => c
      | some i =>
        let c1 := (c.spend.setCore n ((c.core n).setSlot i (c.startSlot p.1 x.area p.2))).setStage p.1 p.2 .running
        { c1 with req := { c1.req with placeQ := c1.req.placeQ.erase p } }
    | _, _ => c

/-- The state of a stage. -/
def Ctx.stageState (x : Ctx) (s : Nat) : StageState := SMap.get .waiting x.stages s

/-- A waiting stage all of whose predecessors have completed. -/
def Ctx.nowReady (x : Ctx) (es : List (Nat × Nat)) (s : Nat) : Bool :=
  x.stageState s = .waiting && es.all (fun e => e.2 ≠ s || x.stageState e.1 = .completed)

/-- STAGE_COMPLETE: a stage that has reported completes, and its successors may become ready (R61). -/
def Chip.stageComplete (c : Chip) (ctx s : Nat) : Chip :=
  match c.ctx ctx with
  | none => c
  | some x =>
    if x.stageState s ≠ .reported then c
    else
      let y := { x with stages := SMap.set x.stages s .completed }
      let c1 := c.setCtx ctx y
      if x.ended.isSome then c1
      else
        let es := c.stageEdges x.area
        let next := ((es.filter (fun e => e.1 = s)).map (fun e => e.2)).eraseDups
        ((next.filter (fun t => y.nowReady es t)).foldl (fun c t => c.stageReady ctx x.area t) c1).autoWake.unitsWake

/-- Whether a Request's deadline has passed; 0 never does (R46). -/
def Ctx.deadlinePassed (x : Ctx) (tide : Word) : Bool := fieldB x.desc 0x10 8 ≠ 0 && fieldB x.desc 0x10 8 ≤ tide.toNat

/-- The deadline of an admitted Request passes before its delivery begins (R34, R46). -/
def Chip.deadline (c : Chip) (ctx : Nat) : Chip :=
  match c.ctx ctx with
  | none => c
  | some x => if x.deadlinePassed c.tide then c.endReq ctx 0x16 0 else c

/-! Quiesce. -/

/-- Every Request in flight whose delivery has not begun ends with ABORT_QUIESCE (R54). -/
def Chip.abortAll (c : Chip) : Chip := c.req.ctxs.foldl (fun c p => c.endReq p.1 0x20 0) c

/-- The fields of RQT_CONTROL; reserved bits read 0 (Table 8, R12). -/
def controlMask : Word := 0xFFFFFFFF0000000D

/-- Whether the policy in force aborts now (R54): ABORT, or DRAIN_THEN_ABORT after its timeout. -/
def Chip.abortsNow (c : Chip) : Bool :=
  bit c.req.control 0 && (bits c.req.control 3 2 = 1 ||
    (2 ≤ bits c.req.control 3 2 && !c.req.timeoutRuns && bits c.req.control 63 32 ≠ 0))

/-- A write of RQT_CONTROL (R53, R54, R65). -/
def Chip.writeControl (c : Chip) (v : Word) : Chip :=
  let rise : Bool := !bit c.req.control 0 && bit v 0
  let c1 := { c with req := { c.req with
    control := v &&& controlMask, timeoutRuns := bit v 0 && (rise || c.req.timeoutRuns),
    stallHead := if bit v 0 then none else c.req.stallHead } }
  (if c1.abortsNow then c1.abortAll else c1).checkQuiesced

/-- DRAIN_TIMEOUT µs have passed since QUIESCE_REQ rose (R54). -/
def Chip.drainTimeout (c : Chip) : Chip :=
  if c.req.timeoutRuns ∧ bits c.req.control 63 32 ≠ 0 then
    let c1 := { c with req := { c.req with timeoutRuns := false } }
    if c1.abortsNow then c1.abortAll else c1
  else c

/-! Delivery. -/

/-- 2^REC_LOG2 (Table 5 of the port chapter). -/
def Window.recSize (x : Window) : Nat := 2 ^ clampNat 12 32 (bits x.ringCfg 5 0)
/-- 2^CPL_LOG2. -/
def Window.cplSize (x : Window) : Nat := 2 ^ clampNat 4 20 (bits x.ringCfg 12 8)

/-- Room between a tail and a head, which a partner may write beyond the tail (R424). -/
def ringRoom (size : Nat) (tail head : Word) : Int := (size : Int) - signed 64 (tail - head).toNat

/-- The bytes that a record takes before and at its place (R410): the skip, and its length rounded up to 64. -/
def Window.recordSkip (x : Window) (len : Nat) : Nat :=
  let o := x.recTail.toNat % x.recSize
  if x.recSize < o + roundUp len 64 then x.recSize - o else 0

/-- The 32-byte header of a Feature Record (R415). -/
def recordHeader (x : Ctx) (body : List Byte) : List Byte :=
  sliceB x.desc 0 8 ++ leBytes 4 (32 + body.length) ++ [1, 0, 0, 0] ++ sliceB x.digest 0 8 ++ leBytes 4 (crc32c body) ++ leBytes 4 0

/-- Free entries of a window's completion area. -/
def Window.cplRoom (x : Window) : Int := ringRoom x.cplSize x.cplTail x.cplHead

/-- The Request waits for ring space (R411). -/
def Chip.deliverWaits (c : Chip) (k : Nat) (x : Ctx) : Chip :=
  let w := c.window x.port x.window
  if k ∈ w.waiting then c else c.setWindow x.port x.window { w with waiting := w.waiting ++ [k] }

/-- Delivery begins (R411, R412): the record is placed and written, and the completion entry takes its place in the order. -/
def Chip.deliverNow (c : Chip) (k : Nat) (x : Ctx) (body : List Byte) : Chip :=
  let w := c.window x.port x.window
  let len := 32 + body.length
  let c1 := c.setCtx k { x with delivering := true, recordBytes := len }
  if x.cut || !(c.port x.port).alive then
    c1.setWindow x.port x.window { w with cplQ := c.cplPlace w.cplQ (.request k), waiting := w.waiting.filter (fun j => j ≠ k) }
  else
    let start := w.recTail + w64 (w.recordSkip len)
    let c2 := c1.setWindow x.port x.window { w with
      cplQ := c.cplPlace w.cplQ (.request k), waiting := w.waiting.filter (fun j => j ≠ k), recTail := start + w64 (roundUp len 64) }
    c2.busWrites x.port (w.recBase.toNat / 64 * 64 + start.toNat % w.recSize) (recordHeader x body ++ body) (bit w.ctrl 1) (bit w.ctrl 2)

/-- The body of a Request's Feature Record (R28): a function of the Recipe digest and the Sample Index, whose values the spec leaves to the
Recipe; `other` is the body of a Recipe that does not keep the manual's every "shall", or that holds bytes that the manual calls
unspecified. -/
def Ctx.recordBody (x : Ctx) (other : Option (List Byte)) : List Byte :=
  other.getD (Config.recordBody x.digest (w64 (fieldB x.desc 0x00 8)))

/-- DELIVERY_BEGIN: every stage has completed (R61, R411, R413). A deadline that has passed ends the Request even then (R34, R411). -/
def Chip.deliver (c : Chip) (k : Nat) (other : Option (List Byte)) : Chip :=
  match c.ctx k with
  | none => c
  | some x =>
    let body := x.recordBody other
    let w := c.window x.port x.window
    let len := 32 + body.length
    let done := (List.range (c.stageCount x.area)).all (fun s => x.stageState s = .completed)
    if x.ended.isSome || x.delivering || !done then c
    else if x.deadlinePassed c.tide then c.endReq k 0x16 0
    else if x.cut || !(c.port x.port).alive then c.deliverNow k x body
    else if w.recSize < roundUp len 64 then c.endReq k 0x14 (detailOf 0x40 1)
    else if ringRoom w.recSize w.recTail w.recHead < (w.recordSkip len + roundUp len 64 : Nat) ∨
        w.cplRoom < ((w.cplQ.filter c.cplReady).length + 1 : Nat) then c.deliverWaits k x
    else c.deliverNow k x body

/-- The status and DETAIL with which a Request completes (Table 3): its end, or OK with the indices that were dropped. -/
def Ctx.outcome (x : Ctx) : Byte × BitVec 32 :=
  match x.ended with
  | some e => e
  | none => if x.drops = 0 then (0, 0) else (1, BitVec.ofNat 32 (Nat.min x.drops (2 ^ 32 - 1)))

/-- A context returns to the free pool (R24): the Weir may re-arm, admission goes on, and QUIESCED may be reached. The handles of a Request
that the HUB has ended leave every Handle Queue before it does (R223). -/
def Chip.release (c0 : Chip) (k : Nat) (x : Ctx) : Chip :=
  let c := if x.ended.isSome then c0.purgeHandles k else c0
  let c1 := { c with req := { c.req with ctxs := SMap.erase c.req.ctxs k, stallHead := none } }
  let w := c1.window x.port x.window
  let c2 := c1.setWindow x.port x.window { w with
    active := if x.gone then w.active else w.active - 1, waiting := w.waiting.filter (fun j => j ≠ k) }
  c2.weirFall.checkQuiesced

/-- A completion entry (R37): PHASE is 1 on the first pass over the area (R412). -/
def Chip.cplEntry (c : Chip) (w : Window) (d : List Byte) (ctx : Option Nat) (len : Nat) (out : Byte × BitVec 32) (arrival : Word) :
    List Byte :=
  let phase := if w.cplTail.toNat / w.cplSize % 2 = 0 then 2 ^ 15 else 0
  let word := match ctx with
    | some k => 2 ^ 31 + k
    | none => 0
  sliceB d 0 8 ++ [out.1, BitVec.ofNat 8 (fieldB d 0x08 1 % 4)] ++ leBytes 2 (c.self + phase) ++ sliceB d 0x0C 4 ++ leBytes 4 word ++
    leBytes 4 len ++ leBytes 4 out.2.toNat ++ leBytes 4 (Nat.min (c.tide.toNat - arrival.toNat) (2 ^ 32 - 1))

/-- The window's interrupt is signalled (R417). -/
def Chip.winSignal (c : Chip) (n w : Nat) : Chip :=
  let x := c.window n w
  (c.setWindow n w { x with irqCount := 0 }).msix n (bits x.irq 58 48)

/-- An entry counts toward the window's interrupt while that is enabled (R417). -/
def Chip.winIrq (c : Chip) (n w : Nat) : Chip :=
  let x := c.window n w
  if bit x.irq 63 = false then c
  else
    let every := if bits x.irq 15 0 = 0 then 1 else bits x.irq 15 0
    let c1 := c.setWindow n w { x with irqCount := x.irqCount + 1 }
    if every ≤ x.irqCount + 1 then c1.winSignal n w else c1

/-- An entry is written to the completion area (R412), or with its delivery discarded and counted (R420). -/
def Chip.writeEntry (c : Chip) (n w : Nat) (cut : Bool) (entry : List Byte) : Chip :=
  let p := c.port n
  if cut || !p.alive then c.setPort n { p with discarded := p.discarded + 1 }
  else
    let x := c.window n w
    let c1 := c.setWindow n w { x with cplTail := x.cplTail + 1 }
    (c1.busWrites n (x.cplBase.toNat / 64 * 64 + 32 * (x.cplTail.toNat % x.cplSize)) entry false false).winIrq n w

/-- A completion is over: its entry, its trace, and the release of its context. -/
def Chip.finish (c : Chip) (n w : Nat) : CplItem → Chip
  | .descriptor d arrival st det =>
    (c.writeEntry n w false (c.cplEntry (c.window n w) d none 0 (st, det) arrival)).trace 0x0041 d none n w st.toNat
  | .request k =>
    match c.ctx k with
    | none => c
    | some x =>
      let out := x.outcome
      let len := if 0x10 ≤ out.1.toNat then 0 else x.recordBytes
      let c1 := c.writeEntry n w x.cut (c.cplEntry (c.window n w) x.desc (some k) len out x.arrival)
      (c1.trace 0x0041 x.desc (some k) n w out.1.toNat).release k x

/-- Whether a completion is discarded with its port. -/
def Chip.cplCut (c : Chip) (n : Nat) : CplItem → Bool
  | .descriptor _ _ _ _ => !(c.port n).alive
  | .request k =>
    match c.ctx k with
    | none => true
    | some x => x.cut || !(c.port n).alive

/-- COMPLETION_RECORD: the first completion of the window that is ready takes an entry; a Request that finds none free waits, and its wait
counts (R411, R412). -/
def Chip.completion (c : Chip) (n w : Nat) : Chip :=
  let x := c.window n w
  match x.cplQ.find? c.cplReady with
  | none => c
  | some i =>
    if c.cplCut n i = false ∧ x.cplRoom < 1 then
      (match i with
       | .descriptor _ _ _ _ => c
       | .request k => match c.ctx k with
         | some q => c.deliverWaits k q
         | none => c)
    else (c.setWindow n w { x with cplQ := x.cplQ.erase i }).finish n w i

/-! Rows. -/

/-- ADMIT (R40). -/
def execAdmitRequest (ctx : BitVec 17) (s : State) : Host.Outcome State Fault Refusal := s.run (fun c => c.tryAdmit ctx.toNat)
/-- STALLED_DESCRIPTOR_DEADLINE (R41). -/
def execStalledDescriptorDeadline (port : BitVec 2) (window : BitVec 6) (s : State) : Host.Outcome State Fault Refusal :=
  s.run (fun c => c.stalledDeadline port.toNat window.toNat)
/-- CWB_TIMER: an advance of TAKEN is written back within 2 µs (R407). -/
def execCwbTimer (port : BitVec 2) (window : BitVec 6) (s : State) : Host.Outcome State Fault Refusal :=
  s.run (fun c =>
    let x := c.window port.toNat window.toNat
    if 0 < x.cwbCount ∧ x.cwbAddr.toNat / 8 ≠ 0 then c.cwbWrite port.toNat window.toNat else c)
/-- STAGE_PLACE (R44). -/
def execStagePlace (s : State) : Host.Outcome State Fault Refusal := s.run (fun c => c.stagePlace)
/-- STAGE_COMPLETE (R61). -/
def execStageComplete (ctx : BitVec 17) (stage : BitVec 12) (s : State) : Host.Outcome State Fault Refusal :=
  s.run (fun c => c.stageComplete ctx.toNat stage.toNat)
/-- DEADLINE_EXPIRY (R46). -/
def execDeadlineExpiry (ctx : BitVec 17) (s : State) : Host.Outcome State Fault Refusal := s.run (fun c => c.deadline ctx.toNat)
/-- DELIVERY_BEGIN (R411). -/
def execDeliveryBegin (ctx : BitVec 17) (body : Option (List Byte)) (s : State) : Host.Outcome State Fault Refusal :=
  s.run (fun c => c.deliver ctx.toNat body)
/-- COMPLETION_RECORD (R412). -/
def execCompletionRecord (port : BitVec 2) (window : BitVec 6) (s : State) : Host.Outcome State Fault Refusal :=
  s.run (fun c => c.completion port.toNat window.toNat)
/-- IRQ_DELAY_EXPIRY (R417). -/
def execIrqDelayExpiry (port : BitVec 2) (window : BitVec 6) (s : State) : Host.Outcome State Fault Refusal :=
  s.run (fun c =>
    let x := c.window port.toNat window.toNat
    if bit x.irq 63 ∧ bits x.irq 47 32 ≠ 0 ∧ 0 < x.irqCount then c.winSignal port.toNat window.toNat else c)
/-- QUIESCE: RQT_CONTROL written with QUIESCE_REQ = 1 (R53, R54); no write acts while a warm restart blanks the block (R578). -/
def execQuiesce (value : Word) (s : State) : Host.Outcome State Fault Refusal :=
  s.run (fun c => if c.blackout then c else c.writeControl (value ||| 1))
/-- RESUME: RQT_CONTROL written with QUIESCE_REQ = 0 (R65). -/
def execResume (value : Word) (s : State) : Host.Outcome State Fault Refusal :=
  s.run (fun c => if c.blackout then c else c.writeControl (value &&& ~~~(1 : Word)))
/-- DRAIN_TIMEOUT_EXPIRY (R54). -/
def execDrainTimeoutExpiry (s : State) : Host.Outcome State Fault Refusal := s.run (fun c => c.drainTimeout)

end Sys2Proof.Machine
end

