-- ==== Sys2Proof/Machine/Recipe.lean ====
section
/-! DEFINITION. The Recipe block: staging and VERIFY (R47, R63, R66), slots (R48, R58), the Recipe Lock (R49, R64), the order in which its
writes take effect (R608), and what is logged of them (R611). -/

namespace Sys2Proof.Machine

/-- The package with its Recipe block replaced. -/
def Chip.setRcp (c : Chip) (r : Rcp) : Chip := { c with rcp := r }

/-- RCP_VERIFY in the log. -/
def Chip.logVerify (c : Chip) (st : StageStatus) (keySlot : Nat) (digest : List Byte) : Chip :=
  c.log 0x0003 (if st = .valid then 0 else 2) 0x44 ([BitVec.ofNat 8 st.code, BitVec.ofNat 8 keySlot] ++ sliceB digest 0 32)

/-- The range and length conditions on the staging registers (R47, R63). -/
def Rcp.stageOk (r : Rcp) : Bool :=
  512 ≤ r.stageLen.toNat && r.stageLen.toNat ≤ 2 ^ 30 && r.stageAddr.toNat + r.stageLen.toNat ≤ storeBase

/-- VERIFY takes effect (R47, R66): the image is copied into the staging area, or its range makes it BAD_FORMAT. -/
def Chip.startVerify (c : Chip) : Chip :=
  let r := c.rcp
  if r.stageStatus = .verifying then c
  else if r.stageOk = false then (c.setRcp { r with stageStatus := .badFormat }).logVerify .badFormat 0 []
  else
    (c.put (cellsAt (areaBase r.stageArea) (c.bytes r.stageAddr.toNat r.stageLen.toNat))).setRcp
      { r with stageStatus := .verifying, imageLen := r.stageLen.toNat }

/-- The Management Controller's verdict on the copy (R63, R536). -/
def Chip.verdict (c : Chip) (digest : List Byte) : StageStatus :=
  let trailer := c.rcp.imageLen - 256
  if c.signatureOk c.rcp.stageArea trailer digest = false then .badSignature
  else if c.formatOk c.rcp.stageArea trailer = false then .badFormat
  else .valid

/-- VERIFY ends (R47, R63). -/
def Chip.endVerify (c : Chip) : Chip :=
  if c.rcp.stageStatus = .verifying ∧ c.mc.running = true then
    let trailer := c.rcp.imageLen - 256
    let digest := sha384 (c.bytes (areaBase c.rcp.stageArea) trailer)
    let st := c.verdict digest
    (c.setRcp { c.rcp with stageStatus := st, stageDigest := digest }).logVerify st (c.img c.rcp.stageArea trailer 1) digest
  else c

/-- RCP_STAGE_ADDR or RCP_STAGE_LEN written (R57, R66). -/
def Rcp.stageWrite (r : Rcp) (len : Bool) (v : Word) : Rcp :=
  if r.stageStatus = .verifying then r
  else if len then { r with stageLen := v &&& 0xFFFFFFFF, stageStatus := .idle }
  else { r with stageAddr := v &&& 0x3FFFFFFFFF000, stageStatus := .idle }

/-! Slots. -/

/-- The staging area and the area of slot n change places (R58). -/
def Rcp.exchange (r : Rcp) (n : Nat) : Rcp :=
  if n = 0 then { r with area0 := r.stageArea, stageArea := r.area0 }
  else if n = 1 then { r with area1 := r.stageArea, stageArea := r.area1 }
  else if n = 2 then { r with area2 := r.stageArea, stageArea := r.area2 }
  else { r with area3 := r.stageArea, stageArea := r.area3 }

/-- A slot replaced. -/
def Rcp.setSlot (r : Rcp) (n : Nat) (x : RcpSlot) : Rcp := { r with slots := SMap.set r.slots n x }

/-- COMMIT takes effect (R48, R50): nothing while the slots are frozen; refused without a VALID image; else it is under way. -/
def Rcp.startCommit (r : Rcp) (n : Nat) : Rcp :=
  if r.locked then r
  else if r.stageStatus ≠ .valid then r.setSlot n { r.slot n with last := 2 }
  else { r with busy := some (.commit n) }

/-- The exchange of a COMMIT is done (R48). -/
def Rcp.endCommit (r : Rcp) (n : Nat) : Rcp :=
  { (r.exchange n).setSlot n { ready := true, last := 1, digest := r.stageDigest } with stageStatus := .idle, busy := none }

/-- CLEAR empties a slot (R48). -/
def Rcp.clear (r : Rcp) (n : Nat) : Rcp := if r.locked then r else r.setSlot n { r.slot n with ready := false, digest := [] }

/-! The lock. -/

/-- LOCK in the log (R611). -/
def Chip.logLock (c : Chip) (digest : List Byte) : Chip :=
  c.log 0x0004 0 0x44 (BitVec.ofNat 8 c.rcp.lastResult.toNat :: sliceB digest 0 32)

/-- The digest of the four slot digests, zeros for an empty slot (R49). -/
def Rcp.lockSum (r : Rcp) : List Byte :=
  sha384 ((List.range 4).flatMap (fun n => if (r.slot n).ready then sliceB (r.slot n).digest 0 48 else List.replicate 48 0))

/-- RCP_LOCK_EXPECT as 48 bytes (R52). -/
def Rcp.expected (r : Rcp) : List Byte := (List.range 6).flatMap (fun i => leBytes 8 (SMap.get 0 r.expect i).toNat)

/-- The TAP instruction in force while JTAG is locked: every one but IDCODE acts as BYPASS (R524). -/
def lockedTap : JtagOp → JtagOp
  | .idcode => .idcode
  | _ => .bypass

/-- A successful LOCK_REQ closes JTAG (R524). -/
def Chip.closeJtag (c : Chip) : Chip :=
  if c.mc.jtagOpen then
    ({ c with mc := { c.mc with jtagOpen := false, tap := lockedTap c.mc.tap } }).log 0x0050 1 0x44 [0, BitVec.ofNat 8 c.mc.jtagSlot]
  else c

/-- LOCK_REQ takes effect (R49, R64): the Bring-up condition first, then QUIESCED, then the digest. -/
def Chip.takeLock (c : Chip) : Chip :=
  if c.rst.bringupMode then (c.setRcp { c.rcp with lastResult := 4 }).logLock []
  else if c.req.quiesced = false then (c.setRcp { c.rcp with lastResult := 3 }).logLock []
  else
    let d := c.rcp.lockSum
    if d = c.rcp.expected then
      ((c.setRcp { c.rcp with locked := true, lockDigest := d, lastResult := 1 }).logLock d).closeJtag.joinReport
    else (c.setRcp { c.rcp with lastResult := 2 }).logLock d

/-- UNLOCK takes effect (R53, R64). -/
def Chip.dropLock (c : Chip) : Chip :=
  if c.req.quiesced = false then (c.setRcp { c.rcp with lastResult := 5 }).logLock []
  else (c.setRcp { c.rcp with locked := false, lockDigest := [], lastResult := 6 }).logLock c.rcp.lockDigest

/-! The order of R608. -/

/-- A write of the block takes effect. -/
def Chip.rcpEffect (c : Chip) : RcpOp → Chip
  | .verify => c.startVerify
  | .commit n => c.setRcp (c.rcp.startCommit n)
  | .clear n => c.setRcp (c.rcp.clear n)
  | .lockReq => c.takeLock
  | .unlock => c.dropLock

/-- A write that reaches the block waits until the one before it has completed; none is taken in the blackout of R578. -/
def Chip.rcpSubmit (c : Chip) (o : RcpOp) : Chip :=
  if c.blackout then c
  else if c.rcp.busy.isSome then c.setRcp { c.rcp with queue := c.rcp.queue ++ [o] }
  else c.rcpEffect o

/-- A COMMIT completes, and the writes that waited take effect in their order. -/
def Chip.commitDone (c : Chip) : Chip :=
  match c.rcp.busy with
  | some (.commit n) =>
    c.rcp.queue.foldl (fun c o => c.rcpSubmit o) (c.setRcp { c.rcp.endCommit n with queue := [] })
  | _ => c

/-! Rows. -/

/-- VERIFY (R47). -/
def execVerify (s : State) : Host.Outcome State Fault Refusal := s.run (fun c => c.rcpSubmit .verify)
/-- VERIFY_DONE (R63). -/
def execVerifyDone (s : State) : Host.Outcome State Fault Refusal := s.run (fun c => c.endVerify)
/-- STAGE_REG_WRITE (R66). -/
def execStageRegWrite (len : Bool) (value : Word) (s : State) : Host.Outcome State Fault Refusal :=
  s.run (fun c => if c.blackout then c else c.setRcp (c.rcp.stageWrite len value))
/-- SLOT_COMMIT (R48). -/
def execSlotCommit (slot : BitVec 2) (s : State) : Host.Outcome State Fault Refusal := s.run (fun c => c.rcpSubmit (.commit slot.toNat))
/-- SLOT_COMMIT_DONE (R48). -/
def execSlotCommitDone (s : State) : Host.Outcome State Fault Refusal := s.run (fun c => c.commitDone)
/-- SLOT_CLEAR (R48). -/
def execSlotClear (slot : BitVec 2) (s : State) : Host.Outcome State Fault Refusal := s.run (fun c => c.rcpSubmit (.clear slot.toNat))
/-- LOCK_REQ (R49). -/
def execLockReq (s : State) : Host.Outcome State Fault Refusal := s.run (fun c => c.rcpSubmit .lockReq)
/-- UNLOCK (R53). -/
def execUnlock (s : State) : Host.Outcome State Fault Refusal := s.run (fun c => c.rcpSubmit .unlock)

end Sys2Proof.Machine
end

