-- ==== Sys2Proof/Machine/Units.lean ====
section
/-! DEFINITION. How the Text Unit and Video Intake read and write (R140, R208, R358, R419): as engines do, without a Pool of their own. -/

namespace Sys2Proof.Machine

/-- A read sent out for a job, unless it is asked for already; the reads asked for come back. -/
def Chip.unitAsk (c : Chip) (h : Holder) (ctx stage : Nat) (asked : List Nat) : Ask → Chip × List Nat
  | .remote t p n =>
    if t.key ∈ asked ∨ (c.core 0).slotTrackers 1 = false then (c, asked) else ((c.remote 0 h .read t p n [] ctx 0).1, t.key :: asked)
  | .bus port a n =>
    if busKey port a ∈ asked then (c, asked)
    else
      match c.busAsk (if h = .text then .text ctx stage else .video ctx stage) ctx port a n with
      | some d => (d, busKey port a :: asked)
      | none => (c, asked)
  | .slice _ _ _ _ _ _ _ => (c, asked)

/-- All the reads that a job needs. -/
def Chip.unitAsks (c : Chip) (h : Holder) (ctx stage : Nat) (asked : List Nat) (l : List Ask) : Chip × List Nat :=
  l.foldl (fun p a => p.1.unitAsk h ctx stage p.2 a) (c, asked)

/-- Why a job does not go on: an error or a lost package ends its Request. -/
def Chip.unitStop (c : Chip) (source ctx : Nat) : Stop → Chip
  | .fault status code => c.endReq ctx status (detailOf source code)
  | .dead p => c.endReq ctx 0x15 (detailRemote p false)
  | .wait _ => c
  | .again => c
  | .ask _ => c

/-- A write of a job. -/
def Chip.unitWrite (c : Chip) (h : Holder) (ctx : Nat) : Wr → Chip
  | .here o d => (c.memAccess (requesterOf 0 h) 1 none o).putAt o d
  | .remote t p d => (c.remote 0 h .write t p d.length d ctx 0).1
  | .bulk _ _ _ _ => c
  | .bus port a d => c.busWrites port a d false false

/-- Writes of a job in order. -/
def Chip.unitWrites (c : Chip) (h : Holder) (ctx : Nat) (l : List Wr) : Chip := l.foldl (fun c w => c.unitWrite h ctx w) c

/-- The writes to other packages among a job's writes. -/
def farWrites (l : List Wr) : List Wr := l.filter Wr.isRemote

/-- The writes to other packages that are still to go out, after `prog` of them, as far as trackers allow; how many are out then. -/
def Chip.unitSend (c : Chip) (h : Holder) (ctx prog : Nat) (l : List Wr) : Chip × Nat :=
  let now := ((farWrites l).drop prog).take (1024 - (c.core 0).trks.length)
  (c.unitWrites h ctx now, prog + now.length)

/-- Whether every write and read of a Request's jobs on other packages is answered. -/
def Chip.unitQuiet (c : Chip) (h : Holder) (ctx : Nat) : Bool := !((c.core 0).trks.any (fun t => t.holder = h && t.ctx = ctx))

/-- The place of a write to another package. -/
def Wr.farKey : Wr → Option Nat
  | .remote t _ _ => some t.key
  | _ => none

/-- Whether the writes of a list that went to other packages are performed (R140). -/
def Chip.unitLanded (c : Chip) (h : Holder) (ctx : Nat) (l : List Wr) : Bool :=
  !((c.core 0).trks.any (fun t => t.holder = h && t.ctx = ctx && l.any (fun w => w.farKey = some t.addr)))

/-- The reader that a unit is: no Pool of its own. -/
def Chip.unitReader (c : Chip) (got : SMap Byte) : Reader := { chip := c, own := none, got := got, room := true, now := c.mem }

/-- A unit's reads of this package wait at their arbiters (R241). -/
def Chip.unitReads (c : Chip) (h : Holder) (reads : List Nat) : Chip := reads.foldl (fun c o => c.memAccess (requesterOf 0 h) 0 none o) c

/-- Where the input of a job comes from (Table 3 of the text chapter): its own entries of the Request's list, or a list of its own. -/
structure InputAt where
  own : Bool
  first : Nat
  count : Nat
  base : Word
  deriving DecidableEq, Repr

/-- The entries of a job's input (R358): a BUS entry outside the Request's own list is an error. -/
def inputBlocks (x : Ctx) (q : InputAt) (er : Errs) (busCode : Nat) : Rd (List Block) := do
  if q.own then
    let l := x.list
    let n := Nat.min q.count (l.count - q.first)
    let a := l.addr + w64 (16 * q.first)
    let b ← if l.bus then rdBus l.port a.toNat (16 * n) else rdBytes er (effAddr l.addr (w64 (16 * q.first))) (16 * n)
    return blocksOf n b
  else
    let b ← rdBytes er q.base (16 * q.count)
    let bs := blocksOf q.count b
    if bs.any (fun e => e.bus) then rdFail 0x14 busCode else return bs

/-- Whether a Request still runs: its context is held and nothing has ended it. -/
def Chip.live (c : Chip) (ctx : Nat) : Option Ctx :=
  match c.ctx ctx with
  | some x => if x.ended.isSome then none else some x
  | none => none

end Sys2Proof.Machine
end

