-- ==== Sys2Proof/Machine/Text.lean ====
section
/-! DEFINITION. The Text Unit (R353 to R372): vocabulary slots, text jobs, tokenisation and detokenisation. -/

namespace Sys2Proof.Machine

/-! Vocabulary slots. -/

/-- Where the image of a slot begins: 64-byte aligned (Table 1). -/
def Voc.start (v : Voc) : Nat := bits v.base 49 6 * 64
/-- Bytes of the image: 0 acts as 64. -/
def Voc.size (v : Voc) : Nat := if bits v.len 26 0 = 0 then 64 else bits v.len 26 0

/-- The package with one vocabulary slot replaced. -/
def Chip.setVoc (c : Chip) (n : Nat) (v : Voc) : Chip := { c with txu := { c.txu with vocs := SMap.set c.txu.vocs n v } }

/-- A field of a slot's image. -/
def Chip.vocField (c : Chip) (v : Voc) (o n : Nat) : Nat := leNat (c.bytes (v.start + o) n)
/-- TOKENS (Table 2). -/
def Chip.vocTokens (c : Chip) (v : Voc) : Nat := c.vocField v 0x08 4
/-- MERGES. -/
def Chip.vocMerges (c : Chip) (v : Voc) : Nat := c.vocField v 0x0C 4
/-- BYTE_BASE. -/
def Chip.byteBase (c : Chip) (v : Voc) : Nat := c.vocField v 0x10 4
/-- The directory entry of a token. -/
def Chip.tokenEntry (c : Chip) (v : Voc) (t : Nat) : Word := w64 (c.vocField v (c.vocField v 0x18 8 + 8 * t) 8)
/-- The string of a token. -/
def Chip.tokenString (c : Chip) (v : Voc) (t : Nat) : List Byte :=
  c.bytes (v.start + bits (c.tokenEntry v t) 31 0) (bits (c.tokenEntry v t) 40 32)
/-- Whether a token is SPECIAL. -/
def Chip.tokenSpecial (c : Chip) (v : Voc) (t : Nat) : Bool := bit (c.tokenEntry v t) 63
/-- Merge entry i: LEFT, RIGHT and RESULT. -/
def Chip.mergeEntry (c : Chip) (v : Voc) (i : Nat) : Nat × Nat × Nat :=
  let o := c.vocField v 0x20 8 + 12 * i
  (c.vocField v o 4, c.vocField v (o + 4) 4, c.vocField v (o + 8) 4)

/-- Whether a token's string is as LOAD demands: at most 256 bytes, within the image. -/
def Chip.tokenOk (c : Chip) (v : Voc) (t : Nat) : Bool :=
  let e := c.tokenEntry v t
  bits e 40 32 ≤ 256 && (bits e 40 32 = 0 || bits e 31 0 + bits e 40 32 ≤ v.size)

/-- Whether a merge entry is as LOAD demands. -/
def Chip.mergeOk (c : Chip) (v : Voc) (i : Nat) : Bool :=
  let m := c.mergeEntry v i
  let n := c.vocTokens v
  m.1 < n && m.2.1 < n && m.2.2 < n && c.tokenString v m.2.2 = c.tokenString v m.1 ++ c.tokenString v m.2.1

/-- The conditions of Table 2 (R356). -/
def Chip.vocFormat (c : Chip) (v : Voc) : Bool :=
  let n := c.vocTokens v
  c.vocField v 0x00 4 = 0x31565854 && c.vocField v 0x04 1 ≤ 2 && c.vocField v 0x05 1 ≤ 3 && 256 ≤ n && n ≤ 262144 &&
    c.vocMerges v ≤ 262144 && c.byteBase v ≤ n - 256 && (List.range n).all (fun t => c.tokenOk v t) &&
    (List.range (c.vocMerges v)).all (fun i => c.mergeOk v i)

/-- LOAD (R353, R370): frozen under the lock; ignored while LOADING; BAD_FORMAT where the range is not Recipe-use HBM. -/
def Chip.vocLoad (c : Chip) (n : Nat) : Chip :=
  let v := c.txu.voc n
  if c.blackout || c.locked || v.state = 1 then c
  else c.setVoc n { v with state := if v.start + v.size ≤ storeBase then 1 else 3, digest := [], image := [] }

/-- A LOAD ends (R353, R356). -/
def Chip.vocLoaded (c : Chip) (n : Nat) : Chip :=
  let v := c.txu.voc n
  if v.state ≠ 1 then c
  else if c.vocFormat v then c.setVoc n { v with state := 2, digest := sha384 (c.bytes v.start v.size), image := c.bytes v.start v.size }
  else c.setVoc n { v with state := 3 }

/-- CLEAR empties a slot (R370). -/
def Chip.vocClear (c : Chip) (n : Nat) : Chip :=
  if c.blackout || c.locked then c else c.setVoc n { c.txu.voc n with state := 0, digest := [], image := [] }

/-! UTF-8 (R361). -/

/-- How many continuation bytes a lead byte needs; 0 for a byte that leads nothing. -/
def utf8Need (n : Nat) : Nat := if 0xC2 ≤ n ∧ n ≤ 0xDF then 1 else if 0xE0 ≤ n ∧ n ≤ 0xEF then 2 else if 0xF0 ≤ n ∧ n ≤ 0xF4 then 3 else 0

/-- Whether byte i after a lead byte continues it well. -/
def utf8Cont (lead i b : Nat) : Bool :=
  if i = 0 then
    (if lead = 0xE0 then 0xA0 ≤ b && b ≤ 0xBF
     else if lead = 0xED then 0x80 ≤ b && b ≤ 0x9F
     else if lead = 0xF0 then 0x90 ≤ b && b ≤ 0xBF
     else if lead = 0xF4 then 0x80 ≤ b && b ≤ 0x8F
     else 0x80 ≤ b && b ≤ 0xBF)
  else 0x80 ≤ b && b ≤ 0xBF

/-- The first code point of a byte string and its length; none for a maximal subpart of an ill-formed sequence. -/
def utf8Step : List Byte → Option Nat × Nat
  | [] => (none, 0)
  | b :: t =>
    let n := b.toNat
    let need := utf8Need n
    if n < 0x80 then (some n, 1)
    else if need = 0 then (none, 1)
    else
      let ok := (t.take need).zipIdx.takeWhile (fun p => utf8Cont n p.2 p.1.toNat)
      if ok.length = need then (some (ok.foldl (fun a p => a * 64 + p.1.toNat % 64) (n % 2 ^ (6 - need))), need + 1)
      else (none, ok.length + 1)

/-- The code points of a byte string, ill-formed subparts as U+FFFD, and how many of those there are. -/
def utf8Read : Nat → List Byte → List Nat × Nat
  | 0, _ => ([], 0)
  | fuel + 1, l =>
    if l.isEmpty then ([], 0)
    else
      let s := utf8Step l
      let r := utf8Read fuel (l.drop s.2)
      match s.1 with
      | some cp => (cp :: r.1, r.2)
      | none => (0xFFFD :: r.1, r.2 + 1)

/-- A code point in UTF-8. -/
def utf8Char (c : Nat) : List Byte :=
  let b := fun (n : Nat) => BitVec.ofNat 8 n
  if c < 0x80 then [b c]
  else if c < 0x800 then [b (0xC0 + c / 64), b (0x80 + c % 64)]
  else if c < 0x10000 then [b (0xE0 + c / 4096), b (0x80 + c / 64 % 64), b (0x80 + c % 64)]
  else [b (0xF0 + c / 262144), b (0x80 + c / 4096 % 64), b (0x80 + c / 64 % 64), b (0x80 + c % 64)]

/-! Normalisation (R362) by the algorithm of the Unicode standard over the data of Unicode 15.1.0, in which ASCII stands for itself (PRESUMED,
log 23). -/

/-- The decomposition of a code point; an unassigned one passes unchanged (R362). -/
def decompose (compat : Bool) (c : Nat) : List Nat := if c < 0x80 ∨ Config.assigned c = false then [c] else Config.decomposition compat c

/-- The combining class of a code point. -/
def combiningOf (c : Nat) : Nat := if c < 0x80 ∨ Config.assigned c = false then 0 else Config.combining c

/-- The composite of two code points. -/
def compositeOf (a b : Nat) : Option Nat :=
  if b < 0x80 ∨ Config.assigned b = false ∨ (0x80 ≤ a ∧ Config.assigned a = false) then none else Config.composite a b

/-- A code point into a run of combining marks in the order of their classes, after those of the same class. -/
def insertMark (c : Nat) : List Nat → List Nat
  | [] => [c]
  | d :: t => if combiningOf c < combiningOf d then c :: d :: t else d :: insertMark c t

/-- The marks of each run in the order of their classes. -/
def orderMarks : List Nat → List Nat → List Nat
  | run, [] => run
  | run, c :: t => if combiningOf c = 0 then run ++ c :: orderMarks [] t else orderMarks (insertMark c run) t

/-- Composition: the last starter, the marks after it that stay, and the text that follows. -/
def composeFrom : Nat → List Nat → List Nat → List Nat
  | s, kept, [] => s :: kept
  | s, kept, c :: t =>
    let blocked : Bool := match kept.getLast? with
      | some k => combiningOf c ≤ combiningOf k
      | none => false
    match (if blocked then none else compositeOf s c) with
    | some d => composeFrom d kept t
    | none => if combiningOf c = 0 then s :: kept ++ composeFrom c [] t else composeFrom s (kept ++ [c]) t

/-- Normalisation form C or KC of a text. -/
def normalise (compat : Bool) (l : List Nat) : List Nat :=
  let m := orderMarks [] (l.flatMap (decompose compat))
  let lead := m.takeWhile (fun c => combiningOf c ≠ 0)
  match m.drop lead.length with
  | [] => lead
  | s :: t => lead ++ composeFrom s [] t

/-! Pieces (R363). -/

/-- The code points with the White_Space property (PRESUMED, log 23). -/
def whiteSpace (c : Nat) : Bool :=
  (0x09 ≤ c && c ≤ 0x0D) || c = 0x20 || c = 0x85 || c = 0xA0 || c = 0x1680 || (0x2000 ≤ c && c ≤ 0x200A) || c = 0x2028 || c = 0x2029 ||
    c = 0x202F || c = 0x205F || c = 0x3000

/-- The class of a code point (R363); U+FFFD is of class P. -/
def classOf (c : Nat) : CharClass :=
  if whiteSpace c then .space
  else if 0x30 ≤ c ∧ c ≤ 0x39 then .number
  else if (0x41 ≤ c ∧ c ≤ 0x5A) ∨ (0x61 ≤ c ∧ c ≤ 0x7A) then .letter
  else if c < 0x80 ∨ c = 0xFFFD then .other
  else if Config.charClass c = .space then .other
  else Config.charClass c

/-- The text cut at every change of class. -/
def classRuns (l : List Nat) : List (CharClass × List Nat) :=
  l.foldr (fun c acc => match acc with
    | [] => [(classOf c, [c])]
    | (k, r) :: t => if k = classOf c then (k, c :: r) :: t else (classOf c, [c]) :: (k, r) :: t) []

/-- A list in groups of n from the left. -/
def groupsOf (n : Nat) : Nat → List Nat → List (List Nat)
  | 0, _ => []
  | fuel + 1, l => if l.isEmpty then [] else l.take n :: groupsOf n fuel (l.drop n)

/-- Runs of digits split into groups of DIGIT_MAX. -/
def splitDigits (max : Nat) (l : List (CharClass × List Nat)) : List (CharClass × List Nat) :=
  l.flatMap (fun p => if p.1 = .number ∧ max ≠ 0 then (groupsOf max p.2.length p.2).map (fun g => (CharClass.number, g)) else [p])

/-- SPACE_ATTACH: the final space of a run goes to the front of the piece that follows. -/
def attachSpace : Bool → List (CharClass × List Nat) → List (List Nat)
  | _, [] => []
  | carry, (k, l) :: t =>
    let l1 := if carry then 0x20 :: l else l
    if k = .space ∧ l.getLast? = some 0x20 ∧ t ≠ [] then
      (if l1.dropLast.isEmpty then [] else [l1.dropLast]) ++ attachSpace true t
    else l1 :: attachSpace false t

/-- A piece in parts of at most 256 bytes, cut at code points from the left. -/
def splitLong : List (List Byte) → List Byte → List (List Byte)
  | [], cur => if cur.isEmpty then [] else [cur]
  | ch :: t, cur => if 256 < cur.length + ch.length then cur :: splitLong t ch else splitLong t (cur ++ ch)

/-- The pieces of a normalised text, in bytes. -/
def piecesText (digitMax : Nat) (space : Bool) (l : List Nat) : List (List Byte) :=
  let runs := splitDigits digitMax (classRuns l)
  let ps := if space then attachSpace false runs else runs.map (fun p => p.2)
  ps.flatMap (fun p => splitLong (p.map utf8Char) [])

/-! Merging (R364). -/

/-- The lowest-ranked merge entry of a pair: its rank and RESULT. -/
def mergeOf (ms : List (Nat × Nat × Nat)) (a b : Nat) : Option (Nat × Nat) :=
  (ms.zipIdx.find? (fun p => p.1.1 = a && p.1.2.1 = b)).map (fun p => (p.2, p.1.2.2))

/-- The lowest rank among the adjacent pairs of a piece. -/
def lowestRank (ms : List (Nat × Nat × Nat)) : List Nat → Option Nat
  | a :: b :: t =>
    match mergeOf ms a b, lowestRank ms (b :: t) with
    | some r, some q => some (Nat.min r.1 q)
    | some r, none => some r.1
    | none, q => q
  | _ => none

/-- The leftmost pair of a rank replaced by its RESULT. -/
def applyRank (ms : List (Nat × Nat × Nat)) (rank : Nat) : List Nat → List Nat
  | a :: b :: t =>
    match mergeOf ms a b with
    | some r => if r.1 = rank then r.2 :: t else a :: applyRank ms rank (b :: t)
    | none => a :: applyRank ms rank (b :: t)
  | l => l

/-- The tokens of a piece. -/
def mergeAll (ms : List (Nat × Nat × Nat)) : Nat → List Nat → List Nat
  | 0, l => l
  | n + 1, l =>
    match lowestRank ms l with
    | some r => mergeAll ms n (applyRank ms r l)
    | none => l

/-! Jobs. -/

/-- What a job writes: output first, then its result record; what it adds to TXU_BYTES and TXU_REPLACED, and how many free values it takes. -/
structure TextOut where
  outs : List Wr
  record : List Wr
  bytes : Nat
  replaced : Nat
  free : Nat

/-- Errors of reads (Table 5). -/
def txRead : Errs := Errs.same 0x10 0x01
/-- Errors of writes (Table 5). -/
def txWrite : Errs := ⟨0x14, 0x02, 0x14, 0x03⟩

/-- The result record of Table 4. -/
def textRecord (outCount outTotal consumed replaced : Nat) (stop : Option Nat) (stopByte pieces : Nat) (carry : List Byte) : List Byte :=
  let flag : Byte := if stop.isSome then 1 else 0
  leBytes 4 outCount ++ leBytes 4 outTotal ++ leBytes 4 consumed ++ leBytes 4 replaced ++
    [flag, BitVec.ofNat 8 (stop.getD stopByte), 0, 0] ++ leBytes 4 pieces ++ List.replicate 40 0 ++ sliceB carry 0 64

/-- The bytes of a job's input (R358), and where those of this fabric lie: above 64 MiB is error 0x05. -/
def textInput (x : Ctx) (d : List Byte) (c : Nat) : Rd (List Byte × List (Word × Nat)) := do
  let q : InputAt := {
    own := fieldB d 1 1 % 2 = 0, first := fieldB d 0x04 4, count := fieldB d 0x08 4,
    base := effAddr (w64 (fieldB d 0x10 8)) (w64 (c * fieldB d 0x28 4)) }
  let bs ← inputBlocks x q txRead 0x09
  if 2 ^ 26 < blocksLen bs then rdFail 0x14 0x05
  else return (← readBlocks txRead x.port bs 0 (blocksLen bs), bs.flatMap Block.ranges)

/-- Where the output of a job goes. -/
def textOutAt (d : List Byte) (c : Nat) : Word := effAddr (w64 (fieldB d 0x18 8)) (w64 (c * fieldB d 0x2C 4))
/-- Where the result record of a job goes. -/
def textResAt (d : List Byte) (c : Nat) : Word := effAddr (w64 (fieldB d 0x20 8)) (w64 (128 * c))

/-- Whether the bytes of a READY image have changed since LOAD judged them (R354). -/
def Chip.vocChanged (c : Chip) (v : Voc) : Bool := c.bytes v.start v.size ≠ v.image

/-- n free values of 32 bits. -/
def freeWords (ctr n : Nat) : List Nat := (List.range n).map (fun i => (Config.freeWord (ctr + i)).toNat % 2 ^ 32)

/-- The output and the result record of a job: what overlaps the other, or the input, holds free values (R372), after `used` others. -/
def textPut (x : List (Word × Nat)) (out rec_ : Word × List Byte) (used bytes replaced : Nat) : Rd TextOut := do
  let r ← read
  let s := settle { r with chip := { r.chip with freeCtr := r.chip.freeCtr + used } } x [[out], [rec_]]
  let put := fun (o : Output) => rdAll (fun (p : Word × List Byte) => wrBytes txWrite p.1 p.2) o
  let w ← put (s.1.getD 0 [])
  let v ← put (s.1.getD 1 [])
  return { outs := w.flatten, record := v.flatten, bytes := bytes, replaced := replaced, free := used + s.2 }

/-- TOKENISE (R361 to R364, R371); with a changed image the tokens are free values (R354). -/
def tokenise (v : Voc) (x : Ctx) (d : List Byte) (ctx : Nat) : Rd TextOut := do
  let c := (← read).chip
  let (input, at_) ← textInput x d ctx
  let u := utf8Read input.length input
  if 0 < u.2 ∧ fieldB d 1 1 / 2 % 2 = 1 then rdFail 0x14 0x04
  else
    let changed := c.vocChanged v
    let norm := c.vocField v 0x04 1
    let text := if norm = 1 then normalise false u.1 else if norm = 2 then normalise true u.1 else u.1
    let ps := piecesText (c.vocField v 0x05 1) (c.vocField v 0x06 1 % 2 = 1) text
    let ms := (List.range (c.vocMerges v)).map (fun i => c.mergeEntry v i)
    let k := c.freeCtr
    let count := (freeWords k 2).headD 0
    let toks := if changed then freeWords (k + 2) count
      else ps.flatMap (fun p => mergeAll ms p.length (p.map (fun b => c.byteBase v + b.toNat)))
    let pieces := if changed then (freeWords (k + 1) 1).headD 0 else ps.length
    let out := toks.take (fieldB d 0x0C 4)
    let rec_ := if input.isEmpty then List.replicate 128 0
      else textRecord out.length toks.length input.length u.2 none 0xFF pieces []
    textPut at_ (textOutAt d ctx, out.flatMap (fun t => leBytes 4 t)) (textResAt d ctx, rec_) (if changed then 2 + count else 0) input.length u.2

/-- Whether a list ends with a string. -/
def endsWith (l s : List Byte) : Bool := s.length ≤ l.length && l.drop (l.length - s.length) = s

/-- The lowest stop string that ends the first n bytes of a stream. -/
def stopAt (stops : List (List Byte)) (l : List Byte) : Option Nat :=
  (stops.zipIdx.find? (fun p => !p.1.isEmpty && endsWith l p.1)).map (fun p => p.2)

/-- The first end of a stop string in a stream (R366): the place of its last byte and the string's number. -/
def findStop (stops : List (List Byte)) (l : List Byte) : Option (Nat × Nat) :=
  ((List.range l.length).filterMap (fun p => (stopAt stops (l.take (p + 1))).map (fun j => (p, j)))).head?

/-- Whether a string is a proper part of the beginning of some stop string. -/
def beginsStop (stops : List (List Byte)) (s : List Byte) : Bool := stops.any (fun t => s.length < t.length && t.take s.length = s)

/-- The bytes held back because a stop string may begin with them. -/
def heldStop (stops : List (List Byte)) (l : List Byte) : Nat :=
  (((List.range 64).reverse).find? (fun h => h ≤ l.length && (h = 0 || beginsStop stops (l.drop (l.length - h))))).getD 0

/-- The bytes held back because a code point is not whole (UTF8_HOLD). -/
def heldUtf8 (l : List Byte) : Nat :=
  let k := ((l.reverse.take 3).takeWhile (fun b => 0x80 ≤ b.toNat && b.toNat ≤ 0xBF)).length
  match (l.reverse.drop k).head? with
  | some b => if k < utf8Need b.toNat then k + 1 else 0
  | none => 0

/-- Tokens up to the one that holds byte p of a stream that begins with the held bytes. -/
def consumedAt (held : Nat) : Nat → List (List Byte) → Nat → Nat
  | _, [], _ => 0
  | sofar, s :: t, p => if p < held then 0 else if p < held + sofar + s.length then 1 else 1 + consumedAt held (sofar + s.length) t p

/-- The fields of a detokenisation input (Table 6): none where it breaks the table. -/
def detokInput (l : List Byte) : Option (List Byte × List (List Byte) × List Nat) :=
  let held := fieldB l 0 1
  let n := fieldB l 0x40 1
  let lens := (List.range 16).map (fun j => fieldB l (0x50 + j) 1)
  if l.length < 0x460 ∨ 63 < held ∨ 16 < n ∨ lens.any (fun k => 64 < k) ∨ (l.length - 0x460) % 4 ≠ 0 then none
  else some (sliceB l 1 held, (List.range n).map (fun j => sliceB l (0x60 + 64 * j) (lens.getD j 0)),
    (List.range ((l.length - 0x460) / 4)).map (fun i => fieldB l (0x460 + 4 * i) 4))

/-- What detokenisation releases (R366): the bytes written, the tokens consumed, the stop string found, and the bytes held. -/
structure Released where
  bytes : List Byte
  consumed : Nat
  stop : Option Nat
  carry : List Byte
  deriving DecidableEq, Repr

/-- The pseudocode of R366 over the held bytes and the strings of the tokens. -/
def release366 (utf8Hold : Bool) (held : List Byte) (stops : List (List Byte)) (strs : List (List Byte)) : Released :=
  let stream := held ++ strs.flatten
  match findStop stops stream with
  | some (p, j) =>
    { bytes := stream.take (p + 1 - (stops.getD j []).length), consumed := consumedAt held.length 0 strs p, stop := some j, carry := [] }
  | none =>
    let h0 := heldStop stops stream
    let h := if utf8Hold then Nat.max h0 (heldUtf8 stream) else h0
    { bytes := stream.take (stream.length - h), consumed := strs.length, stop := none, carry := stream.drop (stream.length - h) }

/-- What a changed image makes of a detokenisation: free values, within the limits of the record (R354). -/
def freeRelease (k cap tokens : Nat) : Released :=
  let f := fun i => (Config.freeWord (k + i)).toNat
  let bytes := fun (first n : Nat) => (List.range n).map (fun i => BitVec.ofNat 8 (f (first + i)))
  { bytes := bytes 67 (f 0 % (cap + 1)), consumed := f 1 % (tokens + 1), stop := if f 2 % 2 = 1 then some (f 2 / 2 % 16) else none,
    carry := bytes 4 (f 3 % 64) }

/-- DETOKENISE (R365, R366, R371); with a changed image the bytes are free values and no fault arises (R354). -/
def detokenise (v : Voc) (x : Ctx) (d : List Byte) (ctx : Nat) : Rd TextOut := do
  let c := (← read).chip
  let (input, at_) ← textInput x d ctx
  match detokInput input with
  | none => rdFail 0x14 0x06
  | some (held, stops, toks) =>
    let changed := c.vocChanged v
    let cap := fieldB d 0x0C 4
    if !changed && toks.any (fun t => c.vocTokens v ≤ t) then rdFail 0x14 0x07
    else
      let skip : Bool := fieldB d 1 1 / 4 % 2 = 1
      let strs := toks.map (fun t => if skip && c.tokenSpecial v t then [] else c.tokenString v t)
      let r := if changed then freeRelease c.freeCtr cap toks.length else release366 (fieldB d 1 1 / 8 % 2 = 1) held stops strs
      if cap < r.bytes.length then rdFail 0x14 0x08
      else
        let carry : List Byte := BitVec.ofNat 8 r.carry.length :: r.carry
        textPut at_ (textOutAt d ctx, r.bytes) (textResAt d ctx, textRecord r.bytes.length r.bytes.length r.consumed 0 r.stop 0xFF 0 carry)
          (if changed then 67 + r.bytes.length else 0) 0 0

/-- A job replaced among those of the Text Unit. -/
def Chip.setTextJob (c : Chip) (j : TextJob) : Chip :=
  { c with txu := { c.txu with jobs := c.txu.jobs.map (fun q => if q.ctx = j.ctx ∧ q.stage = j.stage then j else q) } }

/-- A job is complete: its lane is free and its stage reports (R357, R359). -/
def Chip.endTextJob (c : Chip) (j : TextJob) : Chip :=
  let c1 := { c with txu := { c.txu with
    jobs := c.txu.jobs.filter (fun q => !(q.ctx = j.ctx && q.stage = j.stage)), jobCount := c.txu.jobCount + 1 } }
  c1.setStage j.ctx j.stage .reported

/-- A job goes on: it asks for what it has not read, puts its output out, and after the last byte of that its result record (R359). -/
def Chip.textCarry (c : Chip) (j : TextJob) : Except Stop (TextOut × List Nat) → Chip
  | .error (.ask l) =>
    let p := c.unitAsks .text j.ctx j.stage j.asked l
    p.1.setTextJob { j with asked := p.2 }
  | .error st => c.unitStop 0x41 j.ctx st
  | .ok (o, reads) =>
    let p := c.unitSend .text j.ctx j.prog o.outs
    if p.2 < (farWrites o.outs).length ∨ p.1.unitQuiet .text j.ctx = false then p.1.setTextJob { j with prog := p.2 }
    else
      let c1 := ((p.1.unitReads .text reads).unitWrites .text j.ctx (o.outs.filter (fun w => !w.isRemote))).unitWrites .text j.ctx o.record
      let c2 := { c1 with txu := { c1.txu with
        byteCount := c1.txu.byteCount + w64 o.bytes, replaced := c1.txu.replaced + w64 o.replaced }, freeCtr := c1.freeCtr + o.free }
      if c2.unitQuiet .text j.ctx then c2.endTextJob j else c2.setTextJob { j with prog := p.2, sent := true }

/-- The job of a lane under a row's OP (R357, R360): an OP that Table 3 does not define is error 0xF0. -/
def Chip.textRow (c : Chip) (lane op : Nat) (ecc : Bool) (body : Voc → Ctx → List Byte → Nat → Rd TextOut) : Chip :=
  match c.txu.jobs.find? (fun j => j.lane = some lane) with
  | none => c
  | some j =>
    match c.live j.ctx with
    | none => c
    | some x =>
      let d := c.stageArgs x.area j.stage
      if fieldB d 0 1 ≠ 1 ∧ fieldB d 0 1 ≠ 2 then c.unitStop 0x41 j.ctx (.fault 0x14 0xF0)
      else if fieldB d 0 1 ≠ op then c
      else if j.sent then (if c.unitQuiet .text j.ctx then c.endTextJob j else c)
      else if ecc then c.unitStop 0x41 j.ctx (.fault 0x11 0x40)
      else c.textCarry j ((body (c.txu.voc (fieldB x.desc 0x09 1)) x d j.ctx).result (c.unitReader j.got))

/-- Whether a lane is in Run and without a job (R367). -/
def Chip.laneFree (c : Chip) (i : Nat) : Bool := (c.dom (232 + i)).state = .run && !(c.txu.jobs.any (fun j => j.lane = some i))

/-- TEXT_JOB_START: the oldest ready job takes the lowest free lane in Run (R367). -/
def Chip.textStart (c : Chip) : Chip :=
  match c.txu.jobs.find? (fun j => j.lane.isNone), (List.range 4).find? (fun i => c.laneFree i) with
  | some j, some i => c.setTextJob { j with lane := some i }
  | _, _ => c

/-! Rows. -/

/-- VOC_LOAD (R353). -/
def execVocLoad (slot : BitVec 4) (s : State) : Host.Outcome State Fault Refusal := s.run (fun c => c.vocLoad slot.toNat)
/-- VOC_LOAD_DONE (R356). -/
def execVocLoadDone (slot : BitVec 4) (s : State) : Host.Outcome State Fault Refusal := s.run (fun c => c.vocLoaded slot.toNat)
/-- VOC_CLEAR (R370). -/
def execVocClear (slot : BitVec 4) (s : State) : Host.Outcome State Fault Refusal := s.run (fun c => c.vocClear slot.toNat)
/-- TEXT_JOB_START (R367). -/
def execTextJobStart (s : State) : Host.Outcome State Fault Refusal := s.run (fun c => c.textStart)
/-- TOKENISE (R364). -/
def execTokenise (lane : BitVec 2) (ecc : Bool) (s : State) : Host.Outcome State Fault Refusal :=
  s.run (fun c => c.textRow lane.toNat 1 ecc tokenise)
/-- DETOKENISE (R366). -/
def execDetokenise (lane : BitVec 2) (ecc : Bool) (s : State) : Host.Outcome State Fault Refusal :=
  s.run (fun c => c.textRow lane.toNat 2 ecc detokenise)

end Sys2Proof.Machine
end

