-- ==== Sys2Proof/Machine/Video.lean ====
section
/-! DEFINITION. Video Intake (R373 to R395): decode units, the Frame Shaper, Riffle, and how samples emerge. What a bitstream decodes to is
the codec standards', and stands in Config. -/

namespace Sys2Proof.Machine

/-! Riffle (R385). -/

/-- Riffle value n of a Sample Index and stream ID under a seed. -/
def riffle (seed : Word) (si : List Byte) (stream n : Nat) : Word := mx64 (sliceB si 0 8 ++ leBytes 4 stream ++ leBytes 4 n) seed
/-- An integer in 0 .. m. -/
def riffleUniform (r : Word) (m : Nat) : Nat := bits r 63 32 * (m + 1) / 2 ^ 32
/-- A number in [0, 1) as FP32. -/
def riffleUnit (r : Word) : Nat := (roundTo fp32 false (bits r 63 40) (-24)).1

/-! The Shape Block (R381). -/

/-- A field of a Shape Block. -/
def shF (b : List Byte) (o n : Nat) : Nat := fieldB b o n
/-- OUT_W. -/
def shOutW (b : List Byte) : Nat := clampNat 1 4096 (shF b 0x08 2)
/-- OUT_H. -/
def shOutH (b : List Byte) : Nat := clampNat 1 4096 (shF b 0x0A 2)
/-- Bytes of an output value. -/
def shWidth (b : List Byte) : Nat := if shF b 0x0E 1 = 0 then 1 else if shF b 0x0E 1 = 1 then 2 else 4
/-- A bit of AFLAGS: 0 RAND_CROP, 1 RAND_FLIP, 2 JITTER. -/
def shFlag (b : List Byte) (i : Nat) : Bool := (shF b 0x0F 1 / 2 ^ i) % 2 = 1
/-- FB: the bytes of a sample's place (R382). -/
def shBytes (b : List Byte) : Nat := roundUp (shOutW b * shOutH b * 3 * shWidth b) 64

/-! Resampling (R383). -/

/-- Half of a size or position for a chroma plane. -/
def halve (n : Nat) : Nat := if Config.halvesUp then (n + 1) / 2 else n / 2

/-- u for output o of a window of size cw on an axis of ow outputs. -/
def axisU (cw ow o : Nat) : Nat := Nat.min ((2 * o + 1) * cw * 32768 / ow - 32768) ((cw - 1) * 65536)

/-- A plane's value at an output: `p row col` reads the window. -/
def resample (nearest : Bool) (p : Nat → Nat → Nat) (cw ch ow oh ox oy : Nat) : Nat :=
  let u := axisU cw ow ox
  let v := axisU ch oh oy
  if nearest then p (Nat.min ((v + 32768) / 65536) (ch - 1)) (Nat.min ((u + 32768) / 65536) (cw - 1))
  else
    let x0 := u / 65536
    let x1 := Nat.min (x0 + 1) (cw - 1)
    let fx := u / 256 % 256
    let y0 := v / 65536
    let y1 := Nat.min (y0 + 1) (ch - 1)
    let fy := v / 256 % 256
    let a := fun row => p row x0 * (256 - fx) + p row x1 * fx
    (a y0 * (256 - fy) + a y1 * fy + 32768) / 65536

/-! Colour (R384). -/

/-- The FP32 value nearest to n millionths. -/
def micro32 (n : Nat) : Nat := div32 (int32 n) (int32 1000000)

/-- CR_R, CB_B, CR_G and CB_G of a matrix: 1 BT.601, 2 BT.709, 3 BT.2020 (Table 6), in millionths. -/
def colourMicro (m : Nat) : Nat × Nat × Nat × Nat :=
  if m = 1 then (1402000, 1772000, 714136, 344136)
  else if m = 3 then (1474600, 1881400, 571353, 164553)
  else (1574800, 1855600, 468124, 187324)

/-- An FP32 value with its sign changed. -/
def neg32 (a : Nat) : Nat := if a / 2 ^ 31 % 2 = 1 then a - 2 ^ 31 else a + 2 ^ 31

/-- A value brought into [0, 1]. -/
def unit32 (a : Nat) : Nat := (fMinMax fp32 false (fMinMax fp32 true a 0).1 (int32 1)).1

/-- The matrix that a Shape Block and a bitstream select. -/
def matrixOf (b : List Byte) (u : VidUnit) : Nat :=
  let m := shF b 0x0D 1 % 8
  if m = 0 then (if u.matrix = 5 ∨ u.matrix = 6 then 1 else if u.matrix = 9 then 3 else 2) else Nat.min m 3

/-- Whether full range is selected. -/
def fullOf (b : List Byte) (u : VidUnit) : Bool :=
  let r := shF b 0x0D 1 / 8 % 4
  if r = 0 then u.fullRange else r ≠ 1

/-- R, G and B in [0, 1] of a sample of depth B. -/
def toRgb (m : Nat) (full : Bool) (depth y cb cr : Nat) : List Nat :=
  let k := 2 ^ (depth - 8)
  let top : Int := (2 ^ depth - 1 : Nat)
  let mid : Int := (2 ^ (depth - 1) : Nat)
  let q := colourMicro m
  let fy := if full then div32 (int32 y) (int32 top) else div32 (int32 ((y : Int) - (16 * k : Nat))) (int32 (219 * k : Nat))
  let chroma := fun (c : Nat) =>
    if full then div32 (int32 ((c : Int) - mid)) (int32 top) else div32 (int32 ((c : Int) - (128 * k : Nat))) (int32 (224 * k : Nat))
  let fcb := chroma cb
  let fcr := chroma cr
  [unit32 (fma32 (micro32 q.1) fcr fy),
   unit32 (fma32 (neg32 (micro32 q.2.2.2)) fcb (fma32 (neg32 (micro32 q.2.2.1)) fcr fy)),
   unit32 (fma32 (micro32 q.2.1) fcb fy)]

/-! The Frame Shaper (R382, R386). -/

/-- What a view draws: the window's place and size, the flip, and the jitter's k and s. -/
structure Draw where
  x : Nat
  y : Nat
  w : Nat
  h : Nat
  flip : Bool
  k : Nat
  s : Nat
  deriving DecidableEq, Repr

/-- The draws of sample number i of a stream ID (R382, R386, R394). -/
def drawOf (b : List Byte) (u : VidUnit) (seed : Word) (si : List Byte) (stream i : Nat) : Draw :=
  let r := fun d => riffle seed si stream (8 * i + d)
  let cw0 := if shF b 0x04 2 = 0 then u.outW else shF b 0x04 2 / 2 * 2
  let ch0 := if shF b 0x06 2 = 0 then u.outH else shF b 0x06 2
  let rand := shFlag b 0
  let x0 := shF b 0x00 2 / 2 * 2
  let y0 := shF b 0x02 2
  let w := if rand then Nat.min cw0 u.outW else Nat.min cw0 (u.outW - x0)
  let h := if rand then Nat.min ch0 u.outH else Nat.min ch0 (u.outH - y0)
  let between := fun lo hi d => fma32 (riffleUnit (r d)) (sub32 hi lo) lo
  { x := if rand then riffleUniform (r 0) (u.outW - w) / 2 * 2 else x0,
    y := if rand then riffleUniform (r 1) (u.outH - h) else y0,
    w := w, h := h,
    flip := shFlag b 1 && bits (r 2) 15 0 < shF b 0x10 2,
    k := between (shF b 0x1C 4) (shF b 0x20 4) 4,
    s := add32 (micro32 500000) (between (shF b 0x14 4) (shF b 0x18 4) 3) }

/-- R, G and B of an output pixel. -/
def shapePixel (b : List Byte) (u : VidUnit) (d : Draw) (plane : Nat → Nat → Nat → Nat) (ox oy : Nat) : List Nat :=
  let ow := shOutW b
  let oh := shOutH b
  let near : Bool := shF b 0x0C 1 = 0
  let col := if d.flip then ow - 1 - ox else ox
  let luma := resample near (fun r c => plane 0 (d.y + r) (d.x + c)) d.w d.h ow oh col oy
  let chroma := fun p =>
    if u.mono then 2 ^ (u.depth - 1)
    else resample near (fun r c => plane p (halve d.y + r) (halve d.x + c)) (Nat.max 1 (halve d.w)) (Nat.max 1 (halve d.h)) ow oh col oy
  (toRgb (matrixOf b u) (fullOf b u) u.depth luma (chroma 1) (chroma 2)).map (fun ch =>
    if shFlag b 2 then unit32 (fma32 d.k (sub32 ch (micro32 500000)) d.s) else ch)

/-- A channel value as it is stored: U8, BF16 or FP32. -/
def storeChannel (b : List Byte) (ch t : Nat) : List Byte :=
  let v := fma32 t (shF b (0x24 + 4 * ch) 4) (shF b (0x30 + 4 * ch) 4)
  if shWidth b = 1 then leBytes 1 (fToInt fp32 0 255 (mul32 t (int32 255))).1.toNat
  else if shWidth b = 2 then leBytes 2 (fConvert fp32 bf16 v).1
  else leBytes 4 v

/-- The bytes of a shaped sample: channel planes (CHW) or interleaved (HWC). Where the window is empty the values are not stated, and depend on the
Shape Block alone (R389). -/
def shapeSample (b : List Byte) (u : VidUnit) (d : Draw) (hwc : Bool) (plane : Nat → Nat → Nat → Nat) : List Byte :=
  let ow := shOutW b
  let n := ow * shOutH b
  if d.w = 0 ∨ d.h = 0 then (List.range (n * 3 * shWidth b)).map (fun i => Config.emptyWindow b i)
  else
    let px := (List.range n).map (fun i => shapePixel b u d plane (i % ow) (i / ow))
    if hwc then px.flatMap (fun p => (List.range 3).flatMap (fun ch => storeChannel b ch (p.getD ch 0)))
    else (List.range 3).flatMap (fun ch => px.flatMap (fun p => storeChannel b ch (p.getD ch 0)))

/-! Jobs. -/

/-- Errors of reads (Table 4). -/
def vdRead : Errs := Errs.same 0x10 0x10
/-- Errors of writes (Table 4). -/
def vdWrite : Errs := ⟨0x14, 0x11, 0x14, 0x12⟩

/-- Why a video job stops (Table 4); a read through a port is code 0x01, as R419 states for every block list. -/
def Chip.vidStop (c : Chip) (ctx : Nat) (st : Stop) : Chip := c.unitStop 0x42 ctx st

/-! Decode units (R373, R374, R376). -/

/-- Whether a decode unit of a codec begins at an access unit (R376). -/
def vidBegins (codec : Nat) (a : VidAccess) : Bool :=
  if codec = 0 then a.start = .idr
  else if codec = 1 then a.start = .idr || a.start = .bla || a.start = .cra
  else a.start = .keyFrame

/-- Whether the picture of an access unit is output (R374). Every CRA begins a decode unit, so no RASL picture is. -/
def vidOutput (codec : Nat) (a : VidAccess) : Bool := if codec = 1 then a.shown && !a.rasl else if codec = 2 then a.shown || a.shownLater else a.shown

/-- Whether Table 1 supports a bitstream with these headers (R373). -/
def vidSupported (codec : Nat) (h : VidHeader) : Bool :=
  if codec = 0 then h.profile = .high && h.level ≤ 52 && h.depth = 8 && h.chroma ≤ 1 && !h.barred
  else if codec = 1 then (h.profile = .main || h.profile = .main10) && h.level ≤ 61 && (h.depth = 8 || h.depth = 10) && h.chroma = 1 && !h.barred
  else h.profile = .main && h.level ≤ 60 && (h.depth = 8 || h.depth = 10) && h.chroma ≤ 1

/-- The access units of a decode unit, and those that follow it; each with its number. -/
def takeUnit (codec : Nat) (l : List (VidAccess × Nat)) : List (VidAccess × Nat) × List (VidAccess × Nat) :=
  let mine := l.takeWhile (fun p => !vidBegins codec p.1)
  (mine, l.drop mine.length)

/-- An access unit among others in output order. -/
def insertOrder (p : VidAccess × Nat) : List (VidAccess × Nat) → List (VidAccess × Nat)
  | [] => [p]
  | q :: t => if p.1.order < q.1.order then p :: q :: t else q :: insertOrder p t

/-- A decode unit from its access units, of which the first begins it. Unsupported headers are error 0x02 before any frame. A fault at an access unit is
error 0x04 for an absent reference picture and 0x01 otherwise, after the frames that stand in output order before every frame not decoded by then. -/
def unitOf (codec : Nat) (first : VidAccess) (l : List (VidAccess × Nat)) : VidUnit :=
  let h := first.header
  let frames := (l.filter (fun p => vidOutput codec p.1)).foldr insertOrder []
  let fault := l.find? (fun p => p.1.absentRef || p.1.violation)
  { width := h.width, height := h.height, winX := h.winX, winY := h.winY, outW := h.winW, outH := h.winH, depth := h.depth, mono := h.chroma = 0,
    matrix := h.matrix, fullRange := h.fullRange, pictures := frames.map (fun p => p.2),
    error :=
      if l.all (fun p => vidSupported codec p.1.header) = false then some (2, 0)
      else
        match fault with
        | some f => some (if f.1.absentRef then 4 else 1, (frames.takeWhile (fun p => p.2 < f.2)).length)
        | none => none }

/-- The decode units of numbered access units, the first of which begins one (R376). -/
def unitsOf (codec : Nat) : Nat → List (VidAccess × Nat) → List VidUnit
  | 0, _ => []
  | _ + 1, [] => []
  | n + 1, p :: t =>
    let u := takeUnit codec t
    unitOf codec p.1 (p :: u.1) :: unitsOf codec n u.2

/-- The header parse of R376: how many access units stand before the first unit start, and the decode units. -/
def cutUnits (codec : Nat) (l : List VidAccess) : Nat × List VidUnit :=
  let s := takeUnit codec l.zipIdx
  (s.1.length, unitsOf codec l.length s.2)

/-- VIEWS of a job (Table 2). -/
def vjViews (d : List Byte) : Nat := clampNat 1 16 (fieldB d 0x03 1)
/-- FRAME_CAP of a job. -/
def vjCap (d : List Byte) : Nat := clampNat 1 256 (fieldB d 0x0C 4)
/-- A bit of VFLAGS. -/
def vjFlag (d : List Byte) (i : Nat) : Bool := (fieldB d 0x02 1 / 2 ^ i) % 2 = 1

/-- A job replaced among those of Video Intake. -/
def Chip.setVidJob (c : Chip) (j : VidJob) : Chip :=
  { c with vid := { c.vid with jobs := c.vid.jobs.map (fun q => if q.ctx = j.ctx ∧ q.stage = j.stage then j else q) } }

/-- The job of a stage. -/
def Chip.vidJob (c : Chip) (ctx stage : Nat) : Option VidJob := c.vid.jobs.find? (fun j => j.ctx = ctx && j.stage = stage)

/-- A unit replaced, or taken away. -/
def Chip.setUnit (c : Chip) (u : DecUnit) : Chip :=
  { c with vid := { c.vid with
      units := c.vid.units.map (fun q => if q.ctx = u.ctx ∧ q.stage = u.stage ∧ q.index = u.index then u else q) } }
/-- A unit taken away: its context and engine are free. -/
def Chip.dropUnit (c : Chip) (u : DecUnit) : Chip :=
  { c with vid := { c.vid with
      units := c.vid.units.filter (fun q => !(q.ctx = u.ctx && q.stage = u.stage && q.index = u.index)) } }

/-- A job's error ends its Request (R380). -/
def Chip.vidError (c : Chip) (ctx status code : Nat) : Chip := c.endReq ctx status (detailOf 0x42 code)

/-- The input of a job (R358, R375). -/
def vidInput (x : Ctx) (d : List Byte) (ctx : Nat) : Rd (List Byte) := do
  let q : InputAt := {
    own := !vjFlag d 0, first := fieldB d 0x04 4, count := fieldB d 0x08 4,
    base := effAddr (w64 (fieldB d 0x10 8)) (w64 (ctx * fieldB d 0x38 4)) }
  let bs ← inputBlocks x q vdRead 0x13
  readBlocks vdRead x.port bs 0 (blocksLen bs)

/-- The decode units of a job, each with the number of its first frame (R376). -/
def numberUnits (ctx stage : Nat) : Nat → Nat → List VidUnit → List DecUnit
  | _, _, [] => []
  | i, f, u :: t =>
    { ctx := ctx, stage := stage, index := i, first := f, info := u, hold := none, shaped := 0 } :: numberUnits ctx stage (i + 1) (f + u.frames) t

/-- A job with its headers parsed (R376). -/
def Chip.vidParsed (c : Chip) (j : VidJob) (codec : Nat) (input : List Byte) : Chip :=
  let p := cutUnits codec (Config.videoParse codec input)
  if p.2.isEmpty then c.vidError j.ctx 0x21 0x05
  else
    let c1 := c.setVidJob { j with
      parsed := true, input := input, frames := (p.2.map VidUnit.frames).sum, units := p.2.length, skipped := p.1,
      got := [], asked := [] }
    ({ c1 with vid := { c1.vid with units := c1.vid.units ++ numberUnits j.ctx j.stage 0 0 p.2 } }).unitsWake

/-- The result record (R388): frame f is written when all its views are. -/
def vidRecord (j : VidJob) (views : Nat) : List Byte :=
  let done := (List.range 256).filter (fun f => (List.range views).all (fun v => f * views + v ∈ j.written))
  leBytes 4 j.frames ++ leBytes 4 done.length ++ leBytes 4 j.units ++ leBytes 4 j.bad ++ leBytes 4 j.skipped ++ List.replicate 12 0 ++
    leBytes 32 (done.foldl (fun a f => a + 2 ^ f) 0)

/-- The stage of a job reports once its record is performed. -/
def Chip.vidReport (c : Chip) (j : VidJob) : Chip :=
  if c.unitQuiet .video j.ctx then
    ({ c with vid := { c.vid with jobs := c.vid.jobs.filter (fun q => !(q.ctx = j.ctx && q.stage = j.stage)) } }).setStage j.ctx j.stage .reported
  else c

/-- Every unit of a job has ended: the result record follows every output byte (R388). -/
def Chip.vidFinish (c : Chip) (x : Ctx) (j : VidJob) : Chip :=
  if j.ended < j.units then c
  else if j.sent then c.vidReport j
  else
    let d := c.stageArgs x.area j.stage
    let at_ := effAddr (w64 (fieldB d 0x20 8)) (w64 (64 * j.ctx))
    match (wrBytes vdWrite at_ (vidRecord j (vjViews d))).value (c.unitReader j.got) with
    | .error st => c.vidStop j.ctx st
    | .ok w => ((c.unitWrites .video j.ctx w).setVidJob { j with sent := true }).vidReport { j with sent := true }

/-- The frames of a unit that are shaped: below FRAME_CAP, and before the error that ends it. -/
def DecUnit.frameCount (u : DecUnit) (cap : Nat) : Nat :=
  Nat.min (cap - u.first) (match u.info.error with | some e => Nat.min e.2 u.info.frames | none => u.info.frames)

/-- A unit whose last sample has emerged ends: completed, or by its error, which ERR_SKIP keeps from the Request (R380, R393). -/
def Chip.settleUnit (c : Chip) (x : Ctx) (j : VidJob) (u : DecUnit) : Chip :=
  let d := c.stageArgs x.area j.stage
  if u.shaped < u.frameCount (vjCap d) * vjViews d then c
  else
    let c0 := c.dropUnit u
    let area := u.info.outW * u.info.outH
    match u.info.error with
    | none =>
      let c1 := { c0 with vid := { c0.vid with unitCount := c0.vid.unitCount + 1, pixels := c0.vid.pixels + w64 (u.info.frames * area) } }
      let j1 := { j with ended := j.ended + 1 }
      (c1.setVidJob j1).vidFinish x j1
    | some e =>
      let c1 := { c0 with vid := { c0.vid with badUnits := c0.vid.badUnits + 1, pixels := c0.vid.pixels + w64 (e.2 * area) } }
      if vjFlag d 1 then
        let j1 := { j with ended := j.ended + 1, bad := j.bad + 1 }
        (c1.setVidJob j1).vidFinish x j1
      else c1.vidError j.ctx 0x21 e.1

/-- DECODE_SHAPE (R376): the headers are parsed; of a job that is parsed and whose units have ended, the record is seen to. -/
def Chip.decodeShape (c : Chip) (ctx stage : Nat) (ecc : Bool) : Chip :=
  match c.vidJob ctx stage, c.live ctx with
  | some j, some x =>
    let d := c.stageArgs x.area stage
    if j.parsed then c.vidFinish x j
    else if fieldB d 0 1 ≠ 1 ∨ 2 < fieldB d 1 1 then c.vidError ctx 0x14 0xF0
    else if ecc then c.vidError ctx 0x11 0x40
    else
      match (vidInput x d ctx).result (c.unitReader j.got) with
      | .error (.ask l) =>
        let p := c.unitAsks .video ctx stage j.asked l
        p.1.setVidJob { j with asked := p.2 }
      | .error st => c.vidStop ctx st
      | .ok (input, reads) => (c.unitReads .video reads).vidParsed j (fieldB d 1 1) input
  | _, _ => c

/-! Units (R377, R378). -/

/-- The bytes of reference pictures that a unit needs (R378). -/
def dpbNeed (u : VidUnit) : Nat := 17 * roundUp ((u.width * u.height * 3 * (if u.depth = 8 then 1 else 2) + 1) / 2) 4096

/-- Whether a decode engine is in Run and free. -/
def Chip.engineFree (c : Chip) (e : Nat) : Bool :=
  (c.dom (200 + e)).state = .run && !(c.vid.units.any (fun u => match u.hold with | some h => h.2 = e | none => false))

/-- Whether a stream context is free. -/
def Chip.streamFree (c : Chip) (n : Nat) : Bool := !(c.vid.units.any (fun u => match u.hold with | some h => h.1 = n | none => false))

/-- The stream contexts in use: VID_CONTEXTS, at most 1,024 (Table 3). -/
def Chip.vidContexts (c : Chip) : Nat := Nat.min 1024 (bits c.vid.contexts 10 0)

/-- VID_DPB_SIZE in bytes. -/
def Chip.dpbSize (c : Chip) : Nat := bits c.vid.dpbSize 37 12 * 4096
/-- VID_DPB_BASE in bytes. -/
def Chip.dpbBase (c : Chip) : Nat := bits c.vid.dpbBase 49 12 * 4096

/-- A unit keeps its reference pictures in its context's area, where it may write (R124); their layout is not stated, so the bytes are free. -/
def Chip.keepPictures (c : Chip) (n : Nat) (u : VidUnit) : Chip :=
  let base := c.dpbBase + n * c.dpbSize
  let cells := (List.range (dpbNeed u)).map (fun i => (base + i, (Config.freeWord (c.freeCtr + i)).setWidth 8))
  { c.put (cells.filter (fun p => p.1 < storeBase && c.hubTakes p.1)) with freeCtr := c.freeCtr + (dpbNeed u) }

/-- DECODE_UNIT_START (R377, R378): the oldest ready unit takes the lowest stream context and engine that are free. -/
def Chip.unitStart (c : Chip) : Chip :=
  match c.vid.units.find? (fun u => u.hold.isNone && (c.live u.ctx).isSome), (List.range 32).find? (fun e => c.engineFree e),
      (List.range c.vidContexts).find? (fun n => c.streamFree n) with
  | some u, some e, some n =>
    match c.live u.ctx, c.vidJob u.ctx u.stage with
    | some x, some j =>
      if c.dpbSize < (dpbNeed u.info) then c.vidError u.ctx 0x21 0x03
      else
        let v := { u with hold := some (n, e) }
        ((c.setUnit v).keepPictures n u.info).settleUnit x j v
    | _, _ => c
  | _, _, _ => c

/-! Emergence (R387). -/

/-- The writes of a sample. -/
def sampleWrites (x : Ctx) (j : VidJob) (d : List Byte) (seed : Word) (u : DecUnit) (i : Nat) : Rd (List Wr) := do
  let b ← rdBytes vdRead (roundDown (w64 (fieldB d 0x30 8)) 64) 64
  let f := i / vjViews d
  let dr := drawOf b u.info seed (sliceB x.desc 0 8) (fieldB d 0x2C 4) i
  let v := u.info
  let picture := v.pictures.getD (f - u.first) 0
  let plane := fun p y col =>
    let half := if p = 0 then 1 else 2
    Config.videoSample (fieldB d 1 1) j.input picture p (v.winY / half + y) (v.winX / half + col) % 2 ^ v.depth
  let data := shapeSample b v dr (vjFlag d 3) plane
  let base := effAddr (w64 (fieldB d 0x18 8)) (w64 (j.ctx * fieldB d 0x28 4 + i * shBytes b))
  wrBytes vdWrite base data

/-- A sample has emerged: its handle is put, and it counts for its unit. -/
def Chip.emerged (c : Chip) (x : Ctx) (j : VidJob) (d : List Byte) (u : DecUnit) (i : Nat) : Chip :=
  let hq := fieldB d 0x3C 1
  let c1 := if vjFlag d 2 then c.hqAdd (hq / 128 * 32) (64 + hq % 64) (w64 (i % 65536)) (some j.ctx) else c
  let v := { u with shaped := u.shaped + 1 }
  let j1 := { j with written := j.written ++ [i], sending := SMap.erase j.sending i }
  ((c1.setVidJob j1).setUnit v).settleUnit x j1 v

/-- SAMPLE_EMERGE: sample number f·VIEWS + v of a unit that holds an engine is shaped, written and handed on (R382, R387). An uncorrectable error in
the Shape Block or a reference picture that it reads is error 0x40 (R157, R380). -/
def Chip.sampleEmerge (c : Chip) (ctx stage i : Nat) (ecc : Bool) : Chip :=
  match c.vidJob ctx stage, c.live ctx with
  | some j, some x =>
    let d := c.stageArgs x.area stage
    let f := i / vjViews d
    let mine := fun (u : DecUnit) => u.ctx = ctx && u.stage = stage && u.hold.isSome && u.first ≤ f && f < u.first + u.frameCount (vjCap d)
    match c.vid.units.find? mine with
    | none => c
    | some u =>
      if i ∈ j.written then c
      else if ecc then c.vidError ctx 0x11 0x40
      else
        let seed := w64 (c.img x.area 0x08 8)
        match (sampleWrites x j d seed u i).result (c.unitReader j.got) with
        | .error (.ask l) =>
          let p := c.unitAsks .video ctx stage j.asked l
          p.1.setVidJob { j with asked := p.2 }
        | .error st => c.vidStop ctx st
        | .ok (ws, reads) =>
          let hq := fieldB d 0x3C 1
          let p := c.unitSend .video ctx (SMap.get 0 j.sending i) ws
          if p.2 < (farWrites ws).length ∨ p.1.unitLanded .video ctx ws = false then
            p.1.setVidJob { j with sending := SMap.set j.sending i p.2 }
          else if vjFlag d 2 && !(c.hqRoom (hq / 128 * 32) (64 + hq % 64)) then p.1.setVidJob { j with sending := SMap.set j.sending i p.2 }
          else ((p.1.unitReads .video reads).unitWrites .video ctx (ws.filter (fun w => !w.isRemote))).emerged x j d u i
  | _, _ => c

/-! Rows. -/

/-- DECODE_SHAPE (R376). -/
def execDecodeShape (ctx : BitVec 17) (stage : BitVec 12) (ecc : Bool) (s : State) : Host.Outcome State Fault Refusal :=
  s.run (fun c => c.decodeShape ctx.toNat stage.toNat ecc)
/-- DECODE_UNIT_START (R377). -/
def execDecodeUnitStart (s : State) : Host.Outcome State Fault Refusal := s.run (fun c => c.unitStart)
/-- SAMPLE_EMERGE (R387). -/
def execSampleEmerge (ctx : BitVec 17) (stage : BitVec 12) (sample : Sample) (s : State) : Host.Outcome State Fault Refusal :=
  s.run (fun c => c.sampleEmerge ctx.toNat stage.toNat sample.number sample.ecc)

end Sys2Proof.Machine
end

