-- ==== Sys2Proof/Machine/Ports.lean ====
section
/-! DEFINITION. The partner ports (R396 to R425): writes into Intake Windows, reset and link loss, reads that come back from the far side,
the HBM aperture of BAR4, and the ring registers of a window. -/

namespace Sys2Proof.Machine

/-! Intake Windows. -/

/-- Complete descriptors cut from appended bytes, each with the Tide at which it became complete, and the bytes left over (R403). -/
def cutDescs (tide : Word) : Nat → List Byte → List Desc × List Byte
  | 0, b => ([], b)
  | n + 1, b =>
    if b.length < 64 then ([], b)
    else
      let r := cutDescs tide n (b.drop 64)
      ({ bytes := b.take 64, arrival := tide } :: r.1, r.2)

/-- WINw_CTRL.LIMIT (Table 5). -/
def Window.limit (x : Window) : Nat := clampNat 1 256 (bits x.ctrl 40 32)

/-- A window's occupancy once n bytes more are appended (R406). -/
def Window.occupancyWith (x : Window) (n : Nat) : Nat :=
  let total := x.partialBytes.length + n
  x.queue.length + total / 64 + (if total % 64 = 0 then 0 else 1)

/-- A write TLP that an Intake Window receives (R403 to R408, R422). -/
def Chip.intake (c : Chip) (n w : Nat) (payload : List Byte) (fullBe : Bool) : Chip :=
  let x := c.window n w
  if payload.isEmpty then c
  else if x.err || bit x.ctrl 0 = false then c.setWindow n w { x with overrun := x.overrun + 1 }
  else if !fullBe then (c.setWindow n w { x with badWrite := x.badWrite + 1, err := true }).portErr n 1
  else if x.limit < x.occupancyWith payload.length then
    (c.setWindow n w { x with overrun := x.overrun + 1, err := true }).portErr n 0
  else
    let r := cutDescs c.tide (payload.length / 64 + 1) (x.partialBytes ++ payload)
    c.setWindow n w { x with
      queue := x.queue ++ r.1, partialBytes := r.2, accepted := x.accepted + BitVec.ofNat 32 r.1.length }

/-- A RESET written to WINw_CMD (R408). -/
def Chip.windowReset (c : Chip) (n w : Nat) : Chip := c.setWindow n w { c.window n w with partialBytes := [], err := false }

/-- A ring register of a window with part of it replaced; it is taken only while EN and ACTIVE are 0, and then both rings begin anew
(R414). -/
def Chip.ringWrite (c : Chip) (n w : Nat) (f : Window → Window) : Chip :=
  let x := c.window n w
  if bit x.ctrl 0 ∨ 0 < x.active then c
  else c.setWindow n w { f x with recHead := 0, recTail := 0, cplHead := 0, cplTail := 0 }

/-- Bits of a register replaced under a mask of the bits that a write reaches and the bits that it may change (R12, R573). -/
def mergeReg (old v reach fields : Word) : Word := (old &&& ~~~(reach &&& fields)) ||| (v &&& reach &&& fields)

/-- The fields of WINw_RING_CFG: CPL_LOG2 and REC_LOG2. -/
def ringCfgFields : Word := 0x1F3F

/-- A write of one of the ring registers (R414). -/
def Chip.ringReg (c : Chip) (n w : Nat) (r : RingReg) (v reach : Word) : Chip :=
  c.ringWrite n w (fun x =>
    match r with
    | .recBase => { x with recBase := mergeReg x.recBase v reach (BitVec.allOnes 64) }
    | .ringCfg => { x with ringCfg := mergeReg x.ringCfg v reach ringCfgFields }
    | .cplBase => { x with cplBase := mergeReg x.cplBase v reach (BitVec.allOnes 64) })

/-! Reads through a port (R419). -/

/-- Bytes that came, kept from a key on. -/
def keepBytes (got : SMap Byte) : Nat → List Byte → SMap Byte
  | _, [] => got
  | k, b :: t => keepBytes (SMap.set got k b) (k + 1) t

/-- The read of a port that holds a tag. -/
def Port.readOf (p : Port) (tag : Nat) : Option BusRead := p.reads.find? (fun r => r.tag = tag)

/-- A port's read after n more of its bytes have come; one that has them all, or that has failed, gives its tag back. -/
def Port.advance (p : Port) (r : BusRead) (n : Nat) (failed : Bool) : Port :=
  if failed || r.len ≤ r.done + n then { p with reads := p.reads.filter (fun q => q.tag ≠ r.tag) }
  else { p with reads := p.reads.map (fun q => if q.tag = r.tag then { q with done := q.done + n } else q) }

/-- Bytes of a read reach its reader, which keeps them. A read of a command or Request that has ended is discarded. -/
def Chip.busGive (c : Chip) (key : Nat) (data : List Byte) : BusReader → Chip
  | .engine n e seq =>
    let k := c.core n
    let g := k.engine e
    if g.inWork.any (fun x => x.seq = seq) then c.setCore n (k.setEngine e { g with got := keepBytes g.got key data, wait := none }) else c
  | .text ctx stage =>
    { c with txu := { c.txu with jobs := c.txu.jobs.map (fun j =>
        if j.ctx = ctx ∧ j.stage = stage then { j with got := keepBytes j.got key data } else j) } }
  | .video ctx stage =>
    { c with vid := { c.vid with jobs := c.vid.jobs.map (fun j =>
        if j.ctx = ctx ∧ j.stage = stage then { j with got := keepBytes j.got key data } else j) } }
  | .gone => c

/-- A read that fails ends its reader's Request with code 0x01 (R419). -/
def Chip.busLost (c : Chip) : BusReader → Chip
  | .engine n e seq =>
    match ((c.core n).engine e).current with
    | some x => if x.seq = seq then c.failCmd n e x 0x10 0x01 else c
    | none => c
  | .text ctx _ => c.unitStop 0x41 ctx (.fault 0x10 0x01)
  | .video ctx _ => c.vidStop ctx (.fault 0x10 0x01)
  | .gone => c

/-- A completion of a read of this package under its tag: the next of its bytes, or one of the errors of R419, of which a poisoned one is
noted in PORT_ERR (Table 4). -/
def Chip.readCompletion (c : Chip) (n tag : Nat) (data : List Byte) (error : Option ReadError) : Chip :=
  let p := c.port n
  if p.linkUp = false then c
  else
    let c1 := if error = some .poisoned then c.portErr n 5 else c
    match p.readOf tag with
    | none => c1
    | some r =>
      let got := data.take (r.len - r.done)
      let c2 := c1.setPort n ((c1.port n).advance r got.length error.isSome)
      if error.isSome then c2.busLost r.reader else c2.busGive (busKey n (r.addr + r.done)) got r.reader

/-- A read that no completion answers (R419). -/
def Chip.readTimeout (c : Chip) (n tag : Nat) : Chip :=
  match (c.port n).readOf tag with
  | none => c
  | some r => (c.setPort n ((c.port n).advance r 0 true)).busLost r.reader

/-! BAR4 (R400, R402). -/

/-- PORT_APER.BASE as an offset. -/
def Port.aperture (p : Port) : Nat := bits p.aper 49 28 * 2 ^ 28

/-- Whether HBM takes an access of n bytes that comes from outside, a write or a read alike (R117, R118, R400): Recipe-use HBM throughout, and no WP
region. -/
def Chip.hbmTakes (c : Chip) (o n : Nat) : Bool :=
  ((o + n - 1) :: (List.range (n / 4096 + 1)).map (fun i => o + Nat.min (4096 * i) (n - 1))).all (fun a =>
    match c.target none none a with
    | some t => t.row = .hbm && !t.wp
    | none => false)

/-- Bytes written into HBM from outside, if it takes them. -/
def Chip.hbmWrite (c : Chip) (o : Nat) (data : List Byte) : Option Chip :=
  if c.hbmTakes o data.length then some (c.putAt o data) else none

/-- Whether an access to HBM must wait for a power domain (R504). -/
def Chip.hbmWaits (c : Chip) (o : Nat) : Bool :=
  match c.target none none o with
  | some t => (c.homeWait t).isSome
  | none => false

/-- A write through BAR4; a poisoned one is noted and discarded (Table 4; DESIGN CHOICE, log 26). -/
def Chip.bar4Write (c : Chip) (n o : Nat) (data : List Byte) (poisoned : Bool) : Chip :=
  let p := c.port n
  let a := p.aperture + o
  if p.linkUp && poisoned then c.portErr n 5
  else if p.linkUp = false || p.access.getLsbD 1 = false || data.isEmpty || c.hbmWaits a then c
  else (c.hbmWrite a data).getD (c.portErr n 3)

/-- A read through BAR4. -/
def Chip.bar4Read (c : Chip) (n o len : Nat) : Chip :=
  let p := c.port n
  let a := p.aperture + o
  if p.linkUp = false then c
  else if p.access.getLsbD 1 = false then c.emit (.readData n (List.replicate len 0))
  else if c.hbmWaits a then c
  else if c.hbmTakes a len then c.emit (.readData n (c.bytes a len))
  else c.emit (.completerAbort n)

/-! MSI-X. -/

/-- An entry of the MSI-X table as it is written; a message that waits in the PBA goes out when the mask is off (R416). -/
def Chip.msixPut (c : Chip) (n v : Nat) (e : MsixEntry) : Chip :=
  let p := c.port n
  let sends := v ∈ p.pba ∧ e.masked = false
  let c1 := c.setPort n { p with msix := SMap.set p.msix v e, pba := if sends then p.pba.filter (fun u => u ≠ v) else p.pba }
  if sends then c1.msix n v else c1

/-- Software writes the entry of a vector with its mask off. -/
def Chip.unmask (c : Chip) (n v : Nat) (addr : Word) (data : BitVec 32) : Chip :=
  c.msixPut n v { addr := addr, data := data, masked := false }

/-- Eight bytes of BAR1 (Table 2): an entry's address, its data and its mask, or 64 bits of the PBA. -/
def Port.bar1 (p : Port) (o : Nat) : Word :=
  let e := SMap.get MsixEntry.reset p.msix (o / 16)
  if o < 0x8000 then (if o % 16 = 0 then e.addr else w64 (e.data.toNat + if e.masked then 2 ^ 32 else 0))
  else if o < 0x8100 then w64 ((List.range 64).foldl (fun a i => if (o - 0x8000) * 8 + i ∈ p.pba then a + 2 ^ i else a) 0)
  else 0

/-- Eight bytes of BAR1 written under a mask; the PBA is read only. -/
def Chip.bar1Put (c : Chip) (n o : Nat) (v reach : Word) : Chip :=
  let p := c.port n
  let e := SMap.get MsixEntry.reset p.msix (o / 16)
  let w := mergeReg (p.bar1 o) v reach (BitVec.allOnes 64)
  if 0x8000 ≤ o then c
  else c.msixPut n (o / 16) (if o % 16 = 0 then { e with addr := w } else { e with data := w.setWidth 32, masked := bit w 32 })

/-! Link and resets. -/

/-- A port's link comes up (R396, R550): its reset is off, READY is high, and in recovery P0 alone trains (R553). The far side then enables bus
mastering and sets the Max Payload Size (DESIGN CHOICE, log 26: the table has no row for those configuration writes). -/
def Chip.portUp (c : Chip) (n : Nat) (rate width : BitVec 4) (payload : BitVec 3) : Chip :=
  let p := c.port n
  if (c.hubOn || c.mc.recovery) && c.rst.ready && !p.perst && !p.linkUp && (!c.mc.recovery || n = 0) then
    c.setPort n { p with linkUp := true, busMaster := true, rate := rate, width := width, payload := payload }
  else c

/-! Rows. -/

/-- INTAKE_WRITE (R406); a poisoned one is noted and discarded (Table 4; DESIGN CHOICE, log 26). -/
def execIntakeWrite (port : BitVec 2) (window : BitVec 6) (payload : Payload) (fullBe : Bool) (s : State) :
    Host.Outcome State Fault Refusal :=
  s.runIf (payload.bytes.length ≤ 4096) (fun c =>
    if (c.port port.toNat).linkUp = false then c
    else if payload.poisoned then c.portErr port.toNat 5
    else c.intake port.toNat window.toNat payload.bytes fullBe)
/-- WINDOW_ATOMICOP: an AtomicOp, to a window or to any other address, receives Unsupported Request (R396, R404). -/
def execWindowAtomicop (port : BitVec 2) (_window : Option (BitVec 6)) (s : State) : Host.Outcome State Fault Refusal :=
  s.run (fun c => if (c.port port.toNat).linkUp then c.emit (.unsupported port.toNat) else c)
/-- WINDOW_RESET (R408). -/
def execWindowReset (port : BitVec 2) (window : BitVec 6) (s : State) : Host.Outcome State Fault Refusal :=
  s.run (fun c => if c.blackout then c else c.windowReset port.toNat window.toNat)
/-- RING_CONFIG_WRITE (R414). -/
def execRingConfigWrite (port : BitVec 2) (window : BitVec 6) (reg : RingReg) (value : Word) (s : State) :
    Host.Outcome State Fault Refusal :=
  s.run (fun c => if c.blackout then c else c.ringReg port.toNat window.toNat reg value (BitVec.allOnes 64))
/-- PCIE_READ_COMPLETION (R419). -/
def execPcieReadCompletion (port : BitVec 2) (tag : BitVec 14) (data : List Byte) (error : Option ReadError) (s : State) :
    Host.Outcome State Fault Refusal :=
  s.runIf (data.length ≤ 4096) (fun c => c.readCompletion port.toNat tag.toNat data error)
/-- PCIE_COMPLETION_TIMEOUT (R419). -/
def execPcieCompletionTimeout (port : BitVec 2) (tag : BitVec 14) (s : State) : Host.Outcome State Fault Refusal :=
  s.run (fun c => c.readTimeout port.toNat tag.toNat)
/-- FUNCTION_LEVEL_RESET (R420). -/
def execFunctionLevelReset (port : BitVec 2) (s : State) : Host.Outcome State Fault Refusal :=
  s.run (fun c => if (c.port port.toNat).linkUp then c.portCut port.toNat true else c)
/-- PERST_ASSERT (R420). -/
def execPerstAssert (port : BitVec 2) (s : State) : Host.Outcome State Fault Refusal :=
  s.run (fun c => (c.setPort port.toNat { c.port port.toNat with perst := true }).portDown port.toNat)
/-- PERST_RELEASE: the port may train again (R550). -/
def execPerstRelease (port : BitVec 2) (s : State) : Host.Outcome State Fault Refusal :=
  s.run (fun c => c.setPort port.toNat { c.port port.toNat with perst := false })
/-- PCIE_LINK_DOWN (R420). -/
def execPcieLinkDown (port : BitVec 2) (s : State) : Host.Outcome State Fault Refusal :=
  s.run (fun c => if (c.port port.toNat).linkUp then c.portDown port.toNat else c)
/-- PCIE_LINK_UP (R396). -/
def execPcieLinkUp (port : BitVec 2) (rate : BitVec 4) (mode : PortMode) (s : State) : Host.Outcome State Fault Refusal :=
  s.runIf (1 ≤ rate.toNat ∧ rate.toNat ≤ 6 ∧ mode.widthLog2.toNat ≤ 4 ∧ mode.payload.toNat ≤ 5) (fun c =>
    c.portUp port.toNat rate mode.widthLog2 mode.payload)
/-- BUS_MASTER_DISABLE (R420). -/
def execBusMasterDisable (port : BitVec 2) (s : State) : Host.Outcome State Fault Refusal :=
  s.run (fun c =>
    if (c.port port.toNat).linkUp then (c.setPort port.toNat { c.port port.toNat with busMaster := false }).portCut port.toNat false else c)
/-- BAR4_WRITE (R400). -/
def execBar4Write (port : BitVec 2) (offset : BitVec 28) (data : Payload) (s : State) : Host.Outcome State Fault Refusal :=
  s.runIf (data.bytes.length ≤ 4096 ∧ offset.toNat + data.bytes.length ≤ 2 ^ 28) (fun c =>
    c.bar4Write port.toNat offset.toNat data.bytes data.poisoned)
/-- BAR4_READ (R400). -/
def execBar4Read (port : BitVec 2) (offset : BitVec 28) (len : Nat) (s : State) : Host.Outcome State Fault Refusal :=
  s.runIf (1 ≤ len ∧ len ≤ 4096 ∧ offset.toNat + len ≤ 2 ^ 28) (fun c => c.bar4Read port.toNat offset.toNat len)
/-- MSIX_VECTOR_UNMASK (R416). -/
def execMsixVectorUnmask (port : BitVec 2) (vector : BitVec 11) (addr : Word) (data : BitVec 32) (s : State) :
    Host.Outcome State Fault Refusal :=
  s.run (fun c => if (c.port port.toNat).linkUp then c.unmask port.toNat vector.toNat addr data else c)

end Sys2Proof.Machine
end

