-- ==== Sys2Proof/Machine/Arbiter.lean ====
section
/-! DEFINITION. The arbiters of the HBM channels and Basin slices (R238 to R244, R249): which of the accesses that wait is granted. -/

namespace Sys2Proof.Machine

/-- Arbiter a: channels 0 to 95, then slices 96 to 127 (R244). -/
def Chip.arb (c : Chip) (a : Nat) : Arbiter := SMap.get Arbiter.reset c.arbs a

/-- FLOOR (Table 2). -/
def Arbiter.floor (b : Arbiter) : Nat := Nat.min (bits b.ctl 30 24) 64

/-- The shares of READ, WRITE and REMOTE (R242). -/
def Arbiter.shares (b : Arbiter) : List Nat :=
  let r := Nat.min (bits b.ctl 6 0) 64
  let w := Nat.min (bits b.ctl 14 8) 64
  let m := Nat.min (bits b.ctl 22 16) 64
  let extra := r + w + m - 64
  let m1 := m - extra
  let w1 := w - (extra - m)
  let rest := 64 - (r + w1 + m1)
  [r + (rest + 2) / 3, w1 + (rest + 1) / 3, m1 + rest / 3]

/-- Whether a tagged access comes before another (Table 1, R249). -/
def tagBefore (x y : Waiting) : Bool :=
  let a := (x.emptyAt.getD 0).toNat
  let b := (y.emptyAt.getD 0).toNat
  a < b || (a = b && (x.arrival < y.arrival || (x.arrival = y.arrival && x.requester < y.requester)))

/-- The tagged access that wins. -/
def firstTagged (l : List Waiting) : Option Waiting :=
  (l.filter (fun x => x.emptyAt.isSome)).foldl (fun b x =>
    match b with
    | none => some x
    | some y => if tagBefore x y then some x else some y) none

/-- One of the accesses among which no rule chooses. -/
def anyOf (pick : Nat) : List Waiting → Option Waiting
  | [x] => some x
  | l => l[pick % l.length]?

/-- The grant of DEADLINE mode: an untagged access when none is tagged, or when a tagged grant would leave the run of 64
short of FLOOR untagged ones. -/
def Arbiter.deadlineGrant (b : Arbiter) (pick : Nat) (l : List Waiting) : Option Waiting :=
  let plain := l.filter (fun x => x.emptyAt.isNone)
  let given := (b.recent.filter (fun k => !k.2)).length + (63 - b.recent.length)
  match firstTagged l with
  | none => anyOf pick plain
  | some x => if !plain.isEmpty && given < b.floor then anyOf pick plain else some x

/-- How far a class is behind its share of the run that this grant ends. -/
def Arbiter.behind (b : Arbiter) (k : Nat) : Int :=
  ((b.shares.getD k 0 * (b.recent.length + 1) : Nat) : Int) - 64 * ((b.recent.filter (fun r => r.1 = k)).length : Int)

/-- The classes that are furthest behind: the grant belongs to one of them. -/
def Arbiter.due (b : Arbiter) : List Nat :=
  [0, 1, 2].filter (fun k => [0, 1, 2].all (fun j => b.behind j ≤ b.behind k))

/-- The grant of SPLIT mode: the class it belongs to, and the access of that class or of the next that has one waiting. -/
def Arbiter.splitGrant (b : Arbiter) (pick : Nat) (l : List Waiting) : Nat × Option Waiting :=
  let own := b.due.getD (pick % b.due.length) 0
  let order := [own, (own + 1) % 3, (own + 2) % 3]
  match order.find? (fun k => l.any (fun x => x.cls = k)) with
  | none => (own, none)
  | some k => (own, anyOf (pick / 3) (l.filter (fun x => x.cls = k)))

/-- MODE 1 is SPLIT, every other value DEADLINE. -/
def Arbiter.split (b : Arbiter) : Bool := bits b.ctl 33 32 = 1

/-- The class that a grant belongs to and the access that it goes to, where one waits. -/
def Arbiter.choose (b : Arbiter) (pick : Nat) (l : List Waiting) : Option (Nat × Waiting) :=
  if b.split then
    match b.splitGrant pick l with
    | (k, some x) => some (k, x)
    | (_, none) => none
  else (b.deadlineGrant pick l).map (fun x => (x.cls, x))

/-- A grant recorded. -/
def Arbiter.granted (b : Arbiter) (k : Nat) (x : Waiting) : Arbiter :=
  { b with recent := ((k, x.emptyAt.isSome) :: b.recent).take 63, last := some x }

/-- The accesses that wait at an arbiter, oldest first. -/
def Chip.waitingAt (c : Chip) (a : Nat) : List Waiting := SMap.get [] c.traffic.waiting a

/-- An event of the core that issued an access; accesses of the HUB and of other packages are no core's (R248). -/
def Chip.countFor (c : Chip) (x : Waiting) (event : Nat) : Chip :=
  if x.requester < 1024 then c.setCore (x.requester / 16) ((c.core (x.requester / 16)).count event 1) else c

/-- The lines of 64 bytes that slice s holds. -/
def Chip.linesOf (c : Chip) (s : Nat) : List Nat := SMap.get [] c.traffic.lines s

/-- The lines of a slice once one more has been read into it: a slice of 4 MiB holds 65,536, and which of them it evicts is not stated (R17; DESIGN
CHOICE, log 31). -/
def fillLines (pick line : Nat) (l : List Nat) : List Nat := line :: (if l.length < 65536 then l else l.eraseIdx (pick % l.length))

/-- An access served by its Basin slice: a line that the slice holds is a hit, unless the slice has evicted it; any other access goes on to its
HBM channel, and a line of an NC region or of the Recipe Store is then held (R119, R122, R250). -/
def Chip.serveSliceAt (c : Chip) (s pick : Nat) (x : Waiting) : Chip :=
  let line := x.off / 64
  let held := c.linesOf s
  if line ∈ held ∧ pick % 2 = 0 then c.countFor x 0x31
  else
    let keeps : Bool := rowOf x.off = some .store || (c.regionOf x.off).1 = 0
    let lines := if keeps then fillLines (pick / 2) line (held.erase line) else held.erase line
    ({ c with traffic := { c.traffic with lines := SMap.set c.traffic.lines s lines } }).queueAt (channelOf x.off) x

/-- The next grant of an arbiter (R241): the access leaves it, a killed Request's like any other (R252). A Basin slice serves it or passes it on to its
HBM channel; a channel serves it. -/
def Chip.grantNext (c : Chip) (a : Nat) : Chip :=
  match (c.arb a).choose c.free.toNat (c.waitingAt a) with
  | none => c
  | some (k, x) =>
    let c1 := { c.spend with
      arbs := SMap.set c.arbs a ((c.arb a).granted k x),
      traffic := { c.traffic with waiting := SMap.set c.traffic.waiting a ((c.waitingAt a).erase x) } }
    if 96 ≤ a then c1.serveSliceAt (a - 96) (c.free.toNat / 128) x else c1.countFor x 0x32

/-- ARB_GRANT (R241). -/
def execArbGrant (home : ArbHome) (n : Nat) (s : State) : Host.Outcome State Fault Refusal :=
  s.runIf (n < home.count) (fun c => c.grantNext (home.index n))

end Sys2Proof.Machine
end

