-- ==== Sys2Proof/Machine/Startup.lean ====
section
/-! DEFINITION. From power to service (R547 to R571) and the losses that end service (R599, R603 to R606). -/

namespace Sys2Proof.Machine

/-! What a reset leaves. -/

/-- A port whose blocks are reset: the level of its Pn_PERST_N and its PORTn_ACCESS stay (R402, R577). -/
def Port.restart (p : Port) : Port := { Port.reset with perst := p.perst, access := p.access }

/-- The four ports after a reset of their blocks. -/
def Chip.restartPorts (c : Chip) : SMap Port := (List.range 4).map (fun n => (n, (c.port n).restart))

/-- The power domains all in one state for each kind, nothing latched; AUTO stays (R577). -/
def Chip.allDoms (c : Chip) (f : Nat → DomState) : SMap Domain :=
  (List.range 236).map (fun d => (d, { Domain.reset with state := f d, auto := (c.dom d).auto }))

/-- Every block outside the ID, PWR, MC and RST blocks is reset (R564, R577): HBM keeps its bytes over a warm restart and loses them
otherwise; Pools lose theirs. -/
def Chip.lose (c : Chip) (keepHbm : Bool) : Chip :=
  { Chip.reset with
    mem := if keepHbm then c.mem.filter (fun p => p.1 < storeEnd) else [], tide := c.tide, freeCtr := c.freeCtr, out := c.out,
    ports := c.restartPorts, pwr := { c.pwr with doms := c.allDoms (fun _ => .off), poolAlone := [], fresh := [] },
    mc := c.mc, rst := c.rst, scratch := c.scratch }

/-- READY driven to a level. -/
def Chip.ready (c : Chip) (high : Bool) : Chip :=
  if c.rst.ready = high then c else ({ c with rst := { c.rst with ready := high } }).emit (.pin "READY" high)

/-- What a power loss leaves of a COMMIT under way: the fuses blown so far, which are free between F and ROLLBACK (R542). -/
def Mc.blown (m : Mc) (pick : Nat) : Nat :=
  if m.fwOp = some .commit then m.fuses + pick % (m.running_.rollback - m.fuses + 1) else m.fuses

/-- What lies in flash and fuses outlives a loss of power (R529, R531, R538, R542). -/
def Mc.powerLoss (m : Mc) (pick : Nat) (nonce : Word) : Mc :=
  { Mc.reset with
    flash := m.flash, slotA := m.slotA, slotB := m.slotB, committedB := m.committedB, trial := m.trial, trialB := m.trialB,
    attempted := m.attempted, fuses := m.blown pick, cfg := m.cfg, nonce := nonce }

/-- Every domain is reset, AON included (R548, R566): what flash and fuses hold stays. -/
def Chip.cold (c : Chip) : Chip :=
  let c1 := c.ready false
  { Chip.reset with
    freeCtr := c.freeCtr + 2, out := c1.out,
    ports := (List.range 4).map (fun n => (n, { Port.reset with perst := (c.port n).perst })),
    mc := c.mc.powerLoss (Config.freeWord c.freeCtr).toNat (Config.freeWord (c.freeCtr + 1)) }

/-- THERMTRIP_N driven (R599): high is released. -/
def Chip.tripPin (c : Chip) (high : Bool) : Chip := c.emit (.pin "THERMTRIP_N" high)

/-- POR_N falls (R566). -/
def Chip.porFall (c : Chip) : Chip := if c.rst.tripped then c.cold.tripPin true else c.cold

/-- REFCLK25, VDD_AON or VDD_IO is lost (R548, R603): the package is held in reset whatever the level of POR_N; a thermal trip holds until
POR_N falls. -/
def Chip.hold (c : Chip) : Chip :=
  let c1 := c.cold
  { c1 with rst := { c1.rst with por := c.rst.por, held := true, tripped := c.rst.tripped } }

/-- POR_N rises (R549): the strap is sampled, Tide counts from 0, every switched domain is off and the boot block starts. -/
def Chip.porRise (c : Chip) (bringupN : Bool) : Chip :=
  if c.rst.por then c
  else
    let c1 := c.cold
    { c1 with
      rst := { c1.rst with por := true, strapLow := !bringupN },
      pwr := { c1.pwr with doms := (List.range 236).map (fun d => (d, { Domain.initial d with state := .off })) } }

/-! Rails (R547, R551, R553). -/

/-- The rails that the MC brings up, in start-up order: rails 2 to 7, or VDD_SOC and VDD_PHY alone in recovery. -/
def Chip.lastRail (c : Chip) : Nat := if c.mc.recovery then 3 else 7

/-- RAILS begins: the first rail is enabled. -/
def Chip.beginRails (c : Chip) : Chip := ({ c with rst := { c.rst with phase := .rails } }).emit (.rail 2 true)

/-- The MC turns off the rails it has enabled, in reverse order (R551). -/
def Chip.dropRails (c : Chip) (n : Nat) : Chip :=
  ((List.range n).map (fun i => n + 1 - i)).foldl (fun c r => c.emit (.rail r false)) { c with rst := { c.rst with railsOn := [] } }

/-- RAIL_FAULT in the log (Table 3 of the Management chapter). -/
def Chip.logRail (c : Chip) (rail : Nat) (statusWord : BitVec 16) : Chip :=
  c.log 0x0031 3 0x45 (BitVec.ofNat 8 rail :: leBytes 2 statusWord.toNat)

/-- A rail fails (R551, R606): the rails go off, what they fed is lost, and RAIL_FAULT is logged with a STATUS_WORD that no rule gives. -/
def Chip.railsFail (c : Chip) (rail enabled : Nat) : Chip :=
  let c1 := (c.lose false).dropRails enabled
  (({ c1 with rst := { c1.rst with railsOff := true } }).spend).logRail rail (c.free.setWidth 16)

/-- Whether a GEOMETRY item numbers the package (R554). -/
def geometryOk (v : List Byte) : Bool :=
  let p := fieldB v 4 2
  pkgX p < fieldB v 0 1 && pkgY p < fieldB v 1 1 && pkgZ p < fieldB v 2 1

/-- NET_GEOM as the MC writes it from a GEOMETRY item (R489, R554). -/
def geometryWord (v : List Byte) : Word :=
  w64 (fieldB v 4 2 % 4096 * 2 ^ 16 + (fieldB v 0 1 + 15) % 16 * 2 ^ 8 + (fieldB v 1 1 + 15) % 16 * 2 ^ 4 + (fieldB v 2 1 + 15) % 16)

/-- TRAINING begins (R549, R550, R554): domains come to Run, Feature Cores test themselves, NET_GEOM is written, links leave DISABLED and
the ports may train. -/
def Chip.beginTraining (c : Chip) : Chip :=
  let geo := c.mc.cfg.geometry
  let c1 := { c with
    rst := { c.rst with phase := .training, bringupMode := true, hbmTrained := false, coresTested := [], qualified := 0, bad := 0,
                        unnumbered := match geo with
                          | none => true
                          | some v => !geometryOk v }
    pwr := { c.pwr with doms := c.allDoms (fun d => if isCoreDom d then .selfTest else .run) }
    net := { c.net with geom := match geo with
      | none => c.net.geom
      | some v => geometryWord v } }
  (((List.range 24).foldl (fun c n => if bit (c.link n).ctrl 0 then c.setLink n (c.link n).detect else c) c1)).ready true

/-- A rail reports POWER_GOOD (R547): the next is enabled, or TRAINING begins; in recovery P0 comes up instead (R553). -/
def Chip.railGood (c : Chip) (rail : Nat) : Chip :=
  let r := c.rst
  if r.phase = .rails ∧ r.railsOff = false ∧ r.por = true ∧ r.held = false ∧ rail = r.railsOn.length + 2 ∧ rail ≤ c.lastRail then
    let c1 := { c with rst := { r with railsOn := r.railsOn ++ [rail] } }
    if rail < c.lastRail then c1.emit (.rail (rail + 1) true)
    else if c.mc.recovery then c1.ready true
    else c1.beginTraining
  else c

/-- The rail that was enabled last does not report POWER_GOOD within 10 ms (R551). -/
def Chip.railTimeout (c : Chip) (rail : Nat) : Chip :=
  let r := c.rst
  if r.phase = .rails ∧ r.railsOff = false ∧ r.por = true ∧ r.held = false ∧ rail = r.railsOn.length + 2 ∧ rail ≤ c.lastRail then
    c.railsFail rail (rail - 1)
  else c

/-! HBM (R549, R552). -/

/-- Every HBM stack has completed training. -/
def Chip.hbmDone (c : Chip) : Chip :=
  if c.rst.phase = .training then ({ c with rst := { c.rst with hbmTrained := true } }).tryBringup else c

/-- Bytes of HBM at the end of the zero-fill: whether one written meanwhile was still to be filled is not stated, and is free. -/
def Chip.zeroFill (c : Chip) : Chip :=
  { c with
    mem := (c.mem.zipIdx.filter (fun p => storeEnd ≤ p.1.1 || (Config.freeWord (c.freeCtr + p.2)).getLsbD 0)).map (fun p => p.1),
    freeCtr := c.freeCtr + c.mem.length }

/-- The zero-fill is over: HBM_READY, and the package may leave Bring-up Mode (R552, R556). -/
def Chip.fillDone (c : Chip) : Chip :=
  if c.hubOn ∧ c.rst.hbmTrained = true ∧ c.rst.hbmReady = false then
    ({ c.zeroFill with rst := { c.rst with hbmReady := true } }).tryDiscover
  else c

/-! Warm restart (R563, R564, R567). -/

/-- Whether a write of WARM is taken (R567). -/
def Chip.warmTaken (c : Chip) : Bool :=
  c.hubOn && !c.mc.recovery && (c.rst.phase = .bringup || c.rst.phase = .discovered || c.rst.phase = .joined)

/-- Every up link goes down, which is logged (R564, R609). -/
def Chip.linksGone (c : Chip) : Chip :=
  (List.range 24).foldl (fun c n => if (c.link n).up then c.logLink n (c.link n).state .disabled else c) c

/-- A warm restart: READY falls, all but AON, the MC and HBM is reset, and the package runs again from TRAINING. -/
def Chip.warmRestart (c : Chip) : Chip :=
  if c.warmTaken then
    let c1 := (c.linksGone.ready false).lose true
    ({ c1 with rst := { c1.rst with warm := true, warmDue := false, strapLow := false, restarts := c1.rst.restarts + 1 } }).beginTraining
  else c

/-! Thermal trip (R599, R605). -/

/-- SENSOR_ALARM in the log (Table 3 of the Management chapter). -/
def Chip.logAlarm (c : Chip) (severity kind index level : Nat) (value threshold : Int) : Chip :=
  c.log 0x0030 severity 0x45 ([BitVec.ofNat 8 kind, BitVec.ofNat 8 index, BitVec.ofNat 8 level] ++ leBytes 4 (wrapInt 32 value) ++
    leBytes 4 (wrapInt 32 threshold))

/-- A sensor reaches 115 °C: THERMTRIP_N, every clock outside AON and the MC stops, SENSOR_ALARM is logged, and the rails go off. -/
def Chip.thermtrip (c : Chip) (sensor : Nat) : Chip :=
  if c.rst.por ∧ c.rst.held = false ∧ c.rst.tripped = false then
    let c1 := ((c.tripPin false).logAlarm 3 0 sensor 2 (115 * 16) (115 * 16)).lose false
    ({ c1 with rst := { c1.rst with tripped := true, warmDue := false } }).dropRails c.rst.railsOn.length
  else c

/-! Rows. -/

/-- POR_RISE (R549). -/
def execPorRise (bringupN : Bool) (s : State) : Host.Outcome State Fault Refusal := s.run (fun c => c.porRise bringupN)
/-- POR_FALL (R566). -/
def execPorFall (s : State) : Host.Outcome State Fault Refusal := s.run (fun c => c.porFall)
/-- RAIL_POWER_GOOD (R547). -/
def execRailPowerGood (rail : Nat) (s : State) : Host.Outcome State Fault Refusal := s.runIf (rail < 8) (fun c => c.railGood rail)
/-- RAIL_ENABLE_TIMEOUT (R551). -/
def execRailEnableTimeout (rail : Nat) (s : State) : Host.Outcome State Fault Refusal := s.runIf (rail < 8) (fun c => c.railTimeout rail)
/-- HBM_TRAINING_DONE (R549). -/
def execHbmTrainingDone (s : State) : Host.Outcome State Fault Refusal := s.run (fun c => c.hbmDone)
/-- HBM_ZERO_FILL_DONE (R552). -/
def execHbmZeroFillDone (s : State) : Host.Outcome State Fault Refusal := s.run (fun c => c.fillDone)
/-- WARM_RESTART (R563). -/
def execWarmRestart (s : State) : Host.Outcome State Fault Refusal := s.run (fun c => c.warmRestart)
/-- REFCLK25_LOSS (R603). -/
def execRefclk25Loss (s : State) : Host.Outcome State Fault Refusal := s.run (fun c => c.hold)
/-- AON_IO_SUPPLY_LOSS (R548). -/
def execAonIoSupplyLoss (s : State) : Host.Outcome State Fault Refusal := s.run (fun c => c.hold)
/-- SPARLINE_REFCLK_LOSS: loss of lock on the twelve links of a clock (R604). -/
def execSparlineRefclkLoss (clockB : Bool) (s : State) : Host.Outcome State Fault Refusal :=
  s.run (fun c => ((List.range 12).map (fun i => i + (if clockB then 12 else 0))).foldl (fun c n => c.retrain n) c)
/-- THERMTRIP (R599). -/
def execThermtrip (sensor : Nat) (s : State) : Host.Outcome State Fault Refusal := s.runIf (sensor < 48) (fun c => c.thermtrip sensor)

end Sys2Proof.Machine
end

