-- ==== Sys2Proof/Machine/Mgmt.lean ====
section
/-! DEFINITION. The Management Controller (R519 to R546): its starts, log, sensors and alarms, interfaces, firmware and configuration. -/

namespace Sys2Proof.Machine

/-! The log (R527 to R530). -/

/-- The 64 bytes of an entry (Table 2). -/
def LogEntry.bytes (e : LogEntry) : List Byte :=
  let b := leBytes 8 e.seq.toNat ++ leBytes 8 e.tide.toNat ++ leBytes 2 e.code.toNat ++ [e.severity, e.source] ++ sliceB e.payload 0 40
  b ++ leBytes 4 (crc32c b)

/-- Entries that the flash ring holds (R528). -/
def flashEntries : Nat := 524288

/-- The sector ahead of the write point is erased when the ring is full (R528): how many of its entries nobody had read. -/
def Mc.erased (m : Mc) : Nat :=
  if m.flash.length < flashEntries then 0 else ((m.flash.take 1024).filter (fun e => m.logAck.toNat ≤ e.seq.toNat)).length

/-- LOG_COPY: the oldest uncopied entry goes to flash (R528), and a LOG_GAP that was due may take the place it frees. -/
def Chip.logCopy (c : Chip) : Chip :=
  let m := c.mc
  match m.ram[m.copied]? with
  | none => c
  | some e =>
    if !m.running then c
    else
      let kept := if m.flash.length < flashEntries then m.flash else m.flash.drop 1024
      let c1 := { c with mc := { m with flash := kept ++ [e], copied := m.copied + 1, logLost := m.logLost + w64 m.erased } }
      (if 0 < m.erased then c1.mcEvent 2 else c1).logGap

/-- A write of LOG_RD_SEQ (R530). -/
def Mc.logRd (m : Mc) (seq : Word) : Mc := { m with rdSeq := seq, rdStatus := 0 }

/-- The entry that a SEQ names, in RAM or in flash. -/
def Mc.findEntry (m : Mc) (seq : Word) : Option LogEntry := (m.ram ++ m.flash).find? (fun e => e.seq = seq)

/-- LOG_RD_STATUS becomes VALID, GONE or NOT_YET (R530, R546). -/
def Mc.logRdDone (m : Mc) : Mc :=
  if m.rdStatus ≠ 0 ∨ m.running = false then m
  else
    match m.findEntry m.rdSeq with
    | some e => { m with rdStatus := 1, rdData := e.bytes }
    | none => { m with rdStatus := if m.seqNext ≤ m.rdSeq then 3 else 2 }

/-! Starts (R529, R538, R544). -/

/-- A firmware slot by its letter: B when the flag is set. -/
def Mc.slotOf (m : Mc) (b : Bool) : FwSlot := if b then m.slotB else m.slotA

/-- The slot that the boot block tries first (R538). -/
def Mc.bootFirst (m : Mc) : Mc × Bool :=
  if m.trial && !m.attempted then ({ m with attempted := true }, m.trialB) else ({ m with trial := false }, m.committedB)

/-- The slot that the boot block starts: one that fails R535 is passed over for the other. -/
def Mc.bootSlot (m : Mc) (b : Bool) : Option Bool :=
  if m.bootable (m.slotOf b) then some b else if m.bootable (m.slotOf !b) then some (!b) else none

/-- Where SEQ resumes (R529): at H + 4,097, or at 0 when flash holds no entry. -/
def Mc.resumeSeq (m : Mc) : Word :=
  if m.flash.isEmpty then 0 else w64 (m.flash.foldl (fun a e => Nat.max a e.seq.toNat) 0 + 4097)

/-- The configuration is read after a cold start (R402, R531, R540, R549). -/
def Chip.readConfig (c : Chip) : Chip :=
  let g := c.mc.cfg
  let t := g.thresholds.getD []
  let words := fun (base n : Nat) => (List.range n).map (fun i => (i, w64 (fieldB t (base + 8 * i) 8)))
  let m := if g.thresholds.isSome then { c.mc with thrT := words 0 48, thrV := words 384 24, thrI := words 576 16 } else c.mc
  { c with
    mc := { m with logRate := g.logRate.setWidth 64 },
    ports := (List.range 4).map (fun n => (n, { c.port n with access := (g.access.getD n 7).setWidth 3 })) }

/-- The code of a firmware command (Table 5). -/
def FwOp.code : FwOp → Nat
  | .install => 1
  | .activate => 2
  | .commit => 3
  | .revert => 4

/-- A firmware command is over: MC_FW_STATUS, FW_DONE and FW_OP (Table 3). -/
def Chip.fwOver (c : Chip) (op : FwOp) (slotB : Bool) (status : Nat) : Chip :=
  let c1 := { c with mc := { c.mc with fwOp := none, fwStatus := BitVec.ofNat 4 status } }
  (c1.mcEvent 4).log 0x0002 (if status = 2 then 0 else 2) 0x44
    ([BitVec.ofNat 8 op.code, BitVec.ofNat 8 (bitAt slotB 0), BitVec.ofNat 8 status] ++ leBytes 4 (c.mc.slotOf slotB).version.toNat)

/-- The firmware runs from a slot: SEQ resumes, BOOT and the events that waited are logged, and a restart that a command asked for is
over; after a power-on RAILS begins. -/
def Chip.firmwareRuns (c : Chip) (m : Mc) (b : Bool) : Chip :=
  let c1 := { c with mc := { m with running := true, runB := b, ram := [], copied := 0, seqNext := m.resumeSeq, held := [] } }
  let c2 := c1.logGap.log 0x0001 0 0x44
    ([BitVec.ofNat 8 (bitAt b 0), BitVec.ofNat 8 m.fuses, m.startCause] ++ leBytes 4 (m.slotOf b).version.toNat)
  let c3 := m.held.foldl (fun c e => c.logNow e) c2
  let c4 := match m.fwOp with
    | some .activate => c3.fwOver .activate b 2
    | some .revert => c3.fwOver .revert b 2
    | _ => c3
  if c.rst.phase = .mcBoot then c4.readConfig.beginRails else c4

/-- MC_START (R529, R538, R553). -/
def Chip.mcStart (c : Chip) : Chip :=
  if !c.aon || c.mc.running || c.mc.recovery then c
  else
    let p := c.mc.bootFirst
    match p.1.bootSlot p.2 with
    | some b => c.firmwareRuns p.1 b
    | none =>
      let c1 := { c with mc := { p.1 with recovery := true } }
      if c.rst.phase = .mcBoot then c1.beginRails else c1

/-- The MC restarts (R522, R527, R537): its sessions end. -/
def Chip.mcStop (c : Chip) (cause : Nat) : Chip :=
  if c.mc.running then { c with mc := { c.mc with running := false, startCause := BitVec.ofNat 8 cause, sessions := 0 } } else c

/-! Sensors and alarms (R525, R526, R606). -/

/-- One level of an alarm moves: its MC_EVENT bit and its SENSOR_ALARM (Table 3). -/
def Chip.alarmEvent (c : Chip) (kind index : Nat) (crit cleared : Bool) (value threshold : Int) : Chip :=
  (c.mcEvent (if crit then 1 else 0)).logAlarm (if crit then 3 else 1) kind index (if cleared then 0 else if crit then 2 else 1) value threshold

/-- A level's state after a sample: entered at the third in a row beyond it, left at the third back inside WARN. -/
def levelNext (on : Bool) (beyond inside : Nat) : Bool := if on then inside < 3 else 3 ≤ beyond

/-- A sample of a sensor. `warn` and `crit` are the thresholds that it lies beyond; `back` the one that an exit shows. -/
def Chip.alarmSample (c : Chip) (key kind index : Nat) (value : Int) (warn crit : Option Int) (back : Int) : Chip :=
  let a := SMap.get Alarm.reset c.mc.alarms key
  let w := if warn.isSome then a.warn + 1 else 0
  let r := if crit.isSome then a.crit + 1 else 0
  let i := if warn.isSome || crit.isSome then 0 else a.inside + 1
  let wOn := levelNext a.warnOn w i
  let rOn := levelNext a.critOn r i
  let c1 := { c with mc := { c.mc with alarms := SMap.set c.mc.alarms key { warnOn := wOn, critOn := rOn, warn := w, crit := r, inside := i } } }
  let c2 := if wOn = a.warnOn then c1 else c1.alarmEvent kind index false (!wOn) value (warn.getD back)
  if rOn = a.critOn then c2 else c2.alarmEvent kind index true (!rOn) value (crit.getD back)

/-- A threshold that is enabled and that a value lies above. -/
def above (value threshold : Int) : Option Int := if threshold ≠ 0 ∧ threshold < value then some threshold else none

/-- A low threshold that a value lies below. -/
def below (value threshold : Nat) : Option Int := if value < threshold then some threshold else none

/-- Whether the CRIT level of a sensor is entered. -/
def Chip.critOn (c : Chip) (key : Nat) : Bool := (SMap.get Alarm.reset c.mc.alarms key).critOn

/-- A temperature sample (R525). -/
def Chip.tempSample (c : Chip) (i : Nat) (t : Int) : Chip :=
  let thr := SMap.get thrTReset c.mc.thrT i
  let warn := signed 16 (bits thr 15 0)
  let crit := signed 16 (bits thr 31 16)
  let c1 := { c with mc := { c.mc with temps := SMap.set c.mc.temps i t } }
  c1.alarmSample i 0 i t (above t warn) (above t crit) warn

/-- The MC samples the 48 temperature sensors; those at CRIT hold the cores of their die at 800 MHz (R526). -/
def Chip.tempSamples (c : Chip) (temps : List Int) : Chip :=
  let c1 := temps.zipIdx.foldl (fun c p => c.tempSample p.2 p.1) c
  { c1 with pwr := { c1.pwr with crit := (List.range 48).filter c1.critOn } }

/-- MAX_MHZ of every core set to 800 (R522, R523). -/
def Chip.throttleAll (c : Chip) : Chip := { c with pwr := { c.pwr with maxMhz := (List.range 64).map (fun n => (n, 800)) } }

/-- The rail of Table 1 that a voltage monitor measures (Table 5): VDD_HBM is rail 5, VDD_SOC rail 2. -/
def monitorRail (j : Nat) : Option Nat :=
  if j < 8 then some j else if 16 ≤ j ∧ j < 22 then some 5 else if j = 22 ∨ j = 23 then some 2 else none

/-- What a CRIT level of a voltage monitor that is newly entered does (R606). -/
def Chip.railCrit (c : Chip) (j : Nat) (low : Bool) : Chip :=
  match monitorRail j with
  | none => c
  | some r => if r = 7 then (if low then c.throttleAll else c) else c.railsFail r c.rst.railsOn.length

/-- A voltage sample (R525). An exit does not say which WARN threshold it came back inside, and its threshold is free. -/
def Chip.voltSample (c : Chip) (j v : Nat) : Chip :=
  let thr := SMap.get 0 c.mc.thrV j
  let pick := fun (hi low : Nat) => (above v hi).or (below v low)
  let c1 : Chip := { c.spend with mc := { c.mc with volts := SMap.set c.mc.volts j v } }
  let c2 := c1.alarmSample (64 + j) 1 j v (pick (bits thr 47 32) (bits thr 31 16))
    (pick (bits thr 63 48) (bits thr 15 0)) (signed 32 (bits c.free 31 0))
  if c2.critOn (64 + j) ∧ c.critOn (64 + j) = false then c2.railCrit j (decide (v < bits thr 15 0)) else c2

/-- A current sample (R525). -/
def Chip.ampSample (c : Chip) (k a : Nat) : Chip :=
  let thr := SMap.get 0 c.mc.thrI k
  let c1 := { c with mc := { c.mc with rails := SMap.set c.mc.rails k ((SMap.get (0, 0) c.mc.rails k).1, a) } }
  c1.alarmSample (96 + k) 2 k a (above a (bits thr 31 0)) (above a (bits thr 63 32)) (bits thr 31 0 : Nat)

/-- The MC samples the voltage monitors and the current readings. -/
def Chip.railSamples (c : Chip) (volts currents : List Nat) : Chip :=
  currents.zipIdx.foldl (fun c p => c.ampSample p.2 p.1) (volts.zipIdx.foldl (fun c p => c.voltSample p.2 p.1) c)

/-- READ_VOUT and READ_IOUT of the rails of Table 1 (R523). -/
def Mc.pollRails (m : Mc) (readings : List (Nat × Nat)) : Mc :=
  { m with rails := readings.zipIdx.foldl (fun a p => SMap.set a p.2 p.1) m.rails }

/-- The setpoint of VDD_FC in mV (R499, R588): the highest that a core which is not off needs, at most 905, with 45 more, in steps of 5. -/
def Chip.vddFc (c : Chip) : Nat :=
  let need := (List.range 64).map (fun n =>
    if (c.dom (2 * n)).state = .off then 0 else Nat.min 905 (Config.fcMillivolts n (c.curMhz n) c.free))
  (need.foldl Nat.max 0 + 49) / 5 * 5

/-- The MC reads every rail and writes VOUT_COMMAND of VDD_FC (R523). -/
def Chip.railPoll (c : Chip) (readings : List (Nat × Nat)) : Chip :=
  { c.spend with mc := c.mc.pollRails readings }.emit (.vout 7 c.vddFc)

/-- A regulator that is silent or reports a fault (R523). -/
def Chip.railFault (c : Chip) (rail : Nat) (statusWord : BitVec 16) : Chip :=
  (c.throttleAll.mcEvent 5).logRail rail statusWord

/-! Firmware (R535 to R538, R542, R543). -/

/-- What R535 finds in an image: the code of MC_FW_STATUS, 2 when it is valid. -/
def Mc.judgeImage (m : Mc) (b : List Byte) : Nat :=
  let n := fieldB b 0x0C 4
  let key := sliceB b (16 + n) 97
  if b.length < 209 ∨ 1572864 < b.length ∨ fieldB b 0 4 ≠ 0x31574653 ∨ 64 < fieldB b 8 1 ∨ 16 + n + 193 ≠ b.length then 4
  else if sha384 key ≠ Config.fwKeyDigest ∨ ecdsaOk key (sha384 (b.take (16 + n))) (sliceB b (16 + n + 97) 96) = false then 3
  else if fieldB b 8 1 < m.fuses then 5
  else 2

/-- The slot of an image once it is written and valid. -/
def slotFrom (b : List Byte) : FwSlot :=
  { valid := true, version := BitVec.ofNat 32 (fieldB b 4 4), rollback := fieldB b 8 1, image := b }

/-- The slot not running replaced. -/
def Mc.setOther (m : Mc) (s : FwSlot) : Mc := if m.runB then { m with slotA := s } else { m with slotB := s }

/-- A firmware command that is not accepted does nothing but set MC_FW_STATUS (R543). -/
def Chip.fwRefuse (c : Chip) (status : Nat) : Chip := { c with mc := { c.mc with fwStatus := BitVec.ofNat 4 status } }

/-- A firmware command is under way. -/
def Mc.fwBegin (m : Mc) (op : FwOp) : Mc := { m with fwOp := some op, fwStatus := 1 }

/-- INSTALL (Table 5): the image is validated first, and only a valid one is written over the slot not running. -/
def Chip.fwInstall (c : Chip) : Chip :=
  let m := c.mc
  if !(m.running || m.recovery) then c
  else if m.fwOp.isSome || m.trial then c.fwRefuse 7
  else
    let b := c.bytes (bits m.fwAddr 49 12 * 4096) (bits m.fwLen 20 0)
    let r := m.judgeImage b
    let m1 := { m.fwBegin .install with fwResult := BitVec.ofNat 4 r }
    { c with mc := if r = 2 then m1.setOther { slotFrom b with valid := false } else m1 }

/-- INSTALL ends with its second validation. -/
def Chip.installDone (c : Chip) : Chip :=
  let m := c.mc
  if m.fwOp ≠ some .install then c
  else if m.fwResult ≠ 2 then c.fwOver .install (!m.runB) m.fwResult.toNat
  else ({ c with mc := m.setOther { m.other with valid := true } }).fwOver .install (!m.runB) 2

/-- ACTIVATE (Table 5). -/
def Chip.fwActivate (c : Chip) : Chip :=
  let m := c.mc
  if !m.running then c
  else if m.fwOp.isSome then c.fwRefuse 7
  else if c.req.quiesced = false then c.fwRefuse 6
  else if m.bootable m.other = false then c.fwRefuse 7
  else ({ c with mc := { m.fwBegin .activate with trial := true, trialB := !m.runB, attempted := false } }).mcStop 1

/-- COMMIT (Table 5). -/
def Chip.fwCommit (c : Chip) : Chip :=
  let m := c.mc
  if !m.running then c
  else if m.fwOp.isSome || !m.trial then c.fwRefuse 7
  else { c with mc := m.fwBegin .commit }

/-- COMMIT has blown its fuses. -/
def Chip.commitFwDone (c : Chip) : Chip :=
  let m := c.mc
  if m.fwOp ≠ some .commit ∨ m.running = false then c
  else
    ({ c with mc := { m with committedB := m.runB, trial := false, fuses := Nat.max m.fuses m.running_.rollback } }).fwOver .commit m.runB 2

/-- REVERT (Table 5). -/
def Chip.fwRevert (c : Chip) : Chip :=
  let m := c.mc
  if !m.running then c
  else if m.fwOp.isSome || !m.trial then c.fwRefuse 7
  else if c.req.quiesced = false then c.fwRefuse 6
  else ({ c with mc := { m.fwBegin .revert with trial := false } }).mcStop 1

/-! Configuration (R531 to R534). -/

/-- MC_CFG_CMD.APPLY (R534). -/
def Mc.cfgApply (m : Mc) : Mc := if m.cfgStatus = 1 then m else { m with cfgStatus := 1 }

/-- The VALUE_LEN that an item takes (R533). -/
def itemLen (item len : Nat) : Bool :=
  if item = 1 then len = 8
  else if item = 2 ∨ item = 3 then len = 97 || len = 0
  else if item = 4 then len = 4
  else if item = 5 then len = 704
  else if item = 6 then len = 2
  else if item = 7 then len = 8
  else if item = 8 then len = 24
  else if item = 9 then len = 8
  else false

/-- Whether an item is a key slot. -/
def keyItem (item : Nat) : Bool := item = 2 || item = 3

/-- The keys of a kind: 0 Recipe, 1 session. -/
def ConfigStore.keys (g : ConfigStore) (session : Bool) : SMap (List Byte) := if session then g.sessionKeys else g.recipeKeys

/-- Whether no key of a kind is enrolled. -/
def noKeys (keys : SMap (List Byte)) : Bool := keys.all (fun p => p.2.isEmpty)

/-- The signature condition of a record (R531, R532, R534). -/
def Chip.recordSigned (c : Chip) (r : List Byte) (item len : Nat) : Bool :=
  let g := c.mc.cfg
  let signer := fieldB r 6 1
  if signer / 128 = 1 then keyItem item && len = 97 && noKeys (g.keys (item = 3)) && c.rst.bringupMode
  else
    let session : Bool := signer % 2 = 1
    let key := SMap.get [] (g.keys session) (signer / 2 % 4)
    session = (item ≠ 2) && !key.isEmpty && ecdsaOk key (sha384 (r.take (0x20 + len))) (sliceB r (0x20 + len) 96)

/-- The first check of R534 that a record fails, by the code of MC_CFG_STATUS. -/
def Chip.recordFault (c : Chip) (r : List Byte) : Option Nat :=
  let item := fieldB r 4 1
  let len := fieldB r 0x18 4
  let serial := fieldB r 8 8
  if fieldB r 0 4 ≠ 0x31474643 ∨ itemLen item len = false ∨ (keyItem item ∧ 3 < fieldB r 5 1) then some 4
  else if (serial ≠ 0 ∧ serial ≠ Config.idSerial.toNat) ∨ (serial = 0 ∧ (item = 1 ∨ item = 9)) then some 6
  else if fieldB r 0x10 8 ≤ c.mc.cfg.seq.toNat then some 5
  else if c.recordSigned r item len = false then some 3
  else if item = 9 ∧ (fieldB r 0x20 8 ≠ c.mc.nonce.toNat ∨ c.locked) then some 7
  else none

/-- A record's value in the configuration (R533). -/
def ConfigStore.put (g : ConfigStore) (item index : Nat) (v : List Byte) : ConfigStore :=
  if item = 1 then { g with geometry := some v }
  else if item = 2 then { g with recipeKeys := SMap.set g.recipeKeys index v }
  else if item = 3 then { g with sessionKeys := SMap.set g.sessionKeys index v }
  else if item = 4 then { g with access := v }
  else if item = 5 then { g with thresholds := some v }
  else if item = 6 then { g with logRate := BitVec.ofNat 16 (fieldB v 0 2) }
  else if item = 7 then { g with pmbus := v }
  else if item = 8 then { g with ethernet := v }
  else g

/-- What an item does at once: PORTn_ACCESS is written (R402), JTAG opens (R524). -/
def Chip.itemActs (c : Chip) (item signer : Nat) (v : List Byte) : Chip :=
  if item = 4 then { c with ports := (List.range 4).map (fun n => (n, { c.port n with access := (v.getD n 0).setWidth 3 })) }
  else if item = 9 then
    ({ c with mc := { c.mc with jtagOpen := true, jtagSlot := signer / 2 % 4 } }).log 0x0050 1 0x44 [1, BitVec.ofNat 8 (signer / 2 % 4)]
  else c

/-- MC_CFG_STATUS set. -/
def Chip.cfgOver (c : Chip) (status : Nat) : Chip := { c with mc := { c.mc with cfgStatus := BitVec.ofNat 4 status } }

/-- A Configuration Record is stored or refused (R534); the check of a JTAG_UNLOCK renews the nonce. The interface and reason that AUTH_FAIL
names have no stated codes, and are free. -/
def Chip.cfgDone (c : Chip) (nonce : Word) : Chip :=
  if c.mc.cfgStatus ≠ 1 ∨ c.mc.running = false then c
  else
    let r := c.bytes (bits c.mc.cfgAddr 49 6 * 64) 4096
    let item := fieldB r 4 1
    let f := c.recordFault r
    let c1 := if item = 9 ∧ (f = none ∨ f = some 7) then { c with mc := { c.mc with nonce := nonce } } else c
    match f with
    | some 3 => (c1.spend.cfgOver 3).log 0x0051 1 0x44 [c.free.setWidth 8, (c.free >>> 8).setWidth 8]
    | some e => c1.cfgOver e
    | none =>
      let v := sliceB r 0x20 (fieldB r 0x18 4)
      let index := fieldB r 5 1
      let g := { c1.mc.cfg.put item index v with seq := w64 (fieldB r 0x10 8) }
      let c2 := ({ c1 with mc := { c1.mc with cfg := g } }).log 0x0005 0 0x44 [BitVec.ofNat 8 item, BitVec.ofNat 8 (if keyItem item then index else 0)]
      (c2.itemActs item (fieldB r 6 1) v).cfgOver 2

/-! Interfaces (R520 to R524). -/

/-- The hottest temperature among the MC's readings. -/
def Mc.hottest (m : Mc) : Int :=
  (List.range 48).foldl (fun a i => if a < SMap.get 0 m.temps i then SMap.get 0 m.temps i else a) (SMap.get 0 m.temps 0)

/-- The 64-byte summary (R522). -/
def Chip.summary (c : Chip) : List Byte :=
  leBytes 8 (mcStatus c.mc).toNat ++ leBytes 8 (mcFwVer c.mc).toNat ++ leBytes 2 (wrapInt 16 c.mc.hottest) ++
    leBytes 2 c.pwr.measured.toNat ++ leBytes 4 (bits (rstStatus c.rst) 31 0) ++ leBytes 8 c.mc.events.toNat ++ leBytes 32 0

/-- Summary bytes from the read pointer onward, wrapping at 64. -/
def Chip.i3cRead (c : Chip) (count : Nat) : Chip :=
  let b := c.summary
  let out := (List.range count).map (fun i => b.getD ((c.mc.i3cPtr + i) % 64) 0)
  ({ c with mc := { c.mc with i3cPtr := (c.mc.i3cPtr + count) % 64 } }).emit (.i3c out)

/-- A session opens when its peer proves an enrolled key, else AUTH_FAIL is logged (R520); no rule gives the code of the interface. -/
def Chip.openSession (c : Chip) (slot : Nat) (authentic : Bool) (reason : Byte) : Chip :=
  if !c.mc.running then c
  else if authentic && !(SMap.get [] c.mc.cfg.sessionKeys slot).isEmpty then { c with mc := { c.mc with sessions := c.mc.sessions + 1 } }
  else c.spend.log 0x0051 1 0x44 [c.free.setWidth 8, reason]

/-! Rows. -/

/-- MC_START (R529). -/
def execMcStart (s : State) : Host.Outcome State Fault Refusal := s.run (fun c => c.mcStart)
/-- MC_WATCHDOG (R527). -/
def execMcWatchdog (s : State) : Host.Outcome State Fault Refusal := s.run (fun c => c.mcStop 2)
/-- I3C_MC_RESTART (R522). -/
def execI3cMcRestart (s : State) : Host.Outcome State Fault Refusal := s.run (fun c => c.mcStop 3)
/-- SENSOR_SAMPLE_TEMP (R525). -/
def execSensorSampleTemp (temps : List Int) (s : State) : Host.Outcome State Fault Refusal :=
  s.runIf (temps.length = 48 ∧ temps.all (fun t => -32768 ≤ t ∧ t < 32768)) (fun c => if c.mc.running then c.tempSamples temps else c)
/-- SENSOR_SAMPLE_RAIL (R525). -/
def execSensorSampleRail (volts currents : List Nat) (s : State) : Host.Outcome State Fault Refusal :=
  s.runIf (volts.length = 24 ∧ volts.all (fun v => v < 2 ^ 16) ∧ currents.length = 16 ∧ currents.all (fun a => a < 2 ^ 32)) (fun c =>
    if c.mc.running then c.railSamples volts currents else c)
/-- RAIL_POLL (R523). -/
def execRailPoll (readings : List (Nat × Nat)) (s : State) : Host.Outcome State Fault Refusal :=
  s.runIf (readings.length = 8 ∧ readings.all (fun p => p.1 < 2 ^ 16 ∧ p.2 < 2 ^ 32)) (fun c =>
    if c.mc.running then c.railPoll readings else c)
/-- RAIL_FAULT (R523). -/
def execRailFault (rail : Nat) (statusWord : BitVec 16) (s : State) : Host.Outcome State Fault Refusal :=
  s.runIf (rail < 8) (fun c => if c.mc.running then c.railFault rail statusWord else c)
/-- LOG_COPY (R528). -/
def execLogCopy (s : State) : Host.Outcome State Fault Refusal := s.run (fun c => c.logCopy)
/-- LOG_RD (R530). -/
def execLogRd (seq : Word) (s : State) : Host.Outcome State Fault Refusal :=
  s.run (fun c => if c.aon then { c with mc := c.mc.logRd seq } else c)
/-- LOG_RD_DONE (R530). -/
def execLogRdDone (s : State) : Host.Outcome State Fault Refusal := s.run (fun c => { c with mc := c.mc.logRdDone })
/-- FW_INSTALL (R537). -/
def execFwInstall (s : State) : Host.Outcome State Fault Refusal := s.run (fun c => c.fwInstall)
/-- FW_INSTALL_DONE (R537). -/
def execFwInstallDone (s : State) : Host.Outcome State Fault Refusal := s.run (fun c => c.installDone)
/-- FW_ACTIVATE (R537). -/
def execFwActivate (s : State) : Host.Outcome State Fault Refusal := s.run (fun c => c.fwActivate)
/-- FW_COMMIT (R537). -/
def execFwCommit (s : State) : Host.Outcome State Fault Refusal := s.run (fun c => c.fwCommit)
/-- FW_COMMIT_DONE (R537). -/
def execFwCommitDone (s : State) : Host.Outcome State Fault Refusal := s.run (fun c => c.commitFwDone)
/-- FW_REVERT (R537). -/
def execFwRevert (s : State) : Host.Outcome State Fault Refusal := s.run (fun c => c.fwRevert)
/-- CFG_APPLY (R534). -/
def execCfgApply (s : State) : Host.Outcome State Fault Refusal :=
  s.run (fun c => if c.mc.running then { c with mc := c.mc.cfgApply } else c)
/-- CFG_APPLY_DONE (R534). -/
def execCfgApplyDone (nonce : Word) (s : State) : Host.Outcome State Fault Refusal := s.run (fun c => c.cfgDone nonce)
/-- MGMT_SESSION_OPEN (R520). -/
def execMgmtSessionOpen (keySlot : BitVec 2) (authentic : Bool) (reason : Byte) (s : State) : Host.Outcome State Fault Refusal :=
  s.run (fun c => c.openSession keySlot.toNat authentic reason)
/-- I3C_SUMMARY_READ (R522). -/
def execI3cSummaryRead (count : Nat) (s : State) : Host.Outcome State Fault Refusal :=
  s.run (fun c => if c.mc.running then c.i3cRead count else c)
/-- I3C_SET_POINTER (R522). -/
def execI3cSetPointer (pointer : Byte) (s : State) : Host.Outcome State Fault Refusal :=
  s.run (fun c => if c.mc.running then { c with mc := { c.mc with i3cPtr := pointer.toNat % 64 } } else c)
/-- I3C_THROTTLE (R522). -/
def execI3cThrottle (s : State) : Host.Outcome State Fault Refusal := s.run (fun c => if c.mc.running then c.throttleAll else c)
/-- SMBUS_BLOCK_READ (R522). -/
def execSmbusBlockRead (s : State) : Host.Outcome State Fault Refusal :=
  s.run (fun c => if c.mc.running then c.emit (.i3c c.summary) else c)
/-- JTAG_INSTRUCTION (R524). -/
def execJtagInstruction (instruction : JtagOp) (s : State) : Host.Outcome State Fault Refusal :=
  s.run (fun c => if c.aon then { c with mc := { c.mc with tap := if c.mc.jtagOpen then instruction else lockedTap instruction } } else c)

end Sys2Proof.Machine
end

