-- ==== Sys2Proof/Machine/RegWrite.lean ====
section
/-! DEFINITION. What a write of a device register does (R9 to R13, R572 to R578, R585), block by block, and the paths by which registers are
reached: BAR0, BAR3 and BAR5 of a port, a management session, and the register messages of other packages (R398, R399, R401, R472, R521). -/

namespace Sys2Proof.Machine

/-! A write reaches the bits of `reach`; `v` holds its data in place, zeros elsewhere. -/

/-- Whether a write reaches any field of a register (R585). -/
def reaches (reach fields : Word) : Bool := reach &&& fields ≠ 0

/-- The whole register with the half that a write reaches replaced. -/
def mergeHalf (old v reach : Word) : Word := mergeReg old v reach (BitVec.allOnes 64)

/-- A W1C register after a write (R9, R573). -/
def w1cPut (old v reach : Word) : Word := old &&& ~~~(v &&& reach)

/-- The fields of an interrupt vector register: EN and VECTOR. -/
def vecFields : Word := 0x800007FF

/-- A field mask over bits hi to lo. -/
def fieldMask (hi lo : Nat) : Word := w64 ((2 ^ (hi + 1 - lo) - 1) * 2 ^ lo)

/-- RQT block (R57). -/
def Chip.writeRqt (c : Chip) (o : Nat) (v reach : Word) : Chip :=
  if o = 0x08 then c.writeControl (mergeHalf c.req.control v reach)
  else if o = 0x10 then
    ({ c with req := { c.req with weir := mergeReg c.req.weir v reach (fieldMask 49 32 ||| fieldMask 17 0) } }).weirFall
  else if 0x18 ≤ o ∧ o ≤ 0x30 then
    let i := (o - 0x18) / 8
    { c with req := { c.req with weirVec := SMap.set c.req.weirVec i (mergeReg (SMap.get 0 c.req.weirVec i) v reach vecFields) } }
  else if o = 0x38 then
    { c with req := { c.req with events := (w1cPut (c.req.events.setWidth 64) v reach).setWidth 3 } }
  else c

/-- RCP block (R48, R49, R57). -/
def Chip.writeRcp (c : Chip) (o : Nat) (v reach : Word) : Chip :=
  if o = 0x08 then
    (if bits v 1 0 = 1 then c.rcpSubmit .lockReq else if bits v 1 0 = 2 then c.rcpSubmit .unlock else c)
  else if 0x40 ≤ o ∧ o ≤ 0x68 then
    let i := (o - 0x40) / 8
    if c.locked then c
    else c.setRcp { c.rcp with expect := SMap.set c.rcp.expect i (mergeHalf (SMap.get 0 c.rcp.expect i) v reach) }
  else if o = 0x80 then (if reaches reach (fieldMask 49 12) then c.setRcp (c.rcp.stageWrite false (mergeHalf c.rcp.stageAddr v reach)) else c)
  else if o = 0x88 then (if reaches reach (fieldMask 31 0) then c.setRcp (c.rcp.stageWrite true (mergeHalf c.rcp.stageLen v reach)) else c)
  else if o = 0x90 then (if bit v 0 then c.rcpSubmit .verify else c)
  else if 0x100 ≤ o ∧ o < 0x200 ∧ o % 0x40 = 0 then
    let n := (o - 0x100) / 0x40
    if bits v 1 0 = 1 then c.rcpSubmit (.commit n) else if bits v 1 0 = 2 then c.rcpSubmit (.clear n) else c
  else c

/-- RMAP block (R126). -/
def Chip.writeRmap (c : Chip) (o : Nat) (v reach : Word) : Chip :=
  if c.locked then c
  else
    let fields := if o % 16 = 0 then fieldMask 49 12 else fieldMask 49 12 ||| fieldMask 5 4 ||| fieldMask 1 0
    { c with rmap := SMap.set c.rmap (o / 8) (mergeReg (SMap.get 0 c.rmap (o / 8)) v reach fields) }

/-- ARB block (R244). -/
def Chip.writeArb (c : Chip) (o : Nat) (v reach : Word) : Chip :=
  let i := if o < 0x300 then some (o / 8) else if 0x400 ≤ o ∧ o < 0x500 then some (96 + (o - 0x400) / 8) else none
  match i with
  | none => c
  | some i =>
    let b := SMap.get Arbiter.reset c.arbs i
    { c with arbs := SMap.set c.arbs i { b with ctl := mergeReg b.ctl v reach 0x37F7F7F7F } }

/-- A table's registers (R258, R259). -/
def Chip.writeTable (c : Chip) (n q : Nat) (v reach : Word) : Chip :=
  let t := c.table n
  if q = 0x00 then c.tableWrite n .cfg (mergeHalf t.cfg v reach)
  else if q = 0x08 then c.tableWrite n .rows (mergeHalf t.rows v reach)
  else if q = 0x10 then c.tableWrite n .base (mergeHalf t.base v reach)
  else if q = 0x18 then c.tableWrite n .salt (mergeHalf t.salt v reach)
  else if q = 0x20 then (if c.locked then c else c.setTable n { t with scale := mergeReg t.scale v reach (fieldMask 31 0) })
  else if q = 0x28 then (if reaches reach (fieldMask 16 0) then c.tableWrite n .spare (mergeHalf t.spare v reach) else c)
  else c

/-- EMB block (R258). -/
def Chip.writeEmb (c : Chip) (o : Nat) (v reach : Word) : Chip :=
  if o = 0 then
    (if c.locked then c else { c with emb := { c.emb with ctrl := mergeReg c.emb.ctrl v reach 0xFFFF03F0FFFF007F } })
  else if 0x1000 ≤ o then c.writeTable ((o - 0x1000) / 0x80) ((o - 0x1000) % 0x80) v reach
  else c

/-- TXU block (R355, R370). -/
def Chip.writeTxu (c : Chip) (o : Nat) (v reach : Word) : Chip :=
  if o < 0x800 then
    let n := o / 0x80
    let x := c.txu.voc n
    if o % 0x80 = 0x00 then (if c.locked then c else c.setVoc n { x with base := mergeReg x.base v reach (fieldMask 49 0) })
    else if o % 0x80 = 0x08 then (if c.locked then c else c.setVoc n { x with len := mergeReg x.len v reach (fieldMask 26 0) })
    else if o % 0x80 = 0x10 then (if bits v 1 0 = 1 then c.vocLoad n else if bits v 1 0 = 2 then c.vocClear n else c)
    else c
  else c

/-- VID block (R379). -/
def Chip.writeVid (c : Chip) (o : Nat) (v reach : Word) : Chip :=
  if c.locked then c
  else if o = 0x00 then { c with vid := { c.vid with dpbBase := mergeReg c.vid.dpbBase v reach (fieldMask 49 12) } }
  else if o = 0x08 then { c with vid := { c.vid with dpbSize := mergeReg c.vid.dpbSize v reach (fieldMask 37 12) } }
  else if o = 0x10 then { c with vid := { c.vid with contexts := mergeReg c.vid.contexts v reach (fieldMask 10 0) } }
  else c

/-- The block of a window (Table 5 of the port chapter). -/
def Chip.writeWin (c : Chip) (n w q : Nat) (v reach : Word) : Chip :=
  let x := c.window n w
  if q = 0x00 then c.setWindow n w { x with ctrl := mergeReg x.ctrl v reach (fieldMask 40 32 ||| fieldMask 23 16 ||| fieldMask 2 0) }
  else if q = 0x30 then (if bit v 0 then c.windowReset n w else c)
  else if q = 0x38 then c.setWindow n w { x with cwbAddr := mergeHalf x.cwbAddr v reach }
  else if q = 0x40 then c.ringReg n w .recBase v reach
  else if q = 0x48 then (if reaches reach ringCfgFields then c.ringReg n w .ringCfg v reach else c)
  else if q = 0x50 then c.ringReg n w .cplBase v reach
  else if q = 0x58 then c.setWindow n w { x with recHead := mergeHalf x.recHead v reach }
  else if q = 0x68 then c.setWindow n w { x with cplHead := mergeHalf x.cplHead v reach }
  else if q = 0x78 then
    c.setWindow n w { x with irq := mergeReg x.irq v reach (fieldMask 63 63 ||| fieldMask 58 32 ||| fieldMask 15 0) }
  else c

/-- A port block (Table 4 of the port chapter). -/
def Chip.writePort (c : Chip) (n o : Nat) (v reach : Word) : Chip :=
  let p := c.port n
  if o = 0x08 then c.setPort n { p with err := (w1cPut (p.err.setWidth 64) v reach).setWidth 6 }
  else if o = 0x10 then c.setPort n { p with errVec := mergeReg p.errVec v reach vecFields }
  else if o = 0x18 then c.setPort n { p with aper := mergeReg p.aper v reach (fieldMask 49 28) }
  else if o = 0x20 then c.setPort n { p with fabWin := mergeReg p.fabWin v reach (fieldMask 11 0) }
  else if 0x1000 ≤ o ∧ o < 0x3000 then c.writeWin n ((o - 0x1000) / 0x80) (o % 0x80) v reach
  else c

/-- LINK_CTRL: LTEST_LOG2 and EN are held, RETRAIN and TEST act and clear themselves (R432, R434, R452, R454). -/
def Chip.linkCtrl (c : Chip) (n : Nat) (v reach : Word) : Chip :=
  if reaches reach (fieldMask 15 0) = false then c
  else
    let k := c.link n
    let c1 := c.setLink n { k with ctrl := mergeReg k.ctrl v reach (fieldMask 15 8) }
    let c2 := if bit v 0 then c1.linkEnable n else c1.linkDisable n
    let c3 := if bit v 1 then c2.retrain n else c2
    if bit v 2 then c3.linkTest n else c3

/-- A link block (R454). -/
def Chip.writeLink (c : Chip) (n o : Nat) (v reach : Word) : Chip :=
  let k := c.link n
  if o = 0x00 then c.linkCtrl n v reach
  else if o = 0x10 then c.setLink n { k with err := (w1cPut (k.err.setWidth 64) v reach).setWidth 8 }
  else c

/-- NET block (R489). -/
def Chip.writeNet (c : Chip) (o : Nat) (v reach : Word) : Chip :=
  if o = 0x00 then (if c.locked then c else { c with net := { c.net with geom := mergeReg c.net.geom v reach 0xFFF0FFF } })
  else if o = 0x10 then { c with net := { c.net with timeout := mergeReg c.net.timeout v reach (fieldMask 47 0) } }
  else if o = 0x18 then (if c.locked then c else { c with net := { c.net with conf := mergeReg c.net.conf v reach (fieldMask 1 0) } })
  else if o = 0x20 then (if bit v 0 then c.reportChange (.request c.self) else c)
  else c

/-- PWR_DOMd: AUTO is held, REQ asks for a state (R507, R514). -/
def Chip.writeDom (c : Chip) (d : Nat) (v reach : Word) : Chip :=
  if reaches reach (fieldMask 31 0) = false then c
  else
    let c1 := c.setDom d { c.dom d with auto := bit v 8 }
    if bits v 17 16 = 1 then c1.askDomain d .run
    else if bits v 17 16 = 2 then c1.askDomain d .freewheel
    else if bits v 17 16 = 3 then c1.askDomain d .off
    else c1

/-- PWR block (R514); where AUTO is set, the policy acts on what waits (R512, R513). -/
def Chip.writePwr (c : Chip) (o : Nat) (v reach : Word) : Chip :=
  let p := c.pwr
  if o < 8 * 236 then c.writeDom (o / 8) v reach
  else if o = 0x800 then
    let c1 := { c with pwr := { p with policy := mergeReg p.policy v reach (fieldMask 63 32 ||| fieldMask 14 8 ||| fieldMask 0 0) } }
    c1.autoWake.unitsWake
  else if o = 0x808 then { c with pwr := { p with cap := mergeReg p.cap v reach (fieldMask 15 0) } }
  else if o = 0x810 then { c with pwr := { p with therm := mergeReg p.therm v reach (fieldMask 15 0) } }
  else if o = 0x818 then { c with pwr := { p with err := (w1cPut (p.err.setWidth 64) v reach).setWidth 4 } }
  else if 0x900 ≤ o ∧ o < 0xB00 then
    if reaches reach (fieldMask 27 16) then
      { c with pwr := { p with maxMhz := SMap.set p.maxMhz ((o - 0x900) / 8) (BitVec.ofNat 12 (bits v 27 16)) } }
    else c
  else c

/-- MC_FW_CMD (Table 5 of the Management chapter). -/
def Chip.fwCommand (c : Chip) (v : Word) : Chip :=
  if bits v 3 0 = 1 then c.fwInstall
  else if bits v 3 0 = 2 then c.fwActivate
  else if bits v 3 0 = 3 then c.fwCommit
  else if bits v 3 0 = 4 then c.fwRevert
  else c

/-- MC block (R540). The commands are taken only on a path that R534 and R537 allow. -/
def Chip.writeMc (c : Chip) (allowed : Bool) (o : Nat) (v reach : Word) : Chip :=
  let m := c.mc
  if o = 0x010 then { c with mc := { m with fwAddr := mergeReg m.fwAddr v reach (fieldMask 49 12) } }
  else if o = 0x018 then { c with mc := { m with fwLen := mergeReg m.fwLen v reach (fieldMask 20 0) } }
  else if o = 0x020 then (if allowed then c.fwCommand v else c)
  else if o = 0x030 then { c with mc := { m with events := (w1cPut (m.events.setWidth 64) v reach).setWidth 6 } }
  else if 0x038 ≤ o ∧ o ≤ 0x050 then
    let i := (o - 0x38) / 8
    { c with mc := { m with irqVec := SMap.set m.irqVec i (mergeReg (SMap.get 0 m.irqVec i) v reach vecFields) } }
  else if o = 0x060 then { c with mc := { m with cfgAddr := mergeReg m.cfgAddr v reach (fieldMask 49 0) } }
  else if o = 0x068 then (if allowed ∧ bit v 0 ∧ m.running then { c with mc := m.cfgApply } else c)
  else if o = 0x108 then { c with mc := { m with logAck := mergeHalf m.logAck v reach } }
  else if o = 0x120 then { c with mc := { m with logRate := mergeReg m.logRate v reach (fieldMask 15 0) } }
  else if o = 0x128 then { c with mc := m.logRd (mergeHalf m.rdSeq v reach) }
  else if 0x400 ≤ o ∧ o < 0x580 then
    let i := (o - 0x400) / 8
    { c with mc := { m with thrT := SMap.set m.thrT i (mergeReg (SMap.get thrTReset m.thrT i) v reach (fieldMask 31 0)) } }
  else if 0x700 ≤ o ∧ o < 0x7C0 then
    let i := (o - 0x700) / 8
    { c with mc := { m with thrV := SMap.set m.thrV i (mergeHalf (SMap.get 0 m.thrV i) v reach) } }
  else if 0x900 ≤ o ∧ o < 0x980 then
    let i := (o - 0x900) / 8
    { c with mc := { m with thrI := SMap.set m.thrI i (mergeHalf (SMap.get 0 m.thrI i) v reach) } }
  else c

/-- RST_CTRL.WARM: the warm restart is due, where R563 and R567 take it (R578). -/
def Chip.writeRst (c : Chip) (allowed : Bool) (o : Nat) (v : Word) : Chip :=
  if o = 0 ∧ allowed ∧ bit v 0 ∧ c.warmTaken then { c with rst := { c.rst with warmDue := true } } else c

/-- A write of the register at an aligned offset (R581); reserved offsets and RO registers take none (R9, R13), and
the copy of PMWRAP among a core's registers is one of these, so a driver cannot clear it (DESIGN CHOICE, log 53). -/
def Chip.regPut (c : Chip) (allowed : Bool) (o : Nat) (v reach : Word) : Chip :=
  if !c.aon then c
  else if o = 0x20 ∨ o = 0x28 then
    { c with scratch := SMap.set c.scratch ((o - 0x20) / 8) (mergeHalf (SMap.get 0 c.scratch ((o - 0x20) / 8)) v reach) }
  else if 0xB0000 ≤ o ∧ o < 0xB1000 then c.writePwr (o - 0xB0000) v reach
  else if 0xC0000 ≤ o ∧ o < 0xC1000 then c.writeMc allowed (o - 0xC0000) v reach
  else if 0xD0000 ≤ o ∧ o < 0xD0020 then c.writeRst allowed (o - 0xD0000) v
  else if c.blackout then c
  else if 0x40000 ≤ o ∧ o < 0x40068 then c.writeRqt (o - 0x40000) v reach
  else if 0x41000 ≤ o ∧ o < 0x41200 then c.writeRcp (o - 0x41000) v reach
  else if 0x42000 ≤ o ∧ o < 0x42100 then c.writeRmap (o - 0x42000) v reach
  else if 0x43000 ≤ o ∧ o < 0x43500 then c.writeArb (o - 0x43000) v reach
  else if 0x44000 ≤ o ∧ o < 0x47000 then c.writeEmb (o - 0x44000) v reach
  else if 0x47000 ≤ o ∧ o < 0x47C00 then c.writeTxu (o - 0x47000) v reach
  else if 0x47C00 ≤ o ∧ o < 0x47C40 then c.writeVid (o - 0x47C00) v reach
  else if 0x50000 ≤ o ∧ o < 0x90000 then c.writePort ((o - 0x50000) / 0x10000) ((o - 0x50000) % 0x10000) v reach
  else if 0x90000 ≤ o ∧ o < 0x96000 then c.writeLink ((o - 0x90000) / 0x400) ((o - 0x90000) % 0x400) v reach
  else if 0x98000 ≤ o ∧ o < 0xA8000 then c.writeNet (o - 0x98000) v reach
  else c

/-! Paths. -/

/-- An access of 4 or 8 bytes as one of 8: the offset, the value and the bits that it reaches (R572, R573). -/
def inWord (o size : Nat) (v : Word) : Nat × Word × Word :=
  if size = 8 then (o, v, BitVec.allOnes 64)
  else if o % 8 = 4 then (o - 4, v <<< 32, fieldMask 63 32)
  else (o, v &&& fieldMask 31 0, fieldMask 31 0)

/-- A write of 4 or 8 bytes (R572, R573). -/
def Chip.regStore (c : Chip) (allowed : Bool) (o size : Nat) (v : Word) : Chip :=
  let w := inWord o size v
  c.regPut allowed w.1 w.2.1 w.2.2

/-- A register write as it comes in over a port's BAR: an access of another size or alignment is noted and discarded (R399). -/
def Chip.barStore (c : Chip) (n : Nat) (allowed : Bool) (o size : Nat) (v : Word) : Chip :=
  if regAligned o size then c.regStore allowed o size v else c.portErr n 2

/-- A register read as it comes in over a port's BAR: one of another size or alignment is noted and returns 0 (R399). -/
def Chip.barLoad (c : Chip) (n o size : Nat) : Chip :=
  if regAligned o size then c.emit (.readWord n (regLoad c o size)) else (c.portErr n 2).emit (.readWord n 0)

/-- A write by one of the paths of R575, or into BAR1 or a window of BAR2. BAR0 is taken while its access bit is set (R402), BAR3 shows the port's own
block (R421), and a session acts as BAR0 of P0 (R521). -/
def Chip.pathWrite (c : Chip) (p : Path) (o size : Nat) (v : Word) : Chip :=
  match p with
  | .bar0 n =>
    if (c.port n.toNat).linkUp && (c.port n.toNat).access.getLsbD 0 then c.barStore n.toNat (n = 0) o size v else c
  | .bar3 n =>
    if (c.port n.toNat).linkUp && o < 0x10000 then c.barStore n.toNat false (0x50000 + 0x10000 * n.toNat + o) size v else c
  | .session => if c.mc.running && 0 < c.mc.sessions && regAligned o size then c.regStore true o size v else c
  | .message _ => if c.hubOn && regAligned o size then c.regStore false o size v else c
  | .bar1 n =>
    let w := inWord o size v
    if (c.port n.toNat).linkUp && regAligned o size && o < 0x10000 then c.bar1Put n.toNat w.1 w.2.1 w.2.2 else c
  | .bar2 n => if (c.port n.toNat).linkUp then c.intake n.toNat (o / 0x100000) (leBytes size v.toNat) true else c

/-- A read through a port: BAR0 returns 0 while its access bit is clear (R402), BAR1 holds the MSI-X table and the PBA, BAR2 reads 0 (R403), and BAR3
shows the port's own block (R421). Sessions and register messages read by rows of their own. -/
def Chip.pathRead (c : Chip) (p : Path) (o size : Nat) : Chip :=
  match p with
  | .bar0 n =>
    if (c.port n.toNat).linkUp = false then c
    else if (c.port n.toNat).access.getLsbD 0 then c.barLoad n.toNat o size
    else c.emit (.readWord n.toNat 0)
  | .bar3 n => if (c.port n.toNat).linkUp && o < 0x10000 then c.barLoad n.toNat (0x50000 + 0x10000 * n.toNat + o) size else c
  | .bar1 n =>
    let w := (c.port n.toNat).bar1 (o / 8 * 8)
    if (c.port n.toNat).linkUp = false ∨ 0x10000 ≤ o then c
    else c.emit (.readWord n.toNat (if regAligned o size then (if size = 8 then w else w64 (w.toNat / 2 ^ (8 * (o % 8)) % 2 ^ 32)) else 0))
  | .bar2 n => if (c.port n.toNat).linkUp then c.emit (.readWord n.toNat 0) else c
  | .session | .message _ => c

/-- The port of a path. -/
def portOfPath : Path → Option Nat
  | .bar0 n | .bar1 n | .bar2 n | .bar3 n => some n.toNat
  | .session | .message _ => none

/-- A poisoned write through a port is noted and discarded (Table 4 of the port chapter; DESIGN CHOICE, log 26). -/
def Chip.poisonedWrite (c : Chip) (n : Option Nat) : Chip :=
  match n with
  | some n => if (c.port n).linkUp then c.portErr n 5 else c
  | none => c

/-- REGISTER_WRITE (R575). A read by the same path is the row's too (DESIGN CHOICE, log 26: the table gives register reads no row). -/
def execRegisterWrite (path : Path) (offset : BitVec 24) (size : Nat) (op : RegOp) (s : State) : Host.Outcome State Fault Refusal :=
  s.run (fun c =>
    match op with
    | .write v => c.pathWrite path offset.toNat size v
    | .read => c.pathRead path offset.toNat size
    | .poisoned => c.poisonedWrite (portOfPath path))

/-! BAR5 (R401). -/

/-- All ones in an access of a size. -/
def onesOf (size : Nat) : Word := w64 (2 ^ (8 * size) - 1)

/-- A register message to another package; TXN tells which port asked, and 0 the MC. -/
def Chip.regMsg (c : Chip) (mtype dest port o size : Nat) (data : List Byte) : Msg :=
  { c.blankMsg mtype dest with addr := w64 o, txn := BitVec.ofNat 16 port, len := BitVec.ofNat 8 size, data := data }

/-- A BAR5 access (R399, R401, R402). -/
def Chip.bar5 (c : Chip) (n o size : Nat) (write : Option Word) : Chip :=
  let p := c.port n
  let pkg := bits p.fabWin 11 0
  let reply := fun (c : Chip) (v : Word) => if write.isSome then c else c.emit (.readWord n v)
  if p.linkUp = false then c
  else if p.access.getLsbD 2 = false then reply c 0
  else if regAligned o size = false then reply (c.portErr n 2) 0
  else if pkg = c.self then
    match write with
    | some v => c.regStore false o size v
    | none => reply c (regLoad c o size)
  else if c.inGeom pkg = false ∨ c.isLost pkg then (if write.isSome then c else (c.portErr n 4).emit (.readWord n (onesOf size)))
  else
    match write with
    | some v => c.send (c.regMsg 0x42 pkg (n + 1) o size (leBytes size v.toNat))
    | none => c.send (c.regMsg 0x41 pkg (n + 1) o size [])

/-- BAR5_ACCESS (R401). -/
def execBar5Access (port : BitVec 2) (offset : BitVec 24) (size : Nat) (op : RegOp) (s : State) : Host.Outcome State Fault Refusal :=
  s.run (fun c =>
    match op with
    | .write v => c.bar5 port.toNat offset.toNat size (some v)
    | .read => c.bar5 port.toNat offset.toNat size none
    | .poisoned => c.poisonedWrite (some port.toNat))

/-! Register messages (R472). -/

/-- An answer to a register message: to a live package by its route, to the peer of a link that no epoch has joined by that link. -/
def Chip.regAnswer (c : Chip) (a : Msg) : Chip :=
  if a.dest.toNat ∈ c.net.live then c.send a
  else
    match (List.range 24).find? (fun n => (c.link n).up && (c.link n).peerPkg = a.dest) with
    | some n => c.sendOn n a
    | none => c.send a

/-- The size that a register message names. -/
def msgSize (m : Msg) : Nat := if m.len = 4 then 4 else 8

/-- MREG_RD: MREG_DATA answers it. -/
def Chip.serveRegRd (c : Chip) (m : Msg) : Chip :=
  let o := msgOff m
  let v := if regAligned o (msgSize m) then regLoad c o (msgSize m) else 0
  c.regAnswer { c.regMsg 0x43 m.src.toNat m.txn.toNat o (msgSize m) (leBytes (msgSize m) v.toNat) with addr := m.addr }

/-- MREG_WR. -/
def Chip.serveRegWr (c : Chip) (m : Msg) : Chip :=
  c.pathWrite (.message m.src) (msgOff m) (msgSize m) (w64 (fieldB m.data 0 (msgSize m)))

/-- MREG_DATA: of a peer's NET_GEOM, for the check of each link with that peer (R555), or of a port's read. -/
def Chip.serveRegData (c : Chip) (m : Msg) : Chip :=
  let v := w64 (fieldB m.data 0 (msgSize m))
  if m.txn = 0 then
    let ls := (List.range 24).filter (fun n => (c.link n).up && (c.link n).peerPkg = m.src && (SMap.find c.net.peerGeom n).isNone)
    let c1 := { c with net := { c.net with peerGeom := ls.foldl (fun g n => SMap.set g n v) c.net.peerGeom } }
    if msgOff m = 0x98000 then ls.foldl (fun c n => c.qualify n) c1 else c
  else if m.txn.toNat ≤ 4 then c.emit (.readWord (m.txn.toNat - 1) v)
  else c

/-- What a message does at its package: a register message, or one of the others. -/
def Chip.serveAny (c : Chip) (m : Msg) : Chip :=
  if m.mtype = 0x41 then c.serveRegRd m
  else if m.mtype = 0x42 then c.serveRegWr m
  else if m.mtype = 0x43 then c.serveRegData m
  else c.serve m false

/-- A register message reaches this package. -/
def Chip.regMessage (c : Chip) (t : Nat) (m : Msg) : Chip :=
  let q := { m with mtype := BitVec.ofNat 8 t }
  if c.hubOn then c.arrive none q (fun m c => c.serveAny m) else c

/-- MREG_RD (R472). -/
def execMregRd (m : Msg) (s : State) : Host.Outcome State Fault Refusal := s.run (fun c => c.regMessage 0x41 m)
/-- MREG_WR (R472). -/
def execMregWr (m : Msg) (s : State) : Host.Outcome State Fault Refusal := s.run (fun c => c.regMessage 0x42 m)
/-- MREG_DATA (R472). -/
def execMregData (m : Msg) (s : State) : Host.Outcome State Fault Refusal := s.run (fun c => c.regMessage 0x43 m)

/-! Management frames (R521). -/

/-- Whether a session can be served. -/
def Chip.inSession (c : Chip) : Bool := c.mc.running && 0 < c.mc.sessions

/-- Whether n registers from an offset lie in the device register space. -/
def regRange (offset : Word) (n : Nat) : Bool := offset.toNat % 8 = 0 && offset.toNat + 8 * n ≤ 2 ^ 24

/-- The response frame: its OP is the request's plus 0x80. -/
def Chip.respond (c : Chip) (op status : Nat) (offset : Word) (data : List Byte) : Chip :=
  c.emit (.frame (BitVec.ofNat 8 (op + 0x80)) (BitVec.ofNat 8 status) offset data)

/-- OP 1: registers are read in ascending order. -/
def Chip.mgmtRead (c : Chip) (offset : Word) (payload : List Byte) : Chip :=
  let n := fieldB payload 0 4
  if payload.length = 4 ∧ 1 ≤ n ∧ n ≤ 512 ∧ regRange offset n then
    c.respond 1 0 offset ((List.range n).flatMap (fun i => leBytes 8 (regRead c (offset.toNat + 8 * i)).toNat))
  else c.respond 1 2 offset []

/-- Registers written in order from an offset. -/
def Chip.regFill (c : Chip) (o : Nat) : List Byte → Nat → Chip
  | _, 0 => c
  | b, n + 1 => (c.regStore true o 8 (w64 (fieldB b 0 8))).regFill (o + 8) (b.drop 8) n

/-- OP 2: registers are written in order. -/
def Chip.mgmtWrite (c : Chip) (offset : Word) (payload : List Byte) : Chip :=
  let n := payload.length / 8
  if payload.length % 8 = 0 ∧ payload.length ≤ 2 ^ 20 ∧ regRange offset n then
    (c.regFill offset.toNat payload n).respond 2 0 offset []
  else c.respond 2 2 offset []

/-- OP 3: HBM is written under the rules of a BAR4 write. -/
def Chip.mgmtHbm (c : Chip) (offset : Word) (payload : List Byte) : Chip :=
  if 2 ^ 20 < payload.length ∨ 2 ^ 50 ≤ offset.toNat then c.respond 3 2 offset []
  else if payload.isEmpty then c.respond 3 0 offset []
  else if c.hbmWaits offset.toNat then c
  else
    match c.hbmWrite offset.toNat payload with
    | some d => d.respond 3 0 offset []
    | none => c.respond 3 3 offset []

/-- MGMT_REG_READ (R521). -/
def execMgmtRegRead (offset : Word) (payload : List Byte) (s : State) : Host.Outcome State Fault Refusal :=
  s.run (fun c => if c.inSession then c.mgmtRead offset payload else c)
/-- MGMT_REG_WRITE (R521). -/
def execMgmtRegWrite (offset : Word) (payload : List Byte) (s : State) : Host.Outcome State Fault Refusal :=
  s.run (fun c => if c.inSession then c.mgmtWrite offset payload else c)
/-- MGMT_HBM_WRITE (R521). -/
def execMgmtHbmWrite (offset : Word) (payload : List Byte) (s : State) : Host.Outcome State Fault Refusal :=
  s.run (fun c => if c.inSession then c.mgmtHbm offset payload else c)

end Sys2Proof.Machine
end

