-- ==== Sys2Proof/Machine/Flits.lean ====
section
/-! DEFINITION. Codewords and flits (R428, R429, R436 to R451): what a received codeword does, and what a codeword that is sent carries. -/

namespace Sys2Proof.Machine

/-! Slots. -/

/-- Bytes cut into n slots of 128. -/
def cutSlots : Nat → List Byte → List (List Byte)
  | 0, _ => []
  | n + 1, b => b.take 128 :: cutSlots n (b.drop 128)

/-- Five slots scrambled or descrambled (R429). -/
def scramble (s : BitVec 31) (slots : List (List Byte)) : List (List Byte) × BitVec 31 :=
  let p := prbsBytes 640 s
  (cutSlots 5 (xorBytes (slots.flatMap (fun x => sliceB x 0 128)) p.1), p.2)

/-! Receiving. -/

/-- FCRC of a flit (R438). -/
def flitCrc (f : List Byte) : Nat := crc32 (f.take 12 ++ f.drop 16)

/-- FTYPE of a flit (Table 5). -/
def flitType (f : List Byte) : Nat := fieldB f 0 2 / 4096

/-- The ACK field of a flit (R443, R444): a taken value releases flits, and a taken NAK starts a resend. -/
def Chip.takeLinkAck (c : Chip) (n : Nat) (f : List Byte) : Chip :=
  let k := c.link n
  let kind := fieldB f 2 2 / 16384
  let seq := fieldB f 2 2 % 4096
  if (kind = 1 ∨ kind = 2) ∧ k.ackInRange seq then
    (if kind = 2 then (c.setLink n ((k.release seq).raise 2)).startResend n else c.setLink n (k.release seq))
  else c

/-- The CREDIT field of a flit (R448, R449). -/
def Link.takeCredit (k : Link) (f : List Byte) : Link :=
  let q := fieldB f 4 2 / 4096
  if q < 12 then { k with peerFreed := SMap.set k.peerFreed q (fieldB f 4 2 % 4096) } else k

/-- An LTEST flit during a test (R437, R452). -/
def Link.takeLtest (k : Link) (f : List Byte) : Link :=
  match k.testLeft with
  | some (left + 1) =>
    let p := prbsBytes 112 k.ltRx
    let errs := onesB (xorBytes (f.drop 16) p.1)
    { k.tally 9 errs with testLeft := some left, ltRx := p.2, testBad := k.testBad || 0 < errs }
  | _ => k

/-- What a test counts over its span (R452): whether something was wrong, corrected symbols and codewords. -/
def Link.inTest (k : Link) (bad : Bool) (syms cws : Nat) : Link :=
  match k.testLeft with
  | some (_ + 1) => { k with testBad := k.testBad || bad, testSyms := k.testSyms + syms, testCws := k.testCws + cws }
  | _ => k

/-- A DATA flit is the next expected (R441), or a NAK is due unless one has gone out since the last acceptance (R442). -/
def Link.accepts (k : Link) (f : List Byte) : Bool := fieldB f 0 2 % 4096 = (k.rxLast + 1) % 4096

/-- An accepted DATA flit is counted as freed from its receive queue (R449); a NAK that is due is still due (R442). -/
def Link.acceptFlit (k : Link) (f : List Byte) : Link :=
  let q := 2 * flitVc f + flitClass f
  { k with rxLast := fieldB f 0 2 % 4096, nakSent := false,
           freed := if q < 12 then SMap.set k.freed q ((SMap.get 0 k.freed q + 1) % 4096) else k.freed }

/-- Whether two fragments belong to one message: the same source, destination and virtual channel (R471). -/
def sameMessage (a b : Msg) : Bool := a.src = b.src && a.dest = b.dest && vcOf a.mtype.toNat = vcOf b.mtype.toNat

/-- A flit's place in its message: the whole message when the flit completes it. -/
def Chip.joinFlit (c : Chip) (f : List Byte) : Option Msg × Chip :=
  let m := msgOfFlit f
  let frag := flitFrag f
  if frag = 0 then (some m, c)
  else
    let rest := c.net.fragments.filter (fun p => !(sameMessage p m))
    let keep := fun (l : List Msg) => { c with net := { c.net with fragments := l } }
    if frag = 1 then (none, keep (rest ++ [m]))
    else
      match c.net.fragments.find? (fun p => sameMessage p m) with
      | none => (none, c)
      | some p =>
        let q := { p with data := p.data ++ m.data }
        if frag = 3 then (some q, keep rest) else (none, keep (rest ++ [q]))

/-- A message that came by a link: the epoch messages have rows of their own. -/
def Chip.dispatch (c : Chip) (n cls : Nat) (m : Msg) : Chip :=
  if 0x48 ≤ m.mtype.toNat ∧ m.mtype.toNat ≤ 0x4C then c
  else c.arrive (some (n, cls)) m (fun m c => c.serveAny m)

/-- An accepted DATA flit (R447, R451, R472). -/
def Chip.takeData437 (c : Chip) (n : Nat) (f : List Byte) : Chip :=
  let k := c.link n
  let c1 := c.setLink n (k.acceptFlit f)
  let vc := flitVc f
  if 6 ≤ vc then c1.setLink n ((c1.link n).tally 4 1)
  else if k.state = .isolated ∧ vc ≠ 4 then c1.setLink n ((c1.link n).tally 8 1)
  else if vcOf (fieldB f 7 1) ≠ some vc then c1.netCount 3 1
  else
    match c1.joinFlit f with
    | (none, c2) => c2
    | (some m, c2) => c2.dispatch n (flitClass f) m

/-- A flit of a KIND 0 codeword, descrambled (R438 to R452). -/
def Chip.takeFlit (c : Chip) (n : Nat) (f : List Byte) : Chip :=
  let k := (c.link n).tally 1 1
  if k.up = false then c
  else if flitCrc f ≠ fieldB f 12 4 then c.setLink n (((k.raise 0).tally 4 1).inTest true 0 0)
  else if 3 ≤ flitType f then c.setLink n (k.raise 7)
  else
    let c1 := (c.setLink n (k.takeCredit f)).takeLinkAck n f
    let k1 := c1.link n
    if flitType f = 2 then c1.setLink n (k1.takeLtest f)
    else if flitType f = 0 then c1
    else if k1.accepts f then c1.takeData437 n f
    else c1.setLink n { k1 with nakDue := k1.nakDue || !k1.nakSent }

/-- The flits that were held in CONFIG are taken once the link is out of it (R429). -/
def Chip.takeHeld (c : Chip) (n : Nat) : Chip :=
  let k := c.link n
  if k.up then k.held.foldl (fun c f => c.takeFlit n f) (c.setLink n { k with held := [] }) else c

/-- A training set, and what the end of CONFIG lets through. -/
def Chip.takeSet (c : Chip) (n : Nat) (t : List Byte) : Chip := (c.trainingSet n t).takeHeld n

/-- The descrambler after a codeword that the decoder cannot correct (R429): it passes over the bits of a KIND 0 codeword, and restarts
after one of KIND 1. -/
def Link.passOver (k : Link) (kind : BitVec 2) : BitVec 31 :=
  if kind = 0 then (prbsBytes 640 k.scrRx).2 else if kind = 1 then 0x7FFFFFFF else k.scrRx

/-- A codeword that the decoder cannot correct (R429): eight in a row count as loss of lock. -/
def Chip.badCodeword (c : Chip) (n : Nat) (kind : BitVec 2) : Chip :=
  let k := (c.link n).tally 3 1
  let k1 : Link := { (k.raise 1).inTest true 0 1 with badCws := k.badCws + 1, scrRx := k.passOver kind }
  if 8 ≤ k1.badCws then (c.setLink n { k1 with badCws := 0 }).retrain n else c.setLink n k1

/-- A codeword that came (R428, R429). -/
def Chip.codeword (c : Chip) (n : Nat) (w : Codeword) : Chip :=
  let k := c.link n
  if !(k.up || k.state = .config) then c
  else
    match w.corrected with
    | none => c.badCodeword n w.kind
    | some syms =>
      let k1 := { (k.tally 2 syms).inTest false syms 1 with badCws := 0 }
      if w.kind = 1 then w.slots.foldl (fun c t => c.takeSet n t) (c.setLink n { k1 with scrRx := 0x7FFFFFFF })
      else if w.kind = 0 then
        let p := scramble k1.scrRx w.slots
        if k.state = .config then c.setLink n { k1 with scrRx := p.2, held := k1.held ++ p.1 }
        else p.1.foldl (fun c f => c.takeFlit n f) (c.setLink n { k1 with scrRx := p.2 })
      else c.setLink n k1

/-! Sending. -/

/-- The depth of each receive queue of this package (Table 6). -/
def queueDepth (q : Nat) : Nat := if q < 4 then 256 else if q < 8 then 128 else if q < 10 then 16 else 512

/-- The training set that a link in CONFIG sends (R436): TS2 once a valid set has come. -/
def Chip.ownSet (c : Chip) (n : Nat) : List Byte :=
  let k := c.link n
  let b := [if k.lastTs.isEmpty then 1 else 2, 1] ++ leBytes 2 (if c.rst.unnumbered then 0xFFF else c.self) ++
    [BitVec.ofNat 8 n, if k.retraining then 3 else 1] ++ leBytes 2 (if k.retraining then (k.rxLast + 1) % 4096 else 0) ++
    (List.range 12).flatMap (fun q => leBytes 2 (queueDepth q)) ++ leBytes 4 c.net.epoch.toNat ++ leBytes 88 0
  b ++ leBytes 4 (crc32 b)

/-- Whether a flit of VC 4 is for the peer, as DATA in ISOLATED is (R451). -/
def Link.forPeer (k : Link) (f : List Byte) : Bool := flitVc f = 4 && fieldB f 8 2 % 4096 = k.peerPkg.toNat

/-- The receive queue of a flit (R447). -/
def flitQueue (f : List Byte) : Nat := 2 * flitVc f + flitClass f

/-- Whether the oldest flit of an input port and channel may go out as a new one (R447, R448, R451). -/
def Link.mayOffer (k : Link) (vc port : Nat) : Bool :=
  match (SMap.get [] k.txq (port * 6 + vc)).head? with
  | none => false
  | some f =>
    seqDist (SMap.get 0 k.peerFreed (flitQueue f)) (SMap.get 0 k.sent (flitQueue f)) < SMap.get 0 k.adv (flitQueue f) &&
    (k.state = .active || k.forPeer f)

/-- The input port that a virtual channel grants next, in turn after the one that it granted last (R467). -/
def Link.vcPort (k : Link) (vc : Nat) : Option Nat :=
  ((List.range 25).map (fun i => (SMap.get ownPort k.lastPort vc + 1 + i) % 25)).find? (k.mayOffer vc)

/-- The channel and input port granted next, and the turn of Request and Bulk after it (R467). -/
def Link.grant (k : Link) : Option (Nat × Nat) × Nat :=
  let at_ := fun (vc : Nat) => (k.vcPort vc).map (fun p => (vc, p))
  match (at_ 4).or ((at_ 1).or ((at_ 2).or (at_ 3))) with
  | some q => (some q, k.turn)
  | none =>
    match at_ 0, at_ 5 with
    | some a, some b => (some (if k.turn < 3 then a else b), (k.turn + 1) % 4)
    | a, b => (a.or b, k.turn)

/-- A new DATA flit leaves its queue and is kept until it is acknowledged (R439, R440, R448). -/
def Link.sendNew (k : Link) (vc port turn : Nat) : List Byte × Link :=
  let l := SMap.get [] k.txq (port * 6 + vc)
  let q := flitQueue (l.headD [])
  let f := leBytes 2 (4096 + k.txSeq % 4096) ++ (l.headD []).drop 2
  (f, { k with txq := SMap.set k.txq (port * 6 + vc) (l.drop 1), replay := k.replay ++ [(k.txSeq, f)], txSeq := (k.txSeq + 1) % 4096,
               sent := SMap.set k.sent q ((SMap.get 0 k.sent q + 1) % 4096), turn := turn, lastPort := SMap.set k.lastPort vc port })

/-- Whether ISOLATED sends LTEST flits: no DATA that it may send is waiting, with credit or without (R451). -/
def Link.ltestDue (k : Link) : Bool :=
  k.state = .isolated && !(k.txq.any (fun p => p.2.head?.any k.forPeer))

/-- A flit without data: NULL, or LTEST with the next bits of its stream (R437). -/
def Link.sendIdle (k : Link) (ltest : Bool) : List Byte × Link :=
  if ltest then
    let p := prbsBytes 112 k.ltTx
    (leBytes 16 0x2000 ++ p.1, { k with ltTx := p.2 })
  else (leBytes 128 0, k)

/-- The flit of the next slot before its link fields (R440, R444, R450, R451). -/
def Link.nextFlit (k : Link) : List Byte × Link :=
  match k.resend with
  | p :: rest => (p.2, { k with resend := rest })
  | [] =>
    if 4095 ≤ k.replay.length then k.sendIdle false
    else
      match k.grant with
      | (some q, turn) => k.sendNew q.1 q.2 turn
      | (none, _) => k.sendIdle k.ltestDue

/-- A flit with its ACK, CREDIT and FCRC fields (R441, R442, R446, R449). -/
def Link.dress (k : Link) (f : List Byte) : List Byte × Link :=
  let q := k.crNext % 12
  let head := f.take 2 ++ leBytes 2 ((if k.nakDue then 0x8000 else 0x4000) + k.rxLast % 4096) ++
    leBytes 2 (q * 4096 + SMap.get 0 k.freed q % 4096) ++ sliceB f 6 6
  let body := sliceB f 16 112
  (head ++ leBytes 4 (crc32 (head ++ body)) ++ body,
   { k.tally 0 1 with crNext := (q + 1) % 12, nakDue := false, nakSent := k.nakSent || k.nakDue })

/-- n slots of flits. -/
def Link.fillSlots : Nat → Link → List (List Byte) × Link
  | 0, k => ([], k)
  | n + 1, k =>
    let a := k.nextFlit
    let b := a.2.dress a.1
    let r := Link.fillSlots n b.2
    (b.1 :: r.1, r.2)

/-- Five training sets leave in CONFIG (R432, R436): TS2 that follow the first TS2 received are counted. -/
def Chip.sendSets (c : Chip) (n : Nat) (k : Link) : Chip :=
  let ts2 := fieldB (c.ownSet n) 0 1 = 2
  let c1 := (c.setLink n { k with ts2Sent := if ts2 then k.ts2Sent.map (fun j => j + 5) else k.ts2Sent }).emit
    (wireCodeword n 1 (c.link n).cwNum (List.replicate 5 (c.ownSet n)))
  (c1.configOver n).takeHeld n

/-- One lane frame leaves on each lane (R435): `done` and `req` are what the receivers of the lanes say of their equalisation. -/
def Chip.sendFrames (c : Chip) (n : Nat) (done : BitVec 8) (req : BitVec 48) : Chip :=
  let k := c.link n
  (List.range 8).foldl (fun c i => c.emit (.laneFrame n i (k.frameBits n i (done.getLsbD i) (req.toNat >>> (6 * i))))) (c.setLink n (k.framesSent done))

/-- What a link sends next: a codeword from CONFIG on (R428, R429, R450), lane frames before it (R435, Table 2). -/
def Chip.sendCodeword (c : Chip) (n : Nat) (done : BitVec 8) (req : BitVec 48) : Chip :=
  let k := c.link n
  let k1 := { k with cwNum := k.cwNum + 1 }
  if k.state = .config then c.sendSets n k1
  else if k.up then
    let r := Link.fillSlots 5 k1
    let p := scramble r.2.scrTx r.1
    (c.setLink n { r.2 with scrTx := p.2 }).emit (wireCodeword n 0 k.cwNum p.1)
  else if k.state = .disabled ∨ k.state = .failed then c
  else c.sendFrames n done req

/-! Rows. -/

/-- CODEWORD_SEND (R450), or the lane frames that stand in a codeword's place before CONFIG (R435). -/
def execCodewordSend (turn : LinkTurn) (s : State) : Host.Outcome State Fault Refusal :=
  s.runIf (turn.link < 24) (fun c => c.sendCodeword turn.link turn.eqDone turn.eqReq)
/-- CODEWORD_RECEIVE (R429): a codeword of five slots of 128 bytes, of which up to 15 symbols were corrected. -/
def execCodewordReceive (link : Nat) (cw : Codeword) (s : State) : Host.Outcome State Fault Refusal :=
  s.runIf (link < 24 ∧ cw.slots.length = 5 ∧ cw.slots.all (fun x => x.length = 128) ∧ cw.corrected.all (fun n => n ≤ 15)) (fun c =>
    c.codeword link cw)
/-- TRAINING_SET (R436). -/
def execTrainingSet (link : Nat) (set : List Byte) (s : State) : Host.Outcome State Fault Refusal :=
  s.runIf (link < 24 ∧ set.length = 128) (fun c => c.takeSet link set)

end Sys2Proof.Machine
end

