-- ==== Sys2Proof/Machine/Tick.lean ====
section
/-! DEFINITION. One nanosecond in which no command waits: Tide, the cycles of each core's island (R498) and what counts time
(R41, R45, R245, R355, R367, R379, R411, R440, R514). -/

namespace Sys2Proof.Machine

/-- Whether a core's island has a running clock: in Run and while it drains (R503). -/
def Chip.clocked (c : Chip) (n : Nat) : Bool := (c.dom (2 * n)).state = .run || (c.dom (2 * n)).state = .turningOff

/-- The causes that the slots and engines of a core wait for, one for each holder that waits (R245, R247). -/
def Core.waits (k : Core) : List Cause :=
  (List.range 8).filterMap (fun i => if (k.slot i).task.isSome && !(k.slot i).stopped then (k.slot i).wait else none) ++
    (List.range 6).filterMap (fun e => if (k.engine e).queue.isEmpty then none else (k.engine e).wait)

/-- Cycles of a core: CYCLES, the counters of event 0x001, and one count for each holder that waits (R245, R248). -/
def Core.run (k : Core) (n : Nat) : Core :=
  let k1 := { k.count 1 n with cycles := k.cycles + w64 n }
  { k1 with stall := k.waits.foldl (fun m w => SMap.set m w.index (SMap.get 0 m w.index + w64 n)) k1.stall }

/-- One nanosecond of a core at its frequency in MHz; the part of a cycle that is left over carries on. -/
def Core.tick (k : Core) (mhz : Nat) : Core :=
  let t := k.cycleFrac + mhz
  { k.run (t / 1000) with cycleFrac := t % 1000 }

/-- One nanosecond of every core whose clock runs. -/
def Chip.tickCores (c : Chip) : Chip :=
  ((List.range 64).filter c.clocked).foldl (fun c n => c.setCore n ((c.core n).tick (c.curMhz n))) c

/-- One nanosecond of a link: REPLAY_FULL (R440). -/
def Link.tick (k : Link) : Link := if k.up ∧ 4095 ≤ k.replay.length then k.tally 10 1 else k

/-- One nanosecond of a port: Requests that wait for ring space (R411). -/
def Port.tick (p : Port) : Port :=
  { p with windows := p.windows.map (fun q => (q.1, { q.2 with deliverWait := q.2.deliverWait + w64 q.2.waiting.length })) }

/-- One nanosecond of the Request Table: ADMIT_STALL and PLACE_WAIT (R41, R45). -/
def Chip.tickReq (c : Chip) : ReqTable :=
  { c.req with
    admitStall := if c.req.stallHead.isSome then c.req.admitStall + 1 else c.req.admitStall,
    placeWait := c.req.placeWait + w64 (c.req.placeQ.filter (fun p => c.stageWaits p)).length }

/-- Whether a Feature Core is held below its MAX_MHZ for its temperature (R509). -/
def Chip.throttled (c : Chip) : Bool := (List.range 64).any (fun n => c.thermMhz n < c.maxMhz n)

/-- One nanosecond of the hub and all that it clocks. -/
def Chip.tickHub (c : Chip) : Chip :=
  let c1 := c.tickCores
  { c1 with
    req := c.tickReq,
    ports := c1.ports.map (fun p => (p.1, p.2.tick)),
    links := c1.links.map (fun p => (p.1, p.2.tick)),
    txu := { c1.txu with waitNs := c1.txu.waitNs + w64 (c1.txu.jobs.filter (fun j => j.lane.isNone)).length },
    vid := { c1.vid with waitNs := c1.vid.waitNs + w64 (c1.vid.units.filter (fun u => u.hold.isNone)).length },
    pwr := { c1.pwr with thermNs := if c.throttled then c1.pwr.thermNs + 1 else c1.pwr.thermNs } }

/-- One nanosecond. Tide runs while the always-on domain does (R548, R563). -/
def Chip.tick (c : Chip) : Chip :=
  if !c.aon then c
  else
    let c1 := if c.hubOn then c.tickHub else c
    { c1 with tide := c.tide + 1 }

end Sys2Proof.Machine
end

