-- ==== Sys2Proof/Machine/Dispatch.lean ====
section
/-! DEFINITION. The meaning of each command, one arm for each row of the table. -/

namespace Sys2Proof.Machine

/-- The effect of one command on the package; the queue of commands stays as it is. -/
def exec (i : Instr) (s : State) : Host.Outcome State Fault Refusal :=
  match i with
  | .add l rd ra rb => Sys2Proof.Machine.execAdd l rd ra rb s
  | .sub l rd ra rb => Sys2Proof.Machine.execSub l rd ra rb s
  | .and l rd ra rb => Sys2Proof.Machine.execAnd l rd ra rb s
  | .or l rd ra rb => Sys2Proof.Machine.execOr l rd ra rb s
  | .xor l rd ra rb => Sys2Proof.Machine.execXor l rd ra rb s
  | .sll l rd ra rb => Sys2Proof.Machine.execSll l rd ra rb s
  | .srl l rd ra rb => Sys2Proof.Machine.execSrl l rd ra rb s
  | .sra l rd ra rb => Sys2Proof.Machine.execSra l rd ra rb s
  | .slt l rd ra rb => Sys2Proof.Machine.execSlt l rd ra rb s
  | .sltu l rd ra rb => Sys2Proof.Machine.execSltu l rd ra rb s
  | .mul l rd ra rb => Sys2Proof.Machine.execMul l rd ra rb s
  | .mulh l rd ra rb => Sys2Proof.Machine.execMulh l rd ra rb s
  | .mulhu l rd ra rb => Sys2Proof.Machine.execMulhu l rd ra rb s
  | .div l rd ra rb => Sys2Proof.Machine.execDiv l rd ra rb s
  | .divu l rd ra rb => Sys2Proof.Machine.execDivu l rd ra rb s
  | .rem l rd ra rb => Sys2Proof.Machine.execRem l rd ra rb s
  | .remu l rd ra rb => Sys2Proof.Machine.execRemu l rd ra rb s
  | .min l rd ra rb => Sys2Proof.Machine.execMin l rd ra rb s
  | .max l rd ra rb => Sys2Proof.Machine.execMax l rd ra rb s
  | .minu l rd ra rb => Sys2Proof.Machine.execMinu l rd ra rb s
  | .maxu l rd ra rb => Sys2Proof.Machine.execMaxu l rd ra rb s
  | .clz l rd ra rb => Sys2Proof.Machine.execClz l rd ra rb s
  | .ctz l rd ra rb => Sys2Proof.Machine.execCtz l rd ra rb s
  | .popc l rd ra rb => Sys2Proof.Machine.execPopc l rd ra rb s
  | .addi l rd ra imm => Sys2Proof.Machine.execAddi l rd ra imm s
  | .andi l rd ra imm => Sys2Proof.Machine.execAndi l rd ra imm s
  | .ori l rd ra imm => Sys2Proof.Machine.execOri l rd ra imm s
  | .xori l rd ra imm => Sys2Proof.Machine.execXori l rd ra imm s
  | .slti l rd ra imm => Sys2Proof.Machine.execSlti l rd ra imm s
  | .sltiu l rd ra imm => Sys2Proof.Machine.execSltiu l rd ra imm s
  | .shi l rd ra imm => Sys2Proof.Machine.execShi l rd ra imm s
  | .lui l rd imm => Sys2Proof.Machine.execLui l rd imm s
  | .lis l rd ra imm => Sys2Proof.Machine.execLis l rd ra imm s
  | .lb l rd ra imm ecc => Sys2Proof.Machine.execLb l rd ra imm ecc s
  | .lbu l rd ra imm ecc => Sys2Proof.Machine.execLbu l rd ra imm ecc s
  | .lh l rd ra imm ecc => Sys2Proof.Machine.execLh l rd ra imm ecc s
  | .lhu l rd ra imm ecc => Sys2Proof.Machine.execLhu l rd ra imm ecc s
  | .lw l rd ra imm ecc => Sys2Proof.Machine.execLw l rd ra imm ecc s
  | .lwu l rd ra imm ecc => Sys2Proof.Machine.execLwu l rd ra imm ecc s
  | .ld l rd ra imm ecc => Sys2Proof.Machine.execLd l rd ra imm ecc s
  | .sb l rs ra imm => Sys2Proof.Machine.execSb l rs ra imm s
  | .sh l rs ra imm => Sys2Proof.Machine.execSh l rs ra imm s
  | .sw l rs ra imm => Sys2Proof.Machine.execSw l rs ra imm s
  | .sd l rs ra imm => Sys2Proof.Machine.execSd l rs ra imm s
  | .beq l ra rb off => Sys2Proof.Machine.execBeq l ra rb off s
  | .bne l ra rb off => Sys2Proof.Machine.execBne l ra rb off s
  | .blt l ra rb off => Sys2Proof.Machine.execBlt l ra rb off s
  | .bge l ra rb off => Sys2Proof.Machine.execBge l ra rb off s
  | .bltu l ra rb off => Sys2Proof.Machine.execBltu l ra rb off s
  | .bgeu l ra rb off => Sys2Proof.Machine.execBgeu l ra rb off s
  | .jal l rd off => Sys2Proof.Machine.execJal l rd off s
  | .jalr l rd ra imm => Sys2Proof.Machine.execJalr l rd ra imm s
  | .ldrv l rd ra imm ecc => Sys2Proof.Machine.execLdrv l rd ra imm ecc s
  | .stcv l rd ra rb => Sys2Proof.Machine.execStcv l rd ra rb s
  | .fenceL l => Sys2Proof.Machine.execFenceL l s
  | .fenceG l => Sys2Proof.Machine.execFenceG l s
  | .fenceE l engines => Sys2Proof.Machine.execFenceE l engines s
  | .tend l => Sys2Proof.Machine.execTend l s
  | .yield l => Sys2Proof.Machine.execYield l s
  | .trap l code => Sys2Proof.Machine.execTrap l code s
  | .eret l => Sys2Proof.Machine.execEret l s
  | .mfs l rd snum => Sys2Proof.Machine.execMfs l rd snum s
  | .mts l rs snum => Sys2Proof.Machine.execMts l rs snum s
  | .strCfgWrite l stream rs => Sys2Proof.Machine.execStrCfgWrite l stream rs s
  | .strRingRead l rd stream => Sys2Proof.Machine.execStrRingRead l rd stream s
  | .strRingHandover l stream rs => Sys2Proof.Machine.execStrRingHandover l stream rs s
  | .enq l rd ra engine block => Sys2Proof.Machine.execEnq l rd ra engine block s
  | .pfh l hint ra imm => Sys2Proof.Machine.execPfh l hint ra imm s
  | .hqput l rd ra nb queue => Sys2Proof.Machine.execHqput l rd ra nb queue s
  | .hqget l rd nb queue => Sys2Proof.Machine.execHqget l rd nb queue s
  | .smsg l ra => Sys2Proof.Machine.execSmsg l ra s
  | .vld l vd ra rb mask ty mode ecc => Sys2Proof.Machine.execVld l vd ra rb mask ty mode ecc s
  | .vst l vd ra rb mask ty mode => Sys2Proof.Machine.execVst l vd ra rb mask ty mode s
  | .vadd l vd va vb mask ty => Sys2Proof.Machine.execVadd l vd va vb mask ty s
  | .vsub l vd va vb mask ty => Sys2Proof.Machine.execVsub l vd va vb mask ty s
  | .vmul l vd va vb mask ty => Sys2Proof.Machine.execVmul l vd va vb mask ty s
  | .vmulh l vd va vb mask ty => Sys2Proof.Machine.execVmulh l vd va vb mask ty s
  | .vmin l vd va vb mask ty => Sys2Proof.Machine.execVmin l vd va vb mask ty s
  | .vmax l vd va vb mask ty => Sys2Proof.Machine.execVmax l vd va vb mask ty s
  | .vand l vd va vb mask ty => Sys2Proof.Machine.execVand l vd va vb mask ty s
  | .vor l vd va vb mask ty => Sys2Proof.Machine.execVor l vd va vb mask ty s
  | .vxor l vd va vb mask ty => Sys2Proof.Machine.execVxor l vd va vb mask ty s
  | .vsll l vd va vb mask ty => Sys2Proof.Machine.execVsll l vd va vb mask ty s
  | .vsrl l vd va vb mask ty => Sys2Proof.Machine.execVsrl l vd va vb mask ty s
  | .vsra l vd va vb mask ty => Sys2Proof.Machine.execVsra l vd va vb mask ty s
  | .vadds l vd va vb mask ty => Sys2Proof.Machine.execVadds l vd va vb mask ty s
  | .vsubs l vd va vb mask ty => Sys2Proof.Machine.execVsubs l vd va vb mask ty s
  | .vabsd l vd va vb mask ty => Sys2Proof.Machine.execVabsd l vd va vb mask ty s
  | .vsel l vd va vb mask ty => Sys2Proof.Machine.execVsel l vd va vb mask ty s
  | .vfadd l vd va vb mask ty => Sys2Proof.Machine.execVfadd l vd va vb mask ty s
  | .vfsub l vd va vb mask ty => Sys2Proof.Machine.execVfsub l vd va vb mask ty s
  | .vfmul l vd va vb mask ty => Sys2Proof.Machine.execVfmul l vd va vb mask ty s
  | .vfdiv l vd va vb mask ty => Sys2Proof.Machine.execVfdiv l vd va vb mask ty s
  | .vfmin l vd va vb mask ty => Sys2Proof.Machine.execVfmin l vd va vb mask ty s
  | .vfmax l vd va vb mask ty => Sys2Proof.Machine.execVfmax l vd va vb mask ty s
  | .vfma l vd va vb mask ty => Sys2Proof.Machine.execVfma l vd va vb mask ty s
  | .vfsqrt l vd va vb mask ty => Sys2Proof.Machine.execVfsqrt l vd va vb mask ty s
  | .vflog1p l vd va vb mask ty => Sys2Proof.Machine.execVflog1p l vd va vb mask ty s
  | .vfabs l vd va vb mask ty => Sys2Proof.Machine.execVfabs l vd va vb mask ty s
  | .vfneg l vd va vb mask ty => Sys2Proof.Machine.execVfneg l vd va vb mask ty s
  | .vfclamp l vd va vb mask ty => Sys2Proof.Machine.execVfclamp l vd va vb mask ty s
  | .vcmpEq l vd va vb mask ty => Sys2Proof.Machine.execVcmpEq l vd va vb mask ty s
  | .vcmpNe l vd va vb mask ty => Sys2Proof.Machine.execVcmpNe l vd va vb mask ty s
  | .vcmpLt l vd va vb mask ty => Sys2Proof.Machine.execVcmpLt l vd va vb mask ty s
  | .vcmpLe l vd va vb mask ty => Sys2Proof.Machine.execVcmpLe l vd va vb mask ty s
  | .vcmpGt l vd va vb mask ty => Sys2Proof.Machine.execVcmpGt l vd va vb mask ty s
  | .vcmpGe l vd va vb mask ty => Sys2Proof.Machine.execVcmpGe l vd va vb mask ty s
  | .mand l vd va vb mask ty => Sys2Proof.Machine.execMand l vd va vb mask ty s
  | .mor l vd va vb mask ty => Sys2Proof.Machine.execMor l vd va vb mask ty s
  | .mxor l vd va vb mask ty => Sys2Proof.Machine.execMxor l vd va vb mask ty s
  | .mandn l vd va vb mask ty => Sys2Proof.Machine.execMandn l vd va vb mask ty s
  | .mnot l vd va vb mask ty => Sys2Proof.Machine.execMnot l vd va vb mask ty s
  | .mpopc l vd va vb mask ty => Sys2Proof.Machine.execMpopc l vd va vb mask ty s
  | .mfirst l vd va vb mask ty => Sys2Proof.Machine.execMfirst l vd va vb mask ty s
  | .vbcast l vd va vb mask ty => Sys2Proof.Machine.execVbcast l vd va vb mask ty s
  | .vext l vd va vb mask ty => Sys2Proof.Machine.execVext l vd va vb mask ty s
  | .vins l vd va vb mask ty => Sys2Proof.Machine.execVins l vd va vb mask ty s
  | .vcompress l vd va vb mask ty => Sys2Proof.Machine.execVcompress l vd va vb mask ty s
  | .vredsum l vd va vb mask ty => Sys2Proof.Machine.execVredsum l vd va vb mask ty s
  | .vredmin l vd va vb mask ty => Sys2Proof.Machine.execVredmin l vd va vb mask ty s
  | .vredmax l vd va vb mask ty => Sys2Proof.Machine.execVredmax l vd va vb mask ty s
  | .vfredsum l vd va vb mask ty => Sys2Proof.Machine.execVfredsum l vd va vb mask ty s
  | .vcvt l vd va srcTy mask ty part => Sys2Proof.Machine.execVcvt l vd va srcTy mask ty part s
  | .vhist l ra rb rc ty events => Sys2Proof.Machine.execVhist l ra rb rc ty events s
  | .vscan l ra rb rc ty events => Sys2Proof.Machine.execVscan l ra rb rc ty events s
  | .vfill l ra rb rc ty intr => Sys2Proof.Machine.execVfill l ra rb rc ty intr s
  | .bsrch l ra rb rc ty events => Sys2Proof.Machine.execBsrch l ra rb rc ty events s
  | .doubleFaultService l => Sys2Proof.Machine.execDoubleFaultService l s
  | .pmcWrap fc counter => Sys2Proof.Machine.execPmcWrap fc counter s
  | .pmcWrapInterrupt fc => Sys2Proof.Machine.execPmcWrapInterrupt fc s
  | .kill ctx => Sys2Proof.Machine.execKill ctx s
  | .reservationTimeout l => Sys2Proof.Machine.execReservationTimeout l s
  | .storeBufferDrain fc => Sys2Proof.Machine.execStoreBufferDrain fc s
  | .startHandleTake fc engine => Sys2Proof.Machine.execStartHandleTake fc engine s
  | .engineCommandComplete fc engine => Sys2Proof.Machine.execEngineCommandComplete fc engine s
  | .doneHandlePut fc engine => Sys2Proof.Machine.execDoneHandlePut fc engine s
  | .stream fc ecc => Sys2Proof.Machine.execStream fc ecc s
  | .a2a fc ecc => Sys2Proof.Machine.execA2a fc ecc s
  | .bcast fc ecc => Sys2Proof.Machine.execBcast fc ecc s
  | .pelotonMemberComplete fc => Sys2Proof.Machine.execPelotonMemberComplete fc s
  | .layoutCopy fc ecc => Sys2Proof.Machine.execLayoutCopy fc ecc s
  | .gather fc ecc => Sys2Proof.Machine.execGather fc ecc s
  | .bag fc ecc => Sys2Proof.Machine.execBag fc ecc s
  | .hash fc ecc => Sys2Proof.Machine.execHash fc ecc s
  | .hjuClear fc ecc => Sys2Proof.Machine.execHjuClear fc ecc s
  | .build fc ecc => Sys2Proof.Machine.execBuild fc ecc s
  | .probe fc ecc => Sys2Proof.Machine.execProbe fc ecc s
  | .partition fc ecc => Sys2Proof.Machine.execPartition fc ecc s
  | .scatter fc ecc => Sys2Proof.Machine.execScatter fc ecc s
  | .select fc ecc => Sys2Proof.Machine.execSelect fc ecc s
  | .gemm fc ecc => Sys2Proof.Machine.execGemm fc ecc s
  | .voxelise fc ecc => Sys2Proof.Machine.execVoxelise fc ecc s
  | .rules fc ecc => Sys2Proof.Machine.execRules fc ecc s
  | .conv fc ecc => Sys2Proof.Machine.execConv fc ecc s
  | .bev fc ecc => Sys2Proof.Machine.execBev fc ecc s
  | .labels fc ecc => Sys2Proof.Machine.execLabels fc ecc s
  | .intakeWrite port window payload fullBe => Sys2Proof.Machine.execIntakeWrite port window payload fullBe s
  | .windowAtomicop port window => Sys2Proof.Machine.execWindowAtomicop port window s
  | .admitRequest ctx => Sys2Proof.Machine.execAdmitRequest ctx s
  | .cwbTimer port window => Sys2Proof.Machine.execCwbTimer port window s
  | .stagePlace => Sys2Proof.Machine.execStagePlace s
  | .stageComplete ctx stage => Sys2Proof.Machine.execStageComplete ctx stage s
  | .deadlineExpiry ctx => Sys2Proof.Machine.execDeadlineExpiry ctx s
  | .deliveryBegin ctx body => Sys2Proof.Machine.execDeliveryBegin ctx body s
  | .completionRecord port window => Sys2Proof.Machine.execCompletionRecord port window s
  | .irqDelayExpiry port window => Sys2Proof.Machine.execIrqDelayExpiry port window s
  | .windowReset port window => Sys2Proof.Machine.execWindowReset port window s
  | .ringConfigWrite port window reg value => Sys2Proof.Machine.execRingConfigWrite port window reg value s
  | .pcieReadCompletion port tag data error => Sys2Proof.Machine.execPcieReadCompletion port tag data error s
  | .pcieCompletionTimeout port tag => Sys2Proof.Machine.execPcieCompletionTimeout port tag s
  | .functionLevelReset port => Sys2Proof.Machine.execFunctionLevelReset port s
  | .perstAssert port => Sys2Proof.Machine.execPerstAssert port s
  | .perstRelease port => Sys2Proof.Machine.execPerstRelease port s
  | .pcieLinkDown port => Sys2Proof.Machine.execPcieLinkDown port s
  | .busMasterDisable port => Sys2Proof.Machine.execBusMasterDisable port s
  | .bar4Write port offset data => Sys2Proof.Machine.execBar4Write port offset data s
  | .bar4Read port offset len => Sys2Proof.Machine.execBar4Read port offset len s
  | .bar5Access port offset size op => Sys2Proof.Machine.execBar5Access port offset size op s
  | .registerWrite path offset size op => Sys2Proof.Machine.execRegisterWrite path offset size op s
  | .quiesce value => Sys2Proof.Machine.execQuiesce value s
  | .resume value => Sys2Proof.Machine.execResume value s
  | .drainTimeoutExpiry => Sys2Proof.Machine.execDrainTimeoutExpiry s
  | .verify => Sys2Proof.Machine.execVerify s
  | .verifyDone => Sys2Proof.Machine.execVerifyDone s
  | .stageRegWrite len value => Sys2Proof.Machine.execStageRegWrite len value s
  | .slotCommit slot => Sys2Proof.Machine.execSlotCommit slot s
  | .slotClear slot => Sys2Proof.Machine.execSlotClear slot s
  | .lockReq => Sys2Proof.Machine.execLockReq s
  | .unlock => Sys2Proof.Machine.execUnlock s
  | .smsgMessage m => Sys2Proof.Machine.execSmsgMessage m s
  | .smsgDeliver fc => Sys2Proof.Machine.execSmsgDeliver fc s
  | .poolIdleOff fc => Sys2Proof.Machine.execPoolIdleOff fc s
  | .arbGrant home n => Sys2Proof.Machine.execArbGrant home n s
  | .tableRegWrite table reg value => Sys2Proof.Machine.execTableRegWrite table reg value s
  | .sliceRd m ecc => Sys2Proof.Machine.execSliceRd m ecc s
  | .sliceData m => Sys2Proof.Machine.execSliceData m s
  | .measEpochEnd => Sys2Proof.Machine.execMeasEpochEnd s
  | .migrationCommit => Sys2Proof.Machine.execMigrationCommit s
  | .vocLoad slot => Sys2Proof.Machine.execVocLoad slot s
  | .vocLoadDone slot => Sys2Proof.Machine.execVocLoadDone slot s
  | .vocClear slot => Sys2Proof.Machine.execVocClear slot s
  | .textJobStart => Sys2Proof.Machine.execTextJobStart s
  | .tokenise lane ecc => Sys2Proof.Machine.execTokenise lane ecc s
  | .detokenise lane ecc => Sys2Proof.Machine.execDetokenise lane ecc s
  | .decodeShape ctx stage ecc => Sys2Proof.Machine.execDecodeShape ctx stage ecc s
  | .decodeUnitStart => Sys2Proof.Machine.execDecodeUnitStart s
  | .sampleEmerge ctx stage sample => Sys2Proof.Machine.execSampleEmerge ctx stage sample s
  | .codewordSend turn => Sys2Proof.Machine.execCodewordSend turn s
  | .codewordReceive link cw => Sys2Proof.Machine.execCodewordReceive link cw s
  | .replayTimeout link => Sys2Proof.Machine.execReplayTimeout link s
  | .lossOfLock link => Sys2Proof.Machine.execLossOfLock link s
  | .signalDetect link => Sys2Proof.Machine.execSignalDetect link s
  | .laneFrame link lane frame => Sys2Proof.Machine.execLaneFrame link lane frame s
  | .trainingSet link set => Sys2Proof.Machine.execTrainingSet link set s
  | .pollTimeout link => Sys2Proof.Machine.execPollTimeout link s
  | .eqTimeout link => Sys2Proof.Machine.execEqTimeout link s
  | .configTimeout link => Sys2Proof.Machine.execConfigTimeout link s
  | .retrainTimeout link => Sys2Proof.Machine.execRetrainTimeout link s
  | .linkTest link => Sys2Proof.Machine.execLinkTest link s
  | .linkTestDone link => Sys2Proof.Machine.execLinkTestDone link s
  | .linkRetrain link => Sys2Proof.Machine.execLinkRetrain link s
  | .linkDisable link => Sys2Proof.Machine.execLinkDisable link s
  | .linkEnable link => Sys2Proof.Machine.execLinkEnable link s
  | .waypointReinject m => Sys2Proof.Machine.execWaypointReinject m s
  | .rd m => Sys2Proof.Machine.execRd m s
  | .wr m => Sys2Proof.Machine.execWr m s
  | .rsvRd m => Sys2Proof.Machine.execRsvRd m s
  | .stc m => Sys2Proof.Machine.execStc m s
  | .pfhMessage m => Sys2Proof.Machine.execPfhMessage m s
  | .rdData m => Sys2Proof.Machine.execRdData m s
  | .wrAck m => Sys2Proof.Machine.execWrAck m s
  | .rsvResult m => Sys2Proof.Machine.execRsvResult m s
  | .smAck m => Sys2Proof.Machine.execSmAck m s
  | .refuse m => Sys2Proof.Machine.execRefuse m s
  | .remoteTimeout fc txn => Sys2Proof.Machine.execRemoteTimeout fc txn s
  | .contrib m => Sys2Proof.Machine.execContrib m s
  | .hist m => Sys2Proof.Machine.execHist m s
  | .join m => Sys2Proof.Machine.execJoin m s
  | .result m => Sys2Proof.Machine.execResult m s
  | .a2aCount m => Sys2Proof.Machine.execA2aCount m s
  | .a2aOffset m => Sys2Proof.Machine.execA2aOffset m s
  | .bulkWr m => Sys2Proof.Machine.execBulkWr m s
  | .bcastData m => Sys2Proof.Machine.execBcastData m s
  | .mregRd m => Sys2Proof.Machine.execMregRd m s
  | .mregWr m => Sys2Proof.Machine.execMregWr m s
  | .mregData m => Sys2Proof.Machine.execMregData m s
  | .epochReport link report => Sys2Proof.Machine.execEpochReport link report s
  | .epochFreeze plan => Sys2Proof.Machine.execEpochFreeze plan s
  | .drainQuiet => Sys2Proof.Machine.execDrainQuiet s
  | .epochDrained pkg => Sys2Proof.Machine.execEpochDrained pkg s
  | .epochCommit epoch tide => Sys2Proof.Machine.execEpochCommit epoch tide s
  | .epochResume => Sys2Proof.Machine.execEpochResume s
  | .collectExpiry => Sys2Proof.Machine.execCollectExpiry s
  | .freezeLimitExpiry pkg => Sys2Proof.Machine.execFreezeLimitExpiry pkg s
  | .coordinatorFailover => Sys2Proof.Machine.execCoordinatorFailover s
  | .netCmdEpoch => Sys2Proof.Machine.execNetCmdEpoch s
  | .pwrReqRun domain => Sys2Proof.Machine.execPwrReqRun domain s
  | .pwrReqFreewheel domain => Sys2Proof.Machine.execPwrReqFreewheel domain s
  | .pwrReqOff domain => Sys2Proof.Machine.execPwrReqOff domain s
  | .powerTransitionBegin domain => Sys2Proof.Machine.execPowerTransitionBegin domain s
  | .powerTransitionDone domain => Sys2Proof.Machine.execPowerTransitionDone domain s
  | .selftestDone fc pass => Sys2Proof.Machine.execSelftestDone fc pass s
  | .fwIdleExpiry fc => Sys2Proof.Machine.execFwIdleExpiry fc s
  | .offIdleExpiry fc => Sys2Proof.Machine.execOffIdleExpiry fc s
  | .freqChangeDone fc => Sys2Proof.Machine.execFreqChangeDone fc s
  | .thermalSample temps => Sys2Proof.Machine.execThermalSample temps s
  | .powerCapSample watts => Sys2Proof.Machine.execPowerCapSample watts s
  | .thermtrip sensor => Sys2Proof.Machine.execThermtrip sensor s
  | .sensorSampleTemp temps => Sys2Proof.Machine.execSensorSampleTemp temps s
  | .sensorSampleRail volts currents => Sys2Proof.Machine.execSensorSampleRail volts currents s
  | .railPoll readings => Sys2Proof.Machine.execRailPoll readings s
  | .railFault rail statusWord => Sys2Proof.Machine.execRailFault rail statusWord s
  | .logCopy => Sys2Proof.Machine.execLogCopy s
  | .logRd seq => Sys2Proof.Machine.execLogRd seq s
  | .logRdDone => Sys2Proof.Machine.execLogRdDone s
  | .mcStart => Sys2Proof.Machine.execMcStart s
  | .mgmtRegRead offset payload => Sys2Proof.Machine.execMgmtRegRead offset payload s
  | .mgmtRegWrite offset payload => Sys2Proof.Machine.execMgmtRegWrite offset payload s
  | .mgmtHbmWrite offset payload => Sys2Proof.Machine.execMgmtHbmWrite offset payload s
  | .i3cSummaryRead count => Sys2Proof.Machine.execI3cSummaryRead count s
  | .i3cSetPointer pointer => Sys2Proof.Machine.execI3cSetPointer pointer s
  | .i3cThrottle => Sys2Proof.Machine.execI3cThrottle s
  | .i3cMcRestart => Sys2Proof.Machine.execI3cMcRestart s
  | .smbusBlockRead => Sys2Proof.Machine.execSmbusBlockRead s
  | .jtagInstruction instruction => Sys2Proof.Machine.execJtagInstruction instruction s
  | .fwInstall => Sys2Proof.Machine.execFwInstall s
  | .fwInstallDone => Sys2Proof.Machine.execFwInstallDone s
  | .fwActivate => Sys2Proof.Machine.execFwActivate s
  | .fwCommit => Sys2Proof.Machine.execFwCommit s
  | .fwRevert => Sys2Proof.Machine.execFwRevert s
  | .cfgApply => Sys2Proof.Machine.execCfgApply s
  | .cfgApplyDone nonce => Sys2Proof.Machine.execCfgApplyDone nonce s
  | .porRise bringupN => Sys2Proof.Machine.execPorRise bringupN s
  | .porFall => Sys2Proof.Machine.execPorFall s
  | .railPowerGood rail => Sys2Proof.Machine.execRailPowerGood rail s
  | .railEnableTimeout rail => Sys2Proof.Machine.execRailEnableTimeout rail s
  | .hbmTrainingDone => Sys2Proof.Machine.execHbmTrainingDone s
  | .hbmZeroFillDone => Sys2Proof.Machine.execHbmZeroFillDone s
  | .warmRestart => Sys2Proof.Machine.execWarmRestart s
  | .refclk25Loss => Sys2Proof.Machine.execRefclk25Loss s
  | .sparlineRefclkLoss clockB => Sys2Proof.Machine.execSparlineRefclkLoss clockB s
  | .stalledDescriptorDeadline port window => Sys2Proof.Machine.execStalledDescriptorDeadline port window s
  | .slotCommitDone => Sys2Proof.Machine.execSlotCommitDone s
  | .illegalWord l word => Sys2Proof.Machine.execIllegalWord l word s
  | .msixVectorUnmask port vector addr data => Sys2Proof.Machine.execMsixVectorUnmask port vector addr data s
  | .pcieLinkUp port rate mode => Sys2Proof.Machine.execPcieLinkUp port rate mode s
  | .mgmtSessionOpen keySlot authentic reason => Sys2Proof.Machine.execMgmtSessionOpen keySlot authentic reason s
  | .mcWatchdog => Sys2Proof.Machine.execMcWatchdog s
  | .fwCommitDone => Sys2Proof.Machine.execFwCommitDone s
  | .aonIoSupplyLoss => Sys2Proof.Machine.execAonIoSupplyLoss s

end Sys2Proof.Machine
end

