-- ==== Sys2Proof/Safety.lean ====
section
/-! DEFINITION. What holds of a package in every state that a run reaches, and what a command does, in the terms that the
statements use. -/

namespace Sys2Proof.Machine

/-! Invariants. -/

/-- The areas of the Recipe Store in the order of the slots, the staging area last (R58). -/
def Rcp.areas (r : Rcp) : List Nat := [r.area0, r.area1, r.area2, r.area3, r.stageArea]

/-- Each Recipe Slot owns one of the five areas and the fifth is the staging area (R58). -/
def Rcp.areasOk (r : Rcp) : Prop := r.areas.Nodup ∧ ∀ a ∈ r.areas, a < 5

/-- The state keeps the canonical form of memory. -/
def State.memOk (s : State) : Prop := Mem.wf s.chip.mem = true

/-- Every slot's area is its own, and one more is the staging area. -/
def State.areasOk (s : State) : Prop := s.chip.rcp.areasOk

/-- A step from a safe state goes on to a safe state. -/
def Keeps (inv : State → Prop) : Prop := ∀ s t, inv s → step s = .next t → inv t

/-! What a command does. -/

/-- The command answers a next state with the queue as it was, and the package is then as described. -/
def Completes (s : State) (i : Instr) (post : Chip → Prop) : Prop :=
  ∃ t, exec i s = .next t ∧ t.pending = s.pending ∧ post t.chip

/-- A slot issues an instruction: it holds a task, has not stopped, waits for no answer, its core runs, and the word at its pc can be
fetched (R62, R69, R107, R502). -/
def Chip.Issues (c : Chip) (l : Loc) : Prop :=
  (c.slot l).task.isSome = true ∧ (c.slot l).stopped = false ∧ (c.slot l).pend = none ∧ c.fcRuns l.fc.toNat = true ∧
    c.fetchable (c.slot l).pc = true

/-- A core with the performance counters of another. -/
def Core.perfOf (k j : Core) : Core := { k with pmc := j.pmc, pmwrap := j.pmwrap, pmPending := j.pmPending }

/-- A slot has become as given, at pc and with no stall; every other slot is as it was, and of its core nothing else has changed
but the performance counters, which count the retirement (R248); nothing outside the cores has changed. -/
structure Retired (c d : Chip) (l : Loc) (x : Slot) (pc : Word) : Prop where
  slot : d.slot l = { x with pc := pc, wait := none }
  others : ∀ m, m ≠ l → d.slot m = c.slot m
  cores : ∀ n, { (d.core n).perfOf (c.core n) with slots := (c.core n).slots } = c.core n
  rest : { d with cores := c.cores } = c

/-- An instruction of a slot completes: the slot is as given and goes on at pc. -/
def Retires (s : State) (i : Instr) (l : Loc) (x : Slot) (pc : Word) : Prop :=
  Completes s i (fun d => Retired s.chip d l x pc)

/-- The pc after the instruction. -/
def Chip.nextPc (c : Chip) (l : Loc) : Word := (c.slot l).pc + 4

/-- The instructions that read and write registers of their slot alone: scalar arithmetic, branches and jumps, MFS and vector computation. -/
def Instr.registerOnly : Instr → Option Loc
  | .add l .. | .sub l .. | .and l .. | .or l .. | .xor l .. | .sll l .. | .srl l .. | .sra l ..
  | .slt l .. | .sltu l .. | .mul l .. | .mulh l .. | .mulhu l .. | .div l .. | .divu l .. | .rem l ..
  | .remu l .. | .min l .. | .max l .. | .minu l .. | .maxu l .. | .clz l .. | .ctz l .. | .popc l ..
  | .addi l .. | .andi l .. | .ori l .. | .xori l .. | .slti l .. | .sltiu l .. | .shi l .. | .lui l ..
  | .lis l .. | .beq l .. | .bne l .. | .blt l .. | .bge l .. | .bltu l .. | .bgeu l .. | .jal l ..
  | .jalr l .. | .mfs l .. | .vadd l .. | .vsub l .. | .vmul l .. | .vmulh l .. | .vmin l .. | .vmax l ..
  | .vand l .. | .vor l .. | .vxor l .. | .vsll l .. | .vsrl l .. | .vsra l .. | .vadds l .. | .vsubs l ..
  | .vabsd l .. | .vsel l .. | .vfadd l .. | .vfsub l .. | .vfmul l .. | .vfdiv l .. | .vfmin l .. | .vfmax l ..
  | .vfma l .. | .vfsqrt l .. | .vflog1p l .. | .vfabs l .. | .vfneg l .. | .vfclamp l .. | .vcmpEq l .. | .vcmpNe l ..
  | .vcmpLt l .. | .vcmpLe l .. | .vcmpGt l .. | .vcmpGe l .. | .mand l .. | .mor l .. | .mxor l .. | .mandn l ..
  | .mnot l .. | .mpopc l .. | .mfirst l .. | .vbcast l .. | .vext l .. | .vins l .. | .vcompress l .. | .vredsum l ..
  | .vredmin l .. | .vredmax l .. | .vfredsum l .. | .vcvt l .. => some l
  | _ => none

/-- The scalar loads. -/
def Instr.scalarLoad : Instr → Option Loc
  | .lb l .. | .lbu l .. | .lh l .. | .lhu l .. | .lw l .. | .lwu l .. | .ld l .. => some l
  | _ => none

/-! Exceptions. -/

/-- The handler's address: XVEC without its low two bits (Table 2 of the exceptions chapter). -/
def Slot.handler (x : Slot) : Word := x.xvec &&& ~~~(3 : Word)

/-- What the checks of R161, R165 and R166 ask before a handler is entered. -/
def Chip.Enterable (c : Chip) (l : Loc) : Prop :=
  (c.slot l).handler ≠ 0 ∧ c.frameOk l.fc.toNat ((c.slot l).xsp - 128) = true ∧ depthOf (c.slot l).xstatus < 15 ∧
    c.fetchable (c.slot l).handler = true

/-- The sixteen values of a frame in the order of Table 6. -/
def Slot.frame (x : Slot) (cause epc addr : Word) : List Word :=
  [epc, cause, addr, x.xstatus, x.fpflags, x.swpShift, x.bsrchBase, x.bsrchEdges, x.xr 1, x.xr 2, x.xr 3, x.xr 4, x.xr 5, x.xr 6,
    x.xr 7, x.xr 8]

/-- A handler has been entered as R161 says: XCAUSE, XEPC, XADDR, XSP, DEPTH, IE and pc are set, the reservation is gone, and sixteen stores of
the frame follow the core's other stores into the store buffer of 16 entries; while some of them find it full the slot waits, counting
STORE_DRAIN (R130, R131, R165). Every other register of the slot, every other slot, every byte of memory and all else is as it was. -/
structure Entered (c d : Chip) (l : Loc) (xc xe xa : Word) : Prop where
  cause : (d.slot l).xcause = xc
  epc : (d.slot l).xepc = xe
  addr : (d.slot l).xaddr = xa
  xsp : (d.slot l).xsp = (c.slot l).xsp - 128
  depth : depthOf (d.slot l).xstatus = depthOf (c.slot l).xstatus + 1
  ie : bit (d.slot l).xstatus 0 = false
  status : ∀ i, i ≠ 0 → i < 8 ∨ 12 ≤ i → bit (d.slot l).xstatus i = bit (c.slot l).xstatus i
  pc : (d.slot l).pc = (c.slot l).handler
  rsv : (d.slot l).rsv = none
  slot : { d.slot l with xcause := (c.slot l).xcause, xepc := (c.slot l).xepc, xaddr := (c.slot l).xaddr, xsp := (c.slot l).xsp,
                         xstatus := (c.slot l).xstatus, pc := (c.slot l).pc, rsv := (c.slot l).rsv, wait := (c.slot l).wait,
                         pend := (c.slot l).pend, swGot := (c.slot l).swGot } = c.slot l
  room : (d.core l.fc.toNat).storeBuf.length ≤ 16 ∧ ((d.core l.fc.toNat).frameQ ≠ [] → (d.core l.fc.toNat).storeBuf.length = 16)
  goes : (d.core l.fc.toNat).frameQ = [] → (d.slot l).pend = (c.slot l).pend ∧ (d.slot l).wait = none
  waits : (d.core l.fc.toNat).frameQ ≠ [] → (d.slot l).pend ≠ none ∧ (d.slot l).wait = some .storeDrain
  frame : (d.core l.fc.toNat).storeBuf ++ (d.core l.fc.toNat).frameQ = (c.core l.fc.toNat).storeBuf ++ (c.core l.fc.toNat).frameQ ++
    ((c.slot l).frame xc xe xa).zipIdx.map (fun p =>
      { slot := l.slot.toNat, addr := (c.slot l).xsp - 128 + BitVec.ofNat 64 (8 * p.2), size := 8, data := p.1, strict := false,
        sent := false, trk := 0, ctx := (c.slot l).ctxNum })
  others : ∀ m, m ≠ l → d.slot m = c.slot m
  cores : ∀ n, { (d.core n).perfOf (c.core n) with slots := (c.core n).slots, storeBuf := (c.core n).storeBuf, frameQ := (c.core n).frameQ } = c.core n
  rest : { d with cores := c.cores } = c

/-- The status of Table 5 of the exceptions chapter for a cause. -/
def tableFive (cause : Word) : Nat := if bits cause 7 0 = 2 ∨ bits cause 7 0 = 3 then 0x10 else 0x14

/-- An exception has ended the Request of a slot that has no handler (R160): the slot has stopped, the Request completes with the
status of Table 5, SOURCE = FC number and CAUSE = XCAUSE[23:0], its completion waits at its window, and memory is as it was. -/
structure EndedBy (c d : Chip) (l : Loc) (n : Nat) (x : Ctx) (cause : Word) : Prop where
  stopped : (d.slot l).stopped = true
  status : d.ctx n = some { x with ended := some (BitVec.ofNat 8 (tableFive cause),
    BitVec.ofNat 32 (l.fc.toNat * 2 ^ 24 + bits cause 23 0)) }
  completion : (d.window x.port x.window).cplQ = (c.window x.port x.window).cplQ ++ [.request n]
  others : ∀ m, m ≠ l → d.slot m = c.slot m
  mem : d.mem = c.mem

/-! Engines. -/

/-- The command that an engine works on: its start handle is taken, its core runs, and its OPCODE is as given (R204 to R206). -/
def Chip.WorksOn (c : Chip) (fc e : Nat) (opcode : Option Nat) (x : EngCmd) : Prop :=
  ((c.core fc).engine e).current = some x ∧ (x.startEn && x.phase = .queued) = false ∧ c.fcRuns fc = true ∧
    ∀ n, opcode = some n → x.field 0 1 = n

/-- The writes of a command that go to other packages and are not out yet. -/
def EngOut.far (out : EngOut) (x : EngCmd) : List Wr := (out.writes.filter (fun w => w.isRemote)).drop x.prog

/-- The writes of a command to this package and to the far side of a port. -/
def EngOut.near (out : EngOut) : List Wr := out.writes.filter (fun w => !w.isRemote)

/-- The package with a command's reads of it counted and every write performed or sent. -/
def Chip.written (c : Chip) (fc e : Nat) (x : EngCmd) (out : EngOut) (reads : List Nat) : Chip :=
  ((c.heres fc (.engine e) false (c.emptyAt fc e x 0) reads).doWrites fc e x 0 (out.far x)).doWrites fc e x (writtenBytes (out.far x)) out.near

/-- Trackers are free for every write of a command to another package, and one more for its writes to this package beyond the core's own Pool
(R219). -/
abbrev Chip.Fits (c : Chip) (fc e : Nat) (x : EngCmd) (out : EngOut) : Prop :=
  (out.far x).length + (if out.writes.any (fun w => w.beyond fc) then 1 else 0) ≤ c.engineRoom fc e x

/-- An engine has finished the work of a command: the command waits for its writes to be performed, what was answered to it is let go, and
nothing else of the package has changed. While writes are unanswered and the engine has no other command to work on, it waits on them,
counting LATE_REMOTE (R246). -/
structure Worked (c d : Chip) (fc e : Nat) (x : EngCmd) : Prop where
  engine : (d.core fc).engine e = { (c.core fc).engine e with
    queue := putCmd ((c.core fc).engine e).queue { x with phase := .worked, start := [], seen := none }, got := [], asked := [],
    wait := ((d.core fc).engine e).wait }
  wait : ((d.core fc).engine e).wait =
    if (c.core fc).engineOutstanding e = true ∧ ((d.core fc).engine e).inWork = none then some .lateRemote else none
  engines : ∀ g, g ≠ e → (d.core fc).engine g = (c.core fc).engine g
  cores : ∀ n, { (d.core n).perfOf (c.core n) with engines := (c.core n).engines } = c.core n
  others : ∀ n, n ≠ fc → d.core n = c.core n
  rest : { d with cores := c.cores } = c

/-- An address outside every write of a command to this package. -/
def EngOut.leaves (out : EngOut) (a : Nat) : Prop := ∀ o data, Wr.here o data ∈ out.writes → a < o ∨ o + data.length ≤ a

/-- n bytes at a Global Address lie in one 64-byte line of this package, at an offset, and can be reached now (R117, R119, R504). -/
def Chip.LineAt (c : Chip) (fc : Nat) (a : Word) (n : Nat) (write : Bool) (o : Nat) : Prop :=
  ∃ t, c.access (some fc) a n write = some t ∧ t.ty ≠ 2 ∧ t.pkg = none ∧ c.homeWait t = none ∧ t.off = o ∧ a.toNat % 64 + n ≤ 64 ∧
    o + n ≤ basinBase

/-! Messages. -/

/-- A message that reaches a powered package that it is for, and not as a waypoint (R469, R599). -/
def Chip.Receives (c : Chip) (m : Msg) : Prop := c.hubOn = true ∧ m.dest.toNat = c.self ∧ c.atWaypoint m = false

/-- n bytes from an offset of this package lie in Recipe-use HBM whose home is powered (R116, R504). -/
def Chip.HomeAt (c : Chip) (o n : Nat) : Prop :=
  1 ≤ n ∧ o + n ≤ storeBase ∧ c.homeWait { pkg := none, off := o, row := .hbm, ty := 0, wp := false } = none

end Sys2Proof.Machine
end

