-- ==== Sys2Proof/Certificates/Slice0/Obligations.lean ====
section
/-! DEFINITION. The statements about the model: what each command does, what a step keeps, and what reset leaves. -/

open Sys2Proof Sys2Proof.Machine

/-! The block itself. -/

/-- A step takes the command at the front of the queue and is that command's effect on the state with the queue's rest. -/
def Obligations.StepRunsFrontCommand : Prop :=
  ∀ (s : State) (i : Instr) (rest : List Instr), s.pending = i :: rest → step s = exec i { s with pending := rest }

/-- On an empty queue one nanosecond passes (the model's choice, logs 2 and 48): Tide counts it while the always-on domain runs, the queue stays empty,
and nothing is written, driven out, admitted or ended. -/
def Obligations.EmptyQueueLetsTidePass : Prop :=
  ∀ s : State, s.pending = [] →
    ∃ t, step s = .next t ∧ t.pending = [] ∧ t.chip.tide = (if s.chip.aon = true then s.chip.tide + 1 else s.chip.tide) ∧
      t.chip.mem = s.chip.mem ∧ t.chip.out = s.chip.out ∧ t.chip.rcp = s.chip.rcp ∧ t.chip.net = s.chip.net ∧
      t.chip.mc = s.chip.mc ∧ t.chip.rst = s.chip.rst ∧ t.chip.emb = s.chip.emb ∧ t.chip.req.ctxs = s.chip.req.ctxs

/-- A command that the package takes leaves the queue as it is. Every well-formed command answers a next state in every state; a command that names a unit
that the package does not have (log 4) faults as noSuchUnit, and no command is refused. -/
def Obligations.WellFormedCommandsComplete : Prop :=
  (∀ (s t : State) (i : Instr), exec i s = .next t → t.pending = s.pending) ∧
  (∀ (s : State) (i : Instr), (i.wf = true → ∃ t, exec i s = .next t) ∧ (i.wf = false → exec i s = .fault .noSuchUnit))

/-! Scalar and vector instructions, exceptions. -/

/-- The R-format operations of Table 5 of the instruction set, each on 64-bit values: rd takes the result, x0 discards it, pc goes on by 4 and nothing
else changes. -/
def Obligations.ScalarRegisterOperations : Prop :=
  ∀ (s : State) (l : Loc) (rd ra rb : Reg), s.chip.Issues l →
    let x := s.chip.slot l
    let a := x.xr ra
    let b := x.xr rb
    let n := s.chip.nextPc l
    Retires s (.add l rd ra rb) l (x.setX rd (a + b)) n ∧
    Retires s (.sub l rd ra rb) l (x.setX rd (a - b)) n ∧
    Retires s (.and l rd ra rb) l (x.setX rd (a &&& b)) n ∧
    Retires s (.or l rd ra rb) l (x.setX rd (a ||| b)) n ∧
    Retires s (.xor l rd ra rb) l (x.setX rd (a ^^^ b)) n ∧
    Retires s (.sll l rd ra rb) l (x.setX rd (a <<< (b.toNat % 64))) n ∧
    Retires s (.srl l rd ra rb) l (x.setX rd (a >>> (b.toNat % 64))) n ∧
    Retires s (.sra l rd ra rb) l (x.setX rd (a.sshiftRight (b.toNat % 64))) n ∧
    Retires s (.slt l rd ra rb) l (x.setX rd (if a.toInt < b.toInt then 1 else 0)) n ∧
    Retires s (.sltu l rd ra rb) l (x.setX rd (if a.toNat < b.toNat then 1 else 0)) n ∧
    Retires s (.min l rd ra rb) l (x.setX rd (if a.toInt ≤ b.toInt then a else b)) n ∧
    Retires s (.max l rd ra rb) l (x.setX rd (if a.toInt ≤ b.toInt then b else a)) n ∧
    Retires s (.minu l rd ra rb) l (x.setX rd (if a.toNat ≤ b.toNat then a else b)) n ∧
    Retires s (.maxu l rd ra rb) l (x.setX rd (if a.toNat ≤ b.toNat then b else a)) n

/-- The products, quotients and remainders of Table 5, with its cases of divisor 0 and of the most negative number by −1. CLZ, CTZ and POPC count the
leading zeros, the trailing zeros and the set bits of ra. -/
def Obligations.MultiplyDivideAndBitCounts : Prop :=
  (∀ (s : State) (l : Loc) (rd ra rb : Reg), s.chip.Issues l →
     let x := s.chip.slot l
     let a := x.xr ra
     let b := x.xr rb
     let n := s.chip.nextPc l
     Retires s (.mul l rd ra rb) l (x.setX rd (BitVec.ofNat 64 (a.toNat * b.toNat))) n ∧
     Retires s (.mulh l rd ra rb) l (x.setX rd (BitVec.ofInt 64 (a.toInt * b.toInt / 2 ^ 64))) n ∧
     Retires s (.mulhu l rd ra rb) l (x.setX rd (BitVec.ofNat 64 (a.toNat * b.toNat / 2 ^ 64))) n ∧
     Retires s (.div l rd ra rb) l
       (x.setX rd (if b = 0 then BitVec.allOnes 64 else BitVec.ofInt 64 (a.toInt.tdiv b.toInt))) n ∧
     Retires s (.divu l rd ra rb) l
       (x.setX rd (if b = 0 then BitVec.allOnes 64 else BitVec.ofNat 64 (a.toNat / b.toNat))) n ∧
     Retires s (.rem l rd ra rb) l (x.setX rd (if b = 0 then a else BitVec.ofInt 64 (a.toInt.tmod b.toInt))) n ∧
     Retires s (.remu l rd ra rb) l (x.setX rd (if b = 0 then a else BitVec.ofNat 64 (a.toNat % b.toNat))) n) ∧
  (∀ (s : State) (l : Loc) (rd ra rb : Reg), s.chip.Issues l →
     let x := s.chip.slot l
     let a := x.xr ra
     (∃ k : Nat, k ≤ 64 ∧ (∀ i, 64 - k ≤ i → a.getLsbD i = false) ∧ (k < 64 → a.getLsbD (63 - k) = true) ∧
       Retires s (.clz l rd ra rb) l (x.setX rd (BitVec.ofNat 64 k)) (s.chip.nextPc l)) ∧
     (∃ k : Nat, k ≤ 64 ∧ (∀ i, i < k → a.getLsbD i = false) ∧ (k < 64 → a.getLsbD k = true) ∧
       Retires s (.ctz l rd ra rb) l (x.setX rd (BitVec.ofNat 64 k)) (s.chip.nextPc l)) ∧
     Retires s (.popc l rd ra rb) l
       (x.setX rd (BitVec.ofNat 64 ((List.range 64).filter (fun i => a.getLsbD i)).length)) (s.chip.nextPc l))

/-- The I-format arithmetic of R78; SHI with code 3 raises ILLEGAL with the instruction word. -/
def Obligations.ScalarImmediateOperations : Prop :=
  ∀ (s : State) (l : Loc) (rd ra : Reg) (imm : BitVec 16), s.chip.Issues l →
    let x := s.chip.slot l
    let a := x.xr ra
    let se : Word := imm.signExtend 64
    let ze : Word := imm.zeroExtend 64
    let n := s.chip.nextPc l
    Retires s (.addi l rd ra imm) l (x.setX rd (a + se)) n ∧
    Retires s (.andi l rd ra imm) l (x.setX rd (a &&& ze)) n ∧
    Retires s (.ori l rd ra imm) l (x.setX rd (a ||| ze)) n ∧
    Retires s (.xori l rd ra imm) l (x.setX rd (a ^^^ ze)) n ∧
    Retires s (.slti l rd ra imm) l (x.setX rd (if a.toInt < se.toInt then 1 else 0)) n ∧
    Retires s (.sltiu l rd ra imm) l (x.setX rd (if a.toNat < se.toNat then 1 else 0)) n ∧
    Retires s (.lui l rd imm) l (x.setX rd (se <<< 16)) n ∧
    Retires s (.lis l rd ra imm) l (x.setX rd ((a <<< 16) ||| ze)) n ∧
    (imm.toNat / 2 ^ 14 = 0 → Retires s (.shi l rd ra imm) l (x.setX rd (a <<< (imm.toNat % 64))) n) ∧
    (imm.toNat / 2 ^ 14 = 1 → Retires s (.shi l rd ra imm) l (x.setX rd (a >>> (imm.toNat % 64))) n) ∧
    (imm.toNat / 2 ^ 14 = 2 → Retires s (.shi l rd ra imm) l (x.setX rd (a.sshiftRight (imm.toNat % 64))) n) ∧
    (imm.toNat / 2 ^ 14 = 3 →
      Completes s (.shi l rd ra imm) (fun d => d = s.chip.exc l 1 x.pc
        (BitVec.ofNat 64 (0x08 * 2 ^ 26 + rd.toNat * 2 ^ 21 + ra.toNat * 2 ^ 16 + imm.toNat))))

/-- x0 reads 0 and m0 reads all ones, and writes to them are discarded; every other register reads what was written to it last. -/
def Obligations.HardwiredRegisters : Prop :=
  ∀ (x : Slot) (r q : Reg) (m k : BitVec 3) (v : Word) (w : MReg),
    x.xr 0 = 0 ∧ x.setX 0 v = x ∧ x.mr 0 = BitVec.allOnes 128 ∧ x.setM 0 w = x ∧
    (r ≠ 0 → (x.setX r v).xr q = if q = r then v else x.xr q) ∧ (m ≠ 0 → (x.setM m w).mr k = if k = m then w else x.mr k)

/-- A scalar load of n bytes at ra + sext(IMM16) that finds its bytes in this package's memory: the address reaches a row of the package, no buffered
store of the slot overlaps it, its power domains are on, and no error is met. rd takes the little-endian value, extended by the mnemonic; a Pool that
was off wakes, and no byte of memory changes. -/
def Obligations.ScalarLoads : Prop :=
  ∀ (s : State) (l : Loc) (rd ra : Reg) (imm : BitVec 16), s.chip.Issues l →
    let c := s.chip
    let x := c.slot l
    let ea := effAddr (x.xr ra) (imm.signExtend 64)
    ∀ (n : Nat) (t : Target), n = 1 ∨ n = 2 ∨ n = 4 ∨ n = 8 → gaKind ea ≠ 2 → c.access (some l.fc.toNat) ea n false = some t →
      t.pkg = none → t.ty ≠ 2 → c.strictAt l.fc.toNat ea = false → (c.core l.fc.toNat).strictWaits l.slot.toNat = false →
      c.sbOverlap l.fc.toNat l.slot.toNat t.key n = [] → c.homeWait t = none → t.row ≠ .basin →
      (c.core l.fc.toNat).mayReach l.fc.toNat t.off = true →
      let v := leNat (c.bytes t.off n)
      let w := c.here l.fc.toNat (.slot l.slot.toNat) false none t.off
      let pc := c.nextPc l
      let done := fun (i : Instr) (r : Word) => Completes s i (fun d => Retired w d l (x.setX rd r) pc ∧ d.mem = c.mem)
      (n = 1 → done (.lb l rd ra imm false) (BitVec.signExtend 64 (BitVec.ofNat 8 v))) ∧
      (n = 1 → done (.lbu l rd ra imm false) (BitVec.ofNat 64 v)) ∧
      (n = 2 → done (.lh l rd ra imm false) (BitVec.signExtend 64 (BitVec.ofNat 16 v))) ∧
      (n = 2 → done (.lhu l rd ra imm false) (BitVec.ofNat 64 v)) ∧
      (n = 4 → done (.lw l rd ra imm false) (BitVec.signExtend 64 (BitVec.ofNat 32 v))) ∧
      (n = 4 → done (.lwu l rd ra imm false) (BitVec.ofNat 64 v)) ∧
      (n = 8 → done (.ld l rd ra imm false) (BitVec.ofNat 64 v))

/-- SB, SH, SW and SD retire with one entry at the end of the store buffer: the address ra + sext(IMM16), the width in bytes and the low bits of rs,
marked where the address is Device Strict; memory does not change until the entry drains. They stall with STORE_DRAIN where the buffer is full or an
earlier Device Strict access of the slot is not yet performed; an address that no store reaches raises MEM_FAULT, and one that is misaligned in a
Device Strict region ALIGN_FAULT, each with the address in XADDR. The oldest buffered store of a core is performed at its home on this package: its
bytes, and no other byte of memory, change, the Pool it lies in is on, and the entry leaves the buffer, which takes the next store of a frame that
waits for room. -/
def Obligations.StoresAndTheStoreBuffer : Prop :=
  (∀ (s : State) (l : Loc) (rs ra : Reg) (imm : BitVec 16), s.chip.Issues l →
     let c := s.chip
     let x := c.slot l
     let fc := l.fc.toNat
     let ea := effAddr (x.xr ra) (imm.signExtend 64)
     let k := c.core fc
     let row := fun (i : Instr) (n : Nat) =>
       (k.strictWaits l.slot.toNat = true → exec i s = .next { s with chip := c.stallSlot l .storeDrain }) ∧
       (k.strictWaits l.slot.toNat = false → c.strictAt fc ea = true → ea.toNat % n ≠ 0 →
         exec i s = .next { s with chip := c.exc l 2 x.pc ea }) ∧
       (k.strictWaits l.slot.toNat = false → (c.strictAt fc ea = false ∨ ea.toNat % n = 0) →
         (c.access (some fc) ea n true = none → exec i s = .next { s with chip := c.exc l 3 x.pc ea }) ∧
         (∀ t : Target, c.access (some fc) ea n true = some t →
           (16 ≤ k.storeBuf.length + k.frameQ.length → exec i s = .next { s with chip := c.stallSlot l .storeDrain }) ∧
           (k.storeBuf.length + k.frameQ.length < 16 → ∀ e : SbEntry,
             e = { slot := l.slot.toNat, addr := ea, size := n, data := BitVec.ofNat 64 ((x.xr rs).toNat % 2 ^ (8 * n)),
                   strict := decide (t.ty = 2), sent := false, trk := 0, ctx := x.ctxNum } →
             Completes s i (fun d =>
               Retired (c.setCore fc { k with storeBuf := k.storeBuf ++ [e] }) d l x (c.nextPc l) ∧ d.mem = c.mem))))
     row (.sb l rs ra imm) 1 ∧ row (.sh l rs ra imm) 2 ∧ row (.sw l rs ra imm) 4 ∧ row (.sd l rs ra imm) 8) ∧
  (∀ (s : State) (fc : BitVec 6) (e : SbEntry) (rest : List SbEntry) (t : Target),
     s.memOk → (s.chip.core fc.toNat).storeBuf = e :: rest →
     s.chip.access (some fc.toNat) e.addr e.size true = some t → t.pkg = none → t.off + e.size ≤ basinBase →
     s.chip.homeWait t = none → e.strict = false → (s.chip.core fc.toNat).mayReach fc.toNat t.off = true →
     Completes s (.storeBufferDrain fc) (fun d => (d.core fc.toNat).storeBuf = (rest ++ (s.chip.core fc.toNat).frameQ).take 16 ∧
       (∀ n, poolCore t.off = some n → (d.dom (2 * n + 1)).state ≠ .off) ∧
       (∀ i, i < e.size → Mem.read d.mem (t.off + i) = BitVec.ofNat 8 (e.data.toNat / 2 ^ (8 * i))) ∧
       (∀ a, a < t.off ∨ t.off + e.size ≤ a → Mem.read d.mem a = Mem.read s.chip.mem a)))

/-- Branches compare ra with rb and go to pc + 4·sext(OFF16) when their condition holds, else to pc + 4; a target that cannot be fetched raises MEM_FAULT
at the target. JAL and JALR set rd to pc + 4 and go to their target, ra being read before rd is written; a target that cannot be fetched raises
MEM_FAULT at the target, after the jump. -/
def Obligations.BranchesAndJumps : Prop :=
  (∀ (s : State) (l : Loc) (ra rb : Reg) (off : BitVec 16), s.chip.Issues l →
     let c := s.chip
     let x := c.slot l
     let a := x.xr ra
     let b := x.xr rb
     let dest := x.pc + 4 * off.signExtend 64
     let go := fun (i : Instr) (p : Prop) =>
       (p → c.fetchable dest = true → Retires s i l x dest) ∧
       (p → c.fetchable dest = false → ∃ d, Retired c d l x dest ∧
         exec i s = .next { s with chip := d.exc l (BitVec.ofNat 64 (2 ^ 20 + 3)) dest dest }) ∧
       (¬ p → Retires s i l x (x.pc + 4))
     go (.beq l ra rb off) (a = b) ∧ go (.bne l ra rb off) (a ≠ b) ∧ go (.blt l ra rb off) (a.toInt < b.toInt) ∧
     go (.bge l ra rb off) (b.toInt ≤ a.toInt) ∧ go (.bltu l ra rb off) (a.toNat < b.toNat) ∧
     go (.bgeu l ra rb off) (b.toNat ≤ a.toNat)) ∧
  (∀ (s : State) (l : Loc) (rd ra : Reg) (imm : BitVec 16) (off : BitVec 21), s.chip.Issues l →
     let c := s.chip
     let x := c.slot l
     let j := x.pc + 4 * off.signExtend 64
     let k := (x.xr ra + imm.signExtend 64) &&& ~~~(3 : Word)
     (c.fetchable j = true → Retires s (.jal l rd off) l (x.setX rd (x.pc + 4)) j) ∧
     (c.fetchable k = true → Retires s (.jalr l rd ra imm) l (x.setX rd (x.pc + 4)) k) ∧
     (c.fetchable j = false → ∃ d, Retired c d l (x.setX rd (x.pc + 4)) j ∧
       exec (.jal l rd off) s = .next { s with chip := d.exc l (BitVec.ofNat 64 (2 ^ 20 + 3)) j j }) ∧
     (c.fetchable k = false → ∃ d, Retired c d l (x.setX rd (x.pc + 4)) k ∧
       exec (.jalr l rd ra imm) s = .next { s with chip := d.exc l (BitVec.ofNat 64 (2 ^ 20 + 3)) k k }))

/-- Whatever the operands, the slot and the state, and whether the instruction retires, stalls or takes an exception: an instruction on registers changes
no byte of memory, no other slot, and nothing of the Recipe block, the tables, the links, the network, the collectives and the Handle Queues of the
die; a scalar load changes no byte of memory and no other slot. -/
def Obligations.RegisterInstructionsAndLoadsFrame : Prop :=
  ∀ (s t : State) (i : Instr) (l : Loc), exec i s = .next t →
    (Instr.registerOnly i = some l → t.chip.mem = s.chip.mem ∧ (∀ m, m ≠ l → t.chip.slot m = s.chip.slot m) ∧ t.chip.tide = s.chip.tide ∧
      t.chip.rcp = s.chip.rcp ∧ t.chip.emb = s.chip.emb ∧ t.chip.links = s.chip.links ∧ t.chip.net = s.chip.net ∧ t.chip.conf = s.chip.conf ∧
      t.chip.dieHqs = s.chip.dieHqs ∧ t.chip.scratch = s.chip.scratch) ∧
    (Instr.scalarLoad i = some l → t.chip.mem = s.chip.mem ∧ ∀ m, m ≠ l → t.chip.slot m = s.chip.slot m)

/-- TRAP completes and then takes its exception: the handler is entered with XCAUSE = TRAP with its code, XEPC the next word and XADDR 0. A word that the
instruction set does not define raises ILLEGAL with XADDR the word and XEPC its own address. A vector instruction whose TYPE is reserved (codes 13 to
15) raises ILLEGAL with its own word in XADDR and writes no register. -/
def Obligations.IllegalWordsAndTrapsEnterTheHandler : Prop :=
  (∀ (s : State) (l : Loc) (code : BitVec 12) (word : BitVec 32), s.chip.Issues l → s.chip.Enterable l →
     let x := s.chip.slot l
     Completes s (.trap l code) (fun d => ∃ w, Retired s.chip w l x (x.pc + 4) ∧
       Entered w d l (BitVec.ofNat 64 (code.toNat * 256 + 4)) (x.pc + 4) 0) ∧
     (legalWord word = false → Completes s (.illegalWord l word) (fun d => Entered s.chip d l 1 x.pc (word.zeroExtend 64)))) ∧
  (∀ (s : State) (l : Loc) (vd va vb : Reg) (mask : BitVec 3) (ty mode : BitVec 4) (ecc : Bool), s.chip.Issues l → 13 ≤ ty.toNat →
     s.chip.Enterable l →
     let ill := fun (i : Instr) (op func : Nat) => Completes s i (fun d => Entered s.chip d l 1 (s.chip.slot l).pc
       (BitVec.ofNat 64 (op * 2 ^ 26 + vd.toNat * 2 ^ 21 + va.toNat * 2 ^ 16 + vb.toNat * 2 ^ 11 + mask.toNat * 2 ^ 8 + ty.toNat * 2 ^ 4 + func)))
     ill (.vld l vd va vb mask ty mode ecc) 0x30 mode.toNat ∧ ill (.vst l vd va vb mask ty mode) 0x31 mode.toNat ∧
     ill (.vadd l vd va vb mask ty) 0x32 0 ∧ ill (.vsel l vd va vb mask ty) 0x32 15 ∧ ill (.vfadd l vd va vb mask ty) 0x33 0 ∧
     ill (.vfclamp l vd va vb mask ty) 0x33 11 ∧ ill (.vcmpEq l vd va vb mask ty) 0x34 0 ∧ ill (.vcmpGe l vd va vb mask ty) 0x34 5 ∧
     ill (.mand l vd va vb mask ty) 0x35 0 ∧ ill (.vredsum l vd va vb mask ty) 0x35 11 ∧ ill (.vfredsum l vd va vb mask ty) 0x35 14)

/-- An exception taken with XVEC = 0 enters no handler: the slot stops and the Request completes with the status of Table 5. -/
def Obligations.ExceptionWithoutHandlerEndsTheRequest : Prop :=
  ∀ (s : State) (l : Loc) (code : BitVec 12) (word : BitVec 32) (k : Task) (x : Ctx), s.chip.Issues l →
    (s.chip.slot l).handler = 0 → (s.chip.slot l).task = some k → s.chip.ctx k.ctx = some x → x.ended = none →
    x.delivering = false →
    Completes s (.trap l code) (fun d => EndedBy s.chip d l k.ctx x (BitVec.ofNat 64 (code.toNat * 256 + 4))) ∧
    (legalWord word = false → Completes s (.illegalWord l word) (fun d => EndedBy s.chip d l k.ctx x 1))

/-- A slot enters Double Fault when the frame address is invalid or DEPTH is 15: it stops, nothing is written to memory or to the store buffer, and its
Core Fault Record entry holds VALID, REASON, DEPTH, CODE, XEPC, XCAUSE, XADDR, XSP and the context. -/
def Obligations.DoubleFaultFillsTheRecord : Prop :=
  ∀ (s : State) (l : Loc) (word : BitVec 32), s.chip.Issues l → legalWord word = false → (s.chip.slot l).handler ≠ 0 →
    let c := s.chip
    let x := c.slot l
    let bad := c.frameOk l.fc.toNat (x.xsp - 128) = false
    let reason := if bad then 1 else 2
    bad ∨ depthOf x.xstatus = 15 →
    Completes s (.illegalWord l word) (fun d =>
      (d.slot l).stopped = true ∧ (d.slot l).doubleFault = true ∧ d.mem = c.mem ∧
      (d.core l.fc.toNat).storeBuf = (c.core l.fc.toNat).storeBuf ∧
      SMap.get 0 d.cfr (cfrKey l 0) = BitVec.ofNat 64 (2 ^ 63 + reason * 2 ^ 16 + depthOf x.xstatus * 256 + 1) ∧
      SMap.get 0 d.cfr (cfrKey l 1) = x.pc ∧ SMap.get 0 d.cfr (cfrKey l 2) = 1 ∧
      SMap.get 0 d.cfr (cfrKey l 3) = word.zeroExtend 64 ∧ SMap.get 0 d.cfr (cfrKey l 4) = x.xsp ∧
      SMap.get 0 d.cfr (cfrKey l 5) = BitVec.ofNat 64 x.ctxNum ∧
      (∀ m, m ≠ l → d.slot m = c.slot m))

/-- ERET with DEPTH above 0 and a valid frame restores x1 to x8, FPFLAGS, SWP_SHIFT, BSRCH_BASE and BSRCH_EDGES from the frame at XSP, XSTATUS with DEPTH
less 1, adds 128 to XSP and goes on at the frame's first word; other registers stay. With DEPTH 0 it raises ILLEGAL. -/
def Obligations.EretRestoresTheFrame : Prop :=
  ∀ (s : State) (l : Loc), s.chip.Issues l →
    let c := s.chip
    let x := c.slot l
    let w := fun i => c.frameRead l x.xsp i
    let dest := w 0 &&& ~~~(3 : Word)
    (depthOf x.xstatus ≠ 0 → c.frameOk l.fc.toNat x.xsp = true → bit (w 3) 2 = false → c.fetchable dest = true →
      Completes s (.eret l) (fun d => ∃ y, Retired c d l y dest ∧
        (∀ r : Reg, y.xr r = if 1 ≤ r.toNat ∧ r.toNat ≤ 8 then w (7 + r.toNat) else x.xr r) ∧
        y.fpflags = w 4 &&& 0x1F ∧ y.swpShift = w 5 &&& 0x3F ∧ y.bsrchBase = w 6 ∧ y.bsrchEdges = w 7 &&& 0x1FFFF ∧
        depthOf y.xstatus = depthOf x.xstatus - 1 ∧ bit y.xstatus 0 = bit (w 3) 0 ∧ bit y.xstatus 1 = bit (w 3) 1 ∧
        y.xsp = x.xsp + 128 ∧ y.v = x.v ∧ y.m = x.m ∧ y.xvec = x.xvec ∧ y.task = x.task ∧ y.rsv = x.rsv)) ∧
    (depthOf x.xstatus = 0 → s.chip.Enterable l →
      Completes s (.eret l) (fun d => Entered c d l 1 x.pc (BitVec.ofNat 64 (0x27 * 2 ^ 26 + 3))))

/-- LDRV of an 8-byte-aligned address of Recipe-use HBM of this package loads it and reserves its granule at its home slice; STCV with that reservation
stores, sets rd to 0 and clears the reservation; without one it stores nothing and sets rd to 1. The reservation of a slot ends after 4,096 cycles:
RSV.VALID is cleared, here and at the home slice, and nothing else changes. -/
def Obligations.Reservations : Prop :=
  (∀ (s : State) (l : Loc) (rd ra rb : Reg) (imm : BitVec 16) (t : Target), s.memOk → s.chip.Issues l →
     let c := s.chip
     let x := c.slot l
     let fc := l.fc.toNat
     let k := c.core fc
     let ea := effAddr (x.xr ra) (imm.signExtend 64)
     k.sbHolds l.slot.toNat = false → t.row = .hbm → t.ty < 2 → t.pkg = none → c.homeWait t = none → k.mayReach fc t.off = true →
     (ea.toNat % 8 = 0 → c.access (some fc) ea 8 false = some t →
       Completes s (.ldrv l rd ra imm false) (fun d =>
         Retired ((c.here fc (.slot l.slot.toNat) false none t.off).reserveHome c.self (slotHolder l) t.off) d l
           { x.setX rd (BitVec.ofNat 64 (leNat (c.bytes t.off 8))) with rsv := some (ea &&& ~~~(0xFF : Word)), rsvAt := k.cycles }
           (c.nextPc l) ∧
         d.mem = c.mem ∧ d.reservedHome c.self (slotHolder l) t.off = true)) ∧
     ((x.xr ra).toNat % 8 = 0 → c.access (some fc) (x.xr ra) 8 true = some t →
       (c.rsvMatches fc x t = true → k.rsvOver x = false → c.reservedHome c.self (slotHolder l) t.off = true →
         Completes s (.stcv l rd ra rb) (fun d => d.slot l = { x.setX rd 0 with rsv := none, pc := c.nextPc l, wait := none } ∧
           (∀ i, i < 8 → Mem.read d.mem (t.off + i) = BitVec.ofNat 8 ((x.xr rb).toNat / 2 ^ (8 * i))) ∧
           (∀ a, a < t.off ∨ t.off + 8 ≤ a → Mem.read d.mem a = Mem.read c.mem a) ∧
           d.reservedHome c.self (slotHolder l) t.off = false)) ∧
       (c.rsvMatches fc x t = false →
         Completes s (.stcv l rd ra rb) (fun d => d.slot l = { x.setX rd 1 with rsv := none, pc := c.nextPc l, wait := none } ∧
           d.mem = c.mem)))) ∧
  (∀ (s : State) (l : Loc), (s.chip.slot l).rsv ≠ none →
     (s.chip.slot l).rsvAt.toNat + 4096 < (s.chip.core l.fc.toNat).cycles.toNat →
     Completes s (.reservationTimeout l) (fun d => d.slot l = { s.chip.slot l with rsv := none } ∧
       (∀ m, m ≠ l → d.slot m = s.chip.slot m) ∧ d.mem = s.chip.mem ∧
       (∀ o, d.reservedHome s.chip.self (slotHolder l) o = false)))

/-- A fence retires when what it orders has been performed: FENCE.L when the slot's buffered stores are out, FENCE.G when also no transaction of the slot
waits for an answer, FENCE.E when no named engine holds a command of the slot; else the slot stalls with FENCE_WAIT. YIELD only goes on. TEND with no
engine command and no buffered store of its slot left reports the stage complete and frees the slot; no other slot and no byte of memory changes. -/
def Obligations.FencesYieldAndTend : Prop :=
  (∀ (s : State) (l : Loc) (m : BitVec 6), s.chip.Issues l →
     let c := s.chip
     let x := c.slot l
     let k := c.core l.fc.toNat
     let stores := ∃ e ∈ k.storeBuf, e.slot = l.slot.toNat
     let answers := ∃ t ∈ k.trks, t.holder = Holder.slot l.slot.toNat
     let commands := ∃ e, e < 6 ∧ (m = 0 ∨ m.getLsbD e = true) ∧ ∃ y ∈ (k.engine e).queue, y.slot = l.slot.toNat
     let stalls := fun (i : Instr) => exec i s = .next { s with chip := c.stallSlot l .fenceWait }
     (¬ stores → Retires s (.fenceL l) l x (c.nextPc l)) ∧ (stores → stalls (.fenceL l)) ∧
     (¬ stores ∧ ¬ answers → Retires s (.fenceG l) l x (c.nextPc l)) ∧ (stores ∨ answers → stalls (.fenceG l)) ∧
     (¬ commands → Retires s (.fenceE l m) l x (c.nextPc l)) ∧ (commands → stalls (.fenceE l m)) ∧
     Retires s (.yield l) l x (c.nextPc l)) ∧
  (∀ (s : State) (l : Loc) (k : Task) (x : Ctx), s.chip.Issues l → (s.chip.slot l).task = some k → s.chip.ctx k.ctx = some x →
     (∀ e, e < 6 → ∀ y ∈ ((s.chip.core l.fc.toNat).engine e).queue, y.slot ≠ l.slot.toNat) →
     (∀ e ∈ (s.chip.core l.fc.toNat).storeBuf, e.slot ≠ l.slot.toNat) →
     Completes s (.tend l) (fun d => d.slot l = Slot.reset ∧
       d.ctx k.ctx = some { x with stages := SMap.set x.stages k.stage .reported } ∧
       (∀ m, m ≠ l → d.slot m = s.chip.slot m) ∧ d.mem = s.chip.mem))

/-- MFS reads each register of Table 11 and MTS writes it as its access code directs: RW registers take what is written, FPFLAGS and PMWRAP lose the bits
that are 1 in it, RO and absent registers keep their value, and absent ones read 0. Where the retirement of the MTS is counted by a counter that
stands at its last value, that counter's PMWRAP bit is set. Queue state is read and written as by the stream rows. A write of STRs_CFG configures its
stream afresh, or sets LIMIT alone while a command that names the stream is queued or runs. In RING mode a read of STRs_RING gives the slot at the
program end, its Pool offset with its sequence number, and stalls while that end has none; a write hands over as many slots as it names, at most those
that end holds. In PINGPONG mode a read gives the halves with their sequence number and a write gives up the halves that it names. In DIRECT mode a
read gives 0 and a write does nothing. Nothing else of the core changes. -/
def Obligations.CoreStateAndStreamRegisters : Prop :=
  (∀ (s : State) (l : Loc) (r : Reg) (snum : BitVec 12), s.chip.Issues l →
     let c := s.chip
     let x := c.slot l
     let fc := l.fc.toNat
     let k := c.core fc
     let n := snum.toNat
     let v := x.xr r
     let reads := fun (w : Word) => Retires s (.mfs l r snum) l (x.setX r w) (c.nextPc l)
     let sets := fun (y : Slot) => Retires s (.mts l r snum) l y (c.nextPc l)
     let core := fun (post : Core → Prop) => Completes s (.mts l r snum) (fun d => post (d.core fc) ∧
       d.slot l = { x with pc := c.nextPc l, wait := none } ∧ (∀ m, m ≠ l → d.slot m = c.slot m) ∧
       (∀ j, j ≠ fc → d.core j = c.core j) ∧ { d with cores := c.cores } = c)
     let absent := (4 ≤ n ∧ n < 0x010) ∨ (0x01A ≤ n ∧ n < 0x020) ∨ (0x026 ≤ n ∧ n < 0x030) ∨ (0x033 ≤ n ∧ n < 0x040) ∨
       (0x042 ≤ n ∧ n < 0x100) ∨ (0x122 ≤ n ∧ n < 0x200) ∨ (0x20D ≤ n ∧ n < 0x400) ∨ 0x480 ≤ n
     let readOnly := n < 0x020 ∨ n = 0x021 ∨ n = 0x022 ∨ n = 0x023 ∨ n = 0x041 ∨ (0x200 ≤ n ∧ n < 0x20D)
     (n = 0x000 → reads (BitVec.ofNat 64 (c.self * 2 ^ 16 + fc))) ∧
     (n = 0x001 → reads (l.slot.zeroExtend 64)) ∧ (n = 0x002 → reads c.tide) ∧ (n = 0x003 → reads k.cycles) ∧
     (∀ (j : Task) (y : Ctx), x.task = some j → c.ctx j.ctx = some y →
       (n = 0x010 → reads (BitVec.ofNat 64 (fieldB y.desc 0x00 8))) ∧ (n = 0x011 → reads (BitVec.ofNat 64 (fieldB y.desc 0x28 8))) ∧
       (n = 0x012 → reads (BitVec.ofNat 64 (fieldB y.desc 0x30 8))) ∧ (n = 0x013 → reads (BitVec.ofNat 64 (fieldB y.desc 0x0C 4))) ∧
       (n = 0x014 → reads (BitVec.ofNat 64 j.ctx)) ∧ (n = 0x015 → reads (BitVec.ofNat 64 (fieldB y.desc 0x08 1 % 4))) ∧
       (n = 0x016 → reads (BitVec.ofNat 64 (fieldB y.desc 0x09 1))) ∧ (n = 0x017 → reads (BitVec.ofNat 64 (fieldB y.desc 0x10 8))) ∧
       (n = 0x018 → reads (BitVec.ofNat 64 (leNat (c.bytes (areaBase y.area + 8) 8)))) ∧
       (n = 0x019 → reads (BitVec.ofNat 64 (areaBase y.area)))) ∧
     (n = 0x020 → reads x.xsp) ∧ (n = 0x021 → reads x.xcause) ∧ (n = 0x022 → reads x.xepc) ∧ (n = 0x023 → reads x.xaddr) ∧
     (n = 0x024 → reads x.xstatus) ∧ (n = 0x025 → reads x.xvec) ∧ (n = 0x030 → reads x.swpShift) ∧
     (n = 0x031 → reads x.bsrchBase) ∧ (n = 0x032 → reads x.bsrchEdges) ∧ (n = 0x040 → reads x.fpflags) ∧
     (n = 0x041 → x.rsv = none → reads 0) ∧
     (n = 0x041 → ∀ (g : Word) (t : Target), x.rsv = some g → c.access (some fc) g 1 false = some t → t.pkg = none →
       reads (if c.reservedHome c.self (slotHolder l) t.off = true then BitVec.ofNat 64 (2 ^ 63 + bits g 49 8 * 2 ^ 8) else 0)) ∧
     (∀ i, i < 16 → n = 0x100 + i → reads ((SMap.get 0 k.pmc i).zeroExtend 64)) ∧
     (∀ i, i < 16 → n = 0x110 + i → reads ((SMap.get 0 k.pmsel i).zeroExtend 64)) ∧
     (n = 0x120 → reads (k.pmwrap.zeroExtend 64)) ∧ (n = 0x121 → reads (k.pmie.zeroExtend 64)) ∧
     (∀ i, i < 13 → n = 0x200 + i → reads (SMap.get 0 k.stall i)) ∧ (absent → reads 0) ∧
     (n = 0x020 → sets { x with xsp := v }) ∧ (n = 0x024 → sets { x with xstatus := setBits x.xstatus 0 3 v.toNat }) ∧
     (n = 0x025 → sets { x with xvec := v }) ∧ (n = 0x030 → sets { x with swpShift := v &&& 0x3F }) ∧
     (n = 0x031 → sets { x with bsrchBase := v }) ∧ (n = 0x032 → sets { x with bsrchEdges := v &&& 0x1FFFF }) ∧
     (n = 0x040 → sets { x with fpflags := x.fpflags &&& ~~~v }) ∧ (absent ∨ readOnly → sets x) ∧
     (∀ i, i < 16 → n = 0x100 + i → core (fun j => SMap.get 0 j.pmc i = v.setWidth 48)) ∧
     (∀ i, i < 16 → n = 0x110 + i → core (fun j => SMap.get 0 j.pmsel i = v.setWidth 12)) ∧
     (n = 0x120 → core (fun j => ∀ i, i < 16 → (∀ p ∈ k.pmsel, p.1 = i → p.2 ≠ 2) →
       j.pmwrap.getLsbD i = (k.pmwrap.getLsbD i && !v.getLsbD i))) ∧
     (n = 0x121 → core (fun j => j.pmie = v.setWidth 16)) ∧
     (∀ i : BitVec 6, (n = 0x400 + 2 * i.toNat → reads (k.stream i.toNat).cfgWord ∧ exec (.mts l r snum) s = exec (.strCfgWrite l i r) s) ∧
       (n = 0x401 + 2 * i.toNat → exec (.mfs l r snum) s = exec (.strRingRead l r i) s ∧
         exec (.mts l r snum) s = exec (.strRingHandover l i r) s))) ∧
  (∀ (s : State) (l : Loc) (i : BitVec 6) (r : Reg), s.chip.Issues l →
     let c := s.chip
     let x := c.slot l
     let fc := l.fc.toNat
     let k := c.core fc
     let t := k.stream i.toNat
     let v := x.xr r
     let now := fun (a : Instr) (u : Stream) => Completes s a (fun d =>
       (d.core fc).stream i.toNat = u ∧ Retired (c.setCore fc (k.setStream i.toNat u)) d l x (c.nextPc l))
     let reads := fun (w : Word) => Retires s (.strRingRead l r i) l (x.setX r w) (c.nextPc l)
     let waits := fun (w : Cause) => exec (.strRingRead l r i) s = .next { s with chip := c.stallSlot l w }
     (k.streamBusy i.toNat = false → now (.strCfgWrite l i r) { Stream.reset with cfg := BitVec.ofNat 64 (v.toNat % 2 ^ 45) }) ∧
     (k.streamBusy i.toNat = true → now (.strCfgWrite l i r) { t with cfg := setBits t.cfg 0 9 v.toNat }) ∧
     (t.mode = 1 → (if t.out = true then t.filled ≠ t.slots else t.filled ≠ 0) →
       reads (BitVec.ofNat 64 ((SMap.get 0xFFFFFFFF t.slotSeq t.tail).toNat * 2 ^ 32 + t.slotAt t.tail))) ∧
     (t.mode = 1 → t.out = false → t.filled = 0 → waits .ringEmpty) ∧
     (t.mode = 1 → t.out = true → t.filled = t.slots → waits .ringFull) ∧
     (t.mode = 2 → reads (BitVec.ofNat 64 (t.halfSeq.toNat * 2 ^ 32 + (if t.half1 = true then 2 else 0) + (if t.half0 = true then 1 else 0)))) ∧
     (t.mode = 0 → reads 0) ∧
     (t.mode = 1 → t.out = false →
       let n := Nat.min (v.toNat % 128) t.filled
       now (.strRingHandover l i r) { t with tail := (t.tail + n) % t.slots, filled := t.filled - n }) ∧
     (t.mode = 1 → t.out = true →
       let n := Nat.min (v.toNat % 128) (t.slots - t.filled)
       now (.strRingHandover l i r) { t with tail := (t.tail + n) % t.slots, filled := t.filled + n }) ∧
     (t.mode = 2 → now (.strRingHandover l i r)
       { t with tail := t.tailAfter v, half0 := if bit v 0 = true then t.out else t.half0, half1 := if bit v 1 = true then t.out else t.half1 }) ∧
     (t.mode = 0 → now (.strRingHandover l i r) t))

/-- ENQ of an aligned address in the core's own Pool, with no buffered store of the slot left: the 64 bytes join the engine's queue under its next
sequence number, which rd takes; a full queue with BLOCK = 0 gives all ones and changes no engine, with BLOCK = 1 it stalls. -/
def Obligations.EnqueueCopiesTheCommand : Prop :=
  ∀ (s : State) (l : Loc) (rd ra : Reg) (e : BitVec 3) (block : Bool), s.chip.Issues l →
    let c := s.chip
    let x := c.slot l
    let fc := l.fc.toNat
    let k := c.core fc
    let a := x.xr ra
    let g := k.engine e.toNat
    e.toNat < 6 → a.toNat % 64 = 0 → c.inOwnPool fc a 64 = true → k.fenceLDone l.slot.toNat = true →
    (g.queue.length < 16 → ∀ y : EngCmd,
      y = { seq := g.next, slot := l.slot.toNat, ctx := x.ctxNum, bytes := c.bytes (c.localOff (some fc) a) 64, phase := .queued,
            handle := none, start := [], seen := none, prog := 0, sub := [], killed := false } →
      Completes s (.enq l rd ra e block) (fun d =>
        Retired (c.setCore fc (k.setEngine e.toNat { g with queue := g.queue ++ [y], next := g.next + 1 })) d l
          (x.setX rd (g.next.zeroExtend 64)) (c.nextPc l) ∧ d.mem = c.mem)) ∧
    (16 ≤ g.queue.length → Retires s (.enq l rd ra e false) l (x.setX rd (BitVec.allOnes 64)) (c.nextPc l)) ∧
    (16 ≤ g.queue.length → exec (.enq l rd ra e true) s = .next { s with chip := c.stallSlot l .engineBusy })

/-- A Handle Queue is first in, first out: HQPUT appends ra[62:0] with the producer's Request and sets rd to 0, HQGET removes the oldest handle; with NB =
1 a full queue gives 1 and an empty one gives all ones, with NB = 0 they stall. Nothing else of the package changes. SMSG to a Pool window of this
package copies the 64 bytes: the message waits at the core of the destination address, one tracker of the sender is in use until it is acknowledged,
and no byte of memory changes yet. PFH changes no register but pc and no memory, and does not fault, wherever its address lies. -/
def Obligations.QueuesMessagesAndPrefetch : Prop :=
  (∀ (s : State) (l : Loc) (rd ra : Reg) (nb : Bool) (q : BitVec 7), s.chip.Issues l →
     let c := s.chip
     let x := c.slot l
     let fc := l.fc.toNat
     let depth := if q.toNat < 64 then 32 else 64
     let now := c.hq fc q.toNat
     let h : Handle := { val := BitVec.ofNat 64 ((x.xr ra).toNat % 2 ^ 63), ctx := some x.ctxNum }
     ((c.core fc).fenceLDone l.slot.toNat = true → now.length < depth →
       Completes s (.hqput l rd ra nb q) (fun d => d.hq fc q.toNat = now ++ [h] ∧
         Retired (c.setHq fc q.toNat (now ++ [h])) d l (x.setX rd 0) (c.nextPc l))) ∧
     ((c.core fc).fenceLDone l.slot.toNat = true → depth ≤ now.length →
       Retires s (.hqput l rd ra true q) l (x.setX rd 1) (c.nextPc l) ∧
       exec (.hqput l rd ra false q) s = .next { s with chip := c.stallSlot l .hqFull }) ∧
     (∀ (y : Handle) (rest : List Handle), now = y :: rest →
       Completes s (.hqget l rd nb q) (fun d => d.hq fc q.toNat = rest ∧
         Retired (c.setHq fc q.toNat rest) d l (x.setX rd y.val) (c.nextPc l))) ∧
     (now = [] → Retires s (.hqget l rd true q) l (x.setX rd (BitVec.allOnes 64)) (c.nextPc l) ∧
       exec (.hqget l rd false q) s = .next { s with chip := c.stallSlot l .hqEmpty })) ∧
  (∀ (s : State) (l : Loc) (ra hint : Reg) (imm : BitVec 16), s.chip.Issues l →
     let c := s.chip
     let x := c.slot l
     let fc := l.fc.toNat
     let k := c.core fc
     let a := x.xr ra
     let b := c.bytes (c.localOff (some fc) a) 64
     (∀ u : Target, a.toNat % 64 = 0 → c.inOwnPool fc a 64 = true → k.fenceLDone l.slot.toNat = true →
       c.smTarget fc (BitVec.ofNat 64 (fieldB b 0 8)) = some u → u.pkg = none → k.smInFlight < 16 → k.slotTrackers 1 = true →
       Completes s (.smsg l ra) (fun d => d.slot l = { x with pc := c.nextPc l, wait := none } ∧ d.mem = c.mem ∧
         (∃ m ∈ (d.core ((u.off - poolBase) / poolSize)).smWaiting, m.data = b) ∧
         (d.core fc).trks.length = k.trks.length + 1 ∧ (∀ m, m ≠ l → d.slot m = c.slot m))) ∧
     Completes s (.pfh l hint ra imm) (fun d => d.slot l = { x with pc := c.nextPc l, wait := none } ∧ d.mem = c.mem ∧
       (∀ m, m ≠ l → d.slot m = c.slot m) ∧ (∀ n, (d.core n).trks = (c.core n).trks)))

/-- VLD of elements of this package: each active element takes the bytes at its address (unit stride, strided, indexed, or one broadcast), the others keep
their value; VST writes the active elements to memory in element order and nothing else. -/
def Obligations.VectorLoadAndStore : Prop :=
  ∀ (s : State) (l : Loc) (vd ra rb : Reg) (mask : BitVec 3) (ty mode : BitVec 4), s.memOk → s.chip.Issues l →
    let c := s.chip
    let x := c.slot l
    let fc := l.fc.toNat
    let m := mode.toNat
    let u := moveTy ty.toNat m
    let active := activeElems u (x.mr mask)
    let reads := if m = 3 then active.take 1 else active
    let addr := elemAddr x u m ra rb
    (x.xr ra).toNat % tyBytes u = 0 → (c.core fc).strictWaits l.slot.toNat = false → (c.core fc).sbHolds l.slot.toNat = false →
    let reached := fun (write : Bool) (l : List Nat) => ∃ row type, type ≠ 2 ∧ ∀ i ∈ l, ∃ t, c.access (some fc) (addr i) (tyBytes u) write = some t ∧
      t.row = row ∧ t.ty = type ∧ t.pkg = none ∧ c.homeWait t = none ∧ (c.core fc).mayReach fc t.off = true
    (vmemLegal true ty.toNat m = true → reached false reads →
      Completes s (.vld l vd ra rb mask ty mode false) (fun d => ∃ v : VReg,
        d.slot l = { x.setV vd v with pc := c.nextPc l, wait := none } ∧ d.mem = c.mem ∧
        (∀ i, i < tyCount u → i ∈ active → ∀ t, c.access (some fc) (addr (if m = 3 then reads.headD 0 else i)) (tyBytes u) false = some t →
          elemAt (tyBits u) v i = leNat (c.bytes t.off (tyBytes u)) % 2 ^ tyBits u) ∧
        (∀ i, i < tyCount u → i ∉ active → elemAt (tyBits u) v i = elemAt (tyBits u) (x.vr vd) i))) ∧
    (vmemLegal false ty.toNat m = true → reached true active →
      Completes s (.vst l vd ra rb mask ty mode) (fun d => d.slot l = { x with pc := c.nextPc l, wait := none } ∧
        d.mem = Mem.writeAll c.mem ((c.storeCells fc addr u (x.vr vd) active).filter (fun p => p.1 < basinBase)) ∧
        (∀ a, (∀ i ∈ active, ∀ t, c.access (some fc) (addr i) (tyBytes u) true = some t → a < t.off ∨ t.off + tyBytes u ≤ a) →
          Mem.read d.mem a = Mem.read c.mem a)))

/-- VINT on an integer TYPE: each active element of vd takes the function of Table 7 on the elements of va and vb, inactive elements keep their value
(VSEL takes vb there), and nothing else changes. VCMP writes the mask register that vd[2:0] names: every lane bit of an active element carries the
comparison of va with vb by the TYPE, every lane bit of an inactive one is 0; m0 discards it. An integer comparison sets no flag. -/
def Obligations.VectorIntegersAndCompares : Prop :=
  (∀ (s : State) (l : Loc) (vd va vb : Reg) (mask : BitVec 3) (ty : BitVec 4), s.chip.Issues l →
     let x := s.chip.slot l
     let t := ty.toNat
     let w := tyBits t
     let lo := tyMin t
     let hi := tyMax t
     t ≤ 8 →
     let on := fun (old : VReg) (i : Instr) (f : Nat → Nat → Nat) => ∃ v : VReg, Retires s i l (x.setV vd v) (s.chip.nextPc l) ∧
       ∀ j, j < tyCount t → elemAt w v j =
         if laneOn w (x.mr mask) j then f (elemAt w (x.vr va) j) (elemAt w (x.vr vb) j) else elemAt w old j
     let row := on (x.vr vd)
     row (.vadd l vd va vb mask ty) (fun a b => (a + b) % 2 ^ w) ∧
     row (.vsub l vd va vb mask ty) (fun a b => (2 ^ w + a - b) % 2 ^ w) ∧
     row (.vmin l vd va vb mask ty) (fun a b => if tyVal t a ≤ tyVal t b then a else b) ∧
     row (.vmax l vd va vb mask ty) (fun a b => if tyVal t a ≤ tyVal t b then b else a) ∧
     row (.vand l vd va vb mask ty) (fun a b => a &&& b) ∧
     row (.vor l vd va vb mask ty) (fun a b => a ||| b) ∧
     row (.vxor l vd va vb mask ty) (fun a b => a ^^^ b) ∧
     on (x.vr vb) (.vsel l vd va vb mask ty) (fun a _ => a) ∧
     (t ≠ 0 →
       row (.vmul l vd va vb mask ty) (fun a b => a * b % 2 ^ w) ∧
       row (.vmulh l vd va vb mask ty) (fun a b => wrapInt w (tyVal t a * tyVal t b / ((2 ^ w : Nat) : Int))) ∧
       row (.vsll l vd va vb mask ty) (fun a b => a * 2 ^ (b % w) % 2 ^ w) ∧
       row (.vsrl l vd va vb mask ty) (fun a b => a / 2 ^ (b % w)) ∧
       row (.vsra l vd va vb mask ty) (fun a b => wrapInt w (signed w a / ((2 ^ (b % w) : Nat) : Int))) ∧
       row (.vadds l vd va vb mask ty) (fun a b => wrapInt w (max lo (min hi (tyVal t a + tyVal t b)))) ∧
       row (.vsubs l vd va vb mask ty) (fun a b => wrapInt w (max lo (min hi (tyVal t a - tyVal t b)))) ∧
       row (.vabsd l vd va vb mask ty) (fun a b => (tyVal t a - tyVal t b).natAbs))) ∧
  (∀ (s : State) (l : Loc) (vd va vb : Reg) (mask : BitVec 3) (ty : BitVec 4), s.chip.Issues l →
     let x := s.chip.slot l
     let t := ty.toNat
     let w := tyBits t
     1 ≤ t → t ≤ 12 →
     let row := fun (i : Instr) (func : Nat) (p : Int → Int → Bool) => ∃ (m : MReg) (fl : Nat),
       Retires s i l ((x.setM (vd.setWidth 3) m).raise fl) (s.chip.nextPc l) ∧
       (∀ b, b < 128 → m.getLsbD b = (laneOn w (x.mr mask) (b * 8 / w) &&
         (vcmpElem t func (elemAt w (x.vr va) (b * 8 / w)) (elemAt w (x.vr vb) (b * 8 / w))).1)) ∧
       (t ≤ 8 → fl = 0 ∧ ∀ a b, (vcmpElem t func a b).1 = p (tyVal t a) (tyVal t b))
     row (.vcmpEq l vd va vb mask ty) 0 (fun a b => decide (a = b)) ∧
     row (.vcmpNe l vd va vb mask ty) 1 (fun a b => decide (a ≠ b)) ∧
     row (.vcmpLt l vd va vb mask ty) 2 (fun a b => decide (a < b)) ∧
     row (.vcmpLe l vd va vb mask ty) 3 (fun a b => decide (a ≤ b)) ∧
     row (.vcmpGt l vd va vb mask ty) 4 (fun a b => decide (b < a)) ∧
     row (.vcmpGe l vd va vb mask ty) 5 (fun a b => decide (b ≤ a)))

/-- VFP on a float TYPE: each active element of vd takes the rounded result of Table 8, inactive elements keep their value, and FPFLAGS gains the flags of
the active elements and no others. VCVT converts elements of SRCTYPE to TYPE: a wider destination takes the elements of the half that PART names,
another one writes the part that PART names and keeps the rest; masking applies to destination elements, and FPFLAGS gains the flags of the elements
written. -/
def Obligations.VectorFloatsAndConverts : Prop :=
  (∀ (s : State) (l : Loc) (vd va vb : Reg) (mask : BitVec 3) (ty : BitVec 4) (f : Fmt), s.chip.Issues l → tyFmt ty.toNat = some f →
     let x := s.chip.slot l
     let t := ty.toNat
     let w := tyBits t
     let row := fun (i : Instr) (g : Nat → Nat → Nat → Nat × Nat) => ∃ (v : VReg) (fl : Nat),
       Retires s i l ((x.setV vd v).raise fl) (s.chip.nextPc l) ∧
       let r := fun j => g (elemAt w (x.vr vd) j) (elemAt w (x.vr va) j) (elemAt w (x.vr vb) j)
       (∀ j, j < tyCount t → elemAt w v j = if laneOn w (x.mr mask) j then (r j).1 % 2 ^ w else elemAt w (x.vr vd) j) ∧
       (∀ b, fl.testBit b = true ↔ ∃ j ∈ activeElems t (x.mr mask), (r j).2.testBit b = true)
     row (.vfadd l vd va vb mask ty) (fun _ a b => fAdd f a b) ∧
     row (.vfsub l vd va vb mask ty) (fun _ a b => fSub f a b) ∧
     row (.vfmul l vd va vb mask ty) (fun _ a b => fMul f a b) ∧
     row (.vfdiv l vd va vb mask ty) (fun _ a b => fDiv f a b) ∧
     row (.vfmin l vd va vb mask ty) (fun _ a b => fMinMax f false a b) ∧
     row (.vfmax l vd va vb mask ty) (fun _ a b => fMinMax f true a b) ∧
     row (.vfma l vd va vb mask ty) (fun d a b => fFma f a b d) ∧
     row (.vfsqrt l vd va vb mask ty) (fun _ a _ => fSqrt f a) ∧
     row (.vflog1p l vd va vb mask ty) (fun _ a _ => fLog1p f a) ∧
     row (.vfabs l vd va vb mask ty) (fun _ a _ => (a % 2 ^ (w - 1), 0)) ∧
     row (.vfneg l vd va vb mask ty) (fun _ a _ => (a ^^^ 2 ^ (w - 1), 0)) ∧
     row (.vfclamp l vd va vb mask ty) (fun d a b => fClamp f d a b)) ∧
  (∀ (s : State) (l : Loc) (vd va : Reg) (src : BitVec 4) (mask : BitVec 3) (ty part : BitVec 4), s.chip.Issues l →
     vcvtLegal src.toNat ty.toNat part.toNat = true →
     let x := s.chip.slot l
     let a := src.toNat
     let t := ty.toNat
     let n := min (tyCount a) (tyCount t)
     let from_ := fun j => if tyBits a < tyBits t then part.toNat * n + j else j - part.toNat * n
     let written := fun j => laneOn (tyBits t) (x.mr mask) j = true ∧
       (tyBits a < tyBits t ∨ part.toNat * n ≤ j ∧ j < part.toNat * n + n)
     let cv := fun j => convElem a t (elemAt (tyBits a) (x.vr va) (from_ j))
     ∃ (v : VReg) (fl : Nat),
       Retires s (.vcvt l vd va src mask ty part) l ((x.setV vd v).raise fl) (s.chip.nextPc l) ∧
       (∀ j, j < tyCount t → (written j → elemAt (tyBits t) v j = (cv j).1 % 2 ^ tyBits t) ∧
         (¬ written j → elemAt (tyBits t) v j = elemAt (tyBits t) (x.vr vd) j)) ∧
       (∀ b, fl.testBit b = true ↔ ∃ j, j < tyCount t ∧ written j ∧ (cv j).2.testBit b = true))

/-- The mask operations of Table 9 work on all 128 bits of the mask registers that the low three bits name; MPOPC and MFIRST count and find elements of
TYPE whose predicate is 1. The moves and reductions of Table 9: VBCAST, VEXT, VINS and VCOMPRESS move elements, VREDSUM, VREDMIN and VREDMAX reduce
the active elements of an integer TYPE (over no active element the sum is 0; a minimum or maximum over none is open, log 12), VFREDSUM adds in the
tree of R98. -/
def Obligations.MasksMovesAndReductions : Prop :=
  (∀ (s : State) (l : Loc) (vd va vb : Reg) (mask : BitVec 3) (ty : BitVec 4), s.chip.Issues l → ty.toNat ≤ 12 →
     let x := s.chip.slot l
     let t := ty.toNat
     let a := x.mr (va.setWidth 3)
     let b := x.mr (vb.setWidth 3)
     let md := fun (i : Instr) (v : MReg) => Retires s i l (x.setM (vd.setWidth 3) v) (s.chip.nextPc l)
     let xd := fun (i : Instr) (v : Word) => Retires s i l (x.setX vd v) (s.chip.nextPc l)
     md (.mand l vd va vb mask ty) (a &&& b) ∧ md (.mor l vd va vb mask ty) (a ||| b) ∧
     md (.mxor l vd va vb mask ty) (a ^^^ b) ∧ md (.mandn l vd va vb mask ty) (a &&& ~~~b) ∧
     md (.mnot l vd va vb mask ty) (~~~a) ∧
     xd (.mpopc l vd va vb mask ty) (BitVec.ofNat 64 ((List.range (tyCount t)).countP (fun j => laneOn (tyBits t) a j))) ∧
     (∀ j, j < tyCount t → laneOn (tyBits t) a j = true → (∀ i, i < j → laneOn (tyBits t) a i = false) →
       xd (.mfirst l vd va vb mask ty) (BitVec.ofNat 64 j)) ∧
     ((∀ j, j < tyCount t → laneOn (tyBits t) a j = false) → xd (.mfirst l vd va vb mask ty) (BitVec.allOnes 64))) ∧
  (∀ (s : State) (l : Loc) (vd va vb : Reg) (mask : BitVec 3) (ty : BitVec 4), s.chip.Issues l → ty.toNat ≤ 12 →
     let x := s.chip.slot l
     let t := ty.toNat
     let w := tyBits t
     let n := tyCount t
     let at_ := (x.xr vb).toNat % n
     let vals := (activeElems t (x.mr mask)).map (fun j => tyVal t (elemAt w (x.vr va) j))
     let xd := fun (i : Instr) (v : Word) => Retires s i l (x.setX vd v) (s.chip.nextPc l)
     let red := fun (i : Instr) (v : Word) => Completes s i (fun d => Retired s.chip.spend d l (x.setX vd v) (s.chip.nextPc l))
     let vec := fun (i : Instr) (f : Nat → Nat) => ∃ v : VReg, Retires s i l (x.setV vd v) (s.chip.nextPc l) ∧
       ∀ j, j < n → elemAt w v j = f j
     vec (.vbcast l vd va vb mask ty) (fun j => if laneOn w (x.mr mask) j then (x.xr va).toNat % 2 ^ w else elemAt w (x.vr vd) j) ∧
     vec (.vins l vd va vb mask ty) (fun j => if j = at_ then (x.xr va).toNat % 2 ^ w else elemAt w (x.vr vd) j) ∧
     vec (.vcompress l vd va vb mask ty) (fun j => match (activeElems t (x.mr mask))[j]? with
       | some i => elemAt w (x.vr va) i
       | none => 0) ∧
     xd (.vext l vd va vb mask ty) (if tySigned t then BitVec.ofInt 64 (tyVal t (elemAt w (x.vr va) at_))
       else BitVec.ofNat 64 (elemAt w (x.vr va) at_)) ∧
     (t ≤ 8 → xd (.vredsum l vd va vb mask ty) (BitVec.ofInt 64 vals.sum) ∧
       (∀ v ∈ vals, (∀ u ∈ vals, v ≤ u) → red (.vredmin l vd va vb mask ty) (BitVec.ofInt 64 v)) ∧
       (∀ v ∈ vals, (∀ u ∈ vals, u ≤ v) → red (.vredmax l vd va vb mask ty) (BitVec.ofInt 64 v))) ∧
     (∀ f, tyFmt t = some f →
       let r := treeSum f 6 ((List.range n).map (fun j => if laneOn w (x.mr mask) j then some (elemAt w (x.vr va) j) else none))
       Retires s (.vfredsum l vd va vb mask ty) l ((x.setX vd (BitVec.ofNat 64 r.1)).raise r.2) (s.chip.nextPc l)))

/-- A sweep over no element does nothing but go on. A sweep over one element whose bytes lie in this package's memory does what Table 10 says, advances ra
and decrements rb, and changes no byte but the ones it writes. -/
def Obligations.Sweeps : Prop :=
  ∀ (s : State) (l : Loc) (ra rb rc : Reg) (ty : BitVec 4), s.memOk → s.chip.Issues l →
    let c := s.chip
    let x := c.slot l
    let fc := l.fc.toNat
    let t := ty.toNat
    let w := tyBytes t
    let local_ := fun (a : Word) (n : Nat) (write : Bool) (o : Nat) =>
      ∃ u, c.access (some fc) a n write = some u ∧ u.ty ≠ 2 ∧ u.pkg = none ∧ c.homeWait u = none ∧ u.off = o ∧ o + n ≤ basinBase ∧
        (c.core fc).mayReach fc o = true
    (c.core fc).strictWaits l.slot.toNat = false → (c.core fc).sbHolds l.slot.toNat = false →
    (x.xr rb = 0 →
      (sweepLegal t 0 ra rb rc = true → Completes s (.vhist l ra rb rc ty ⟨none, none⟩) (fun d => d.slot l = { x with pc := c.nextPc l, wait := none, swGot := [] } ∧ d.mem = c.mem)) ∧
      (sweepLegal t 1 ra rb rc = true → Completes s (.vscan l ra rb rc ty ⟨none, none⟩) (fun d => d.slot l = { x with pc := c.nextPc l, wait := none, swGot := [] } ∧ d.mem = c.mem)) ∧
      (sweepLegal t 2 ra rb rc = true → Completes s (.vfill l ra rb rc ty none) (fun d => d.slot l = { x with pc := c.nextPc l, wait := none, swGot := [] } ∧ d.mem = c.mem)) ∧
      (sweepLegal t 3 ra rb rc = true → Completes s (.bsrch l ra rb rc ty ⟨none, none⟩) (fun d => d.slot l = { x with pc := c.nextPc l, wait := none, swGot := [] } ∧ d.mem = c.mem))) ∧
    (x.xr rb = 1 → ∀ o q : Nat,
      let e := leNat (c.bytes o w)
      let after := fun (v : Word) => { ((x.setX ra (x.xr ra + BitVec.ofNat 64 w)).setX rb 0).setX rc v with pc := c.nextPc l, wait := none, swGot := [] }
      let writes := fun (d : Chip) (p n v : Nat) => (∀ i, i < n → Mem.read d.mem (p + i) = BitVec.ofNat 8 (v / 2 ^ (8 * i))) ∧
        ∀ a, a < p ∨ p + n ≤ a → Mem.read d.mem a = Mem.read c.mem a
      let digit := keyOf t e / 2 ^ bits x.swpShift 5 0 % 2048
      (sweepLegal t 0 ra rb rc = true → c.inOwnPool fc (x.xr rc) 8192 = true → local_ (x.xr ra) w false o →
        local_ (effAddr (x.xr rc) (BitVec.ofNat 64 (4 * digit))) 4 true q →
        Completes s (.vhist l ra rb rc ty ⟨none, none⟩) (fun d => d.slot l = after (x.xr rc) ∧
          writes d q 4 ((leNat (c.bytes q 4) + 1) % 2 ^ 32))) ∧
      (sweepLegal t 1 ra rb rc = true → local_ (x.xr ra) w true o →
        Completes s (.vscan l ra rb rc ty ⟨none, none⟩) (fun d =>
          d.slot l = after (BitVec.ofNat 64 (((x.xr rc).toNat + e) % 2 ^ tyBits t)) ∧ writes d o w ((x.xr rc).toNat % 2 ^ tyBits t))) ∧
      (sweepLegal t 2 ra rb rc = true → local_ (x.xr ra) w true o →
        Completes s (.vfill l ra rb rc ty none) (fun d => d.slot l = after (x.xr rc) ∧ writes d o w ((x.xr rc).toNat % 2 ^ tyBits t))) ∧
      (sweepLegal t 3 ra rb rc = true → local_ (x.xr ra) w false o → local_ (x.xr rc) 4 true q →
        x.bsrchEdges = 1 → ∀ o2 : Nat, local_ (effAddr x.bsrchBase 0) w false o2 →
        Completes s (.bsrch l ra rb rc ty ⟨none, none⟩) (fun d => d.slot l = after (x.xr rc + 4) ∧
          writes d q 4 (if keyOf t (leNat (c.bytes o2 w)) ≤ keyOf t e then 1 else 0))))

/-! Core events and engines. -/

/-- A counter that counts an event passes 2^48 - 1: it reads 0, its PMWRAP bit is set, and with its PMIE bit one PMC_WRAP waits. The pending wrap goes to
the lowest-numbered slot that holds a task with PMI = 1, IE = 1 and a handler: XCAUSE is INT with CODE 0x40 and the counter in INFO. KILL of an ended
Request stops its tasks, drops its queued engine commands, its handles, and its waiting text and video work, and no other Request's; no byte of memory
changes but the slots of the voxel hashes whose commands it stops. Service of a Double Fault logs DOUBLE_FAULT, ends the Request with 0x13 whatever
ended it before, clears VALID and frees the slot. -/
def Obligations.CoreEventsAndKill : Prop :=
  (∀ (s : State) (fc : BitVec 6) (counter : BitVec 4) (i : BitVec 3),
     let c := s.chip
     let f := fc.toNat
     let k := c.core f
     let n := counter.toNat
     let l : Loc := { fc := fc, slot := i }
     (countedEvent (SMap.get 0 k.pmsel n).toNat = true →
       Completes s (.pmcWrap fc counter) (fun d =>
         SMap.get 0 (d.core f).pmc n = 0 ∧ (∀ j : Nat, j ≠ n → SMap.get 0 (d.core f).pmc j = SMap.get 0 k.pmc j) ∧
         (∀ j : Nat, j < 16 → (d.core f).pmwrap.getLsbD j = (decide (j = n) || k.pmwrap.getLsbD j)) ∧
         (∀ j : Nat, j ∈ (d.core f).pmPending ↔ j ∈ k.pmPending ∨ j = n ∧ k.pmie.getLsbD n = true) ∧
         (∀ m, m ≠ f → d.core m = c.core m) ∧ { d with cores := c.cores } = c)) ∧
     ((k.slot i.toNat).takesPmc = true → (∀ j : Nat, j < i.toNat → (k.slot j).takesPmc = false) → (k.slot i.toNat).interruptible = true →
       c.fcRuns f = true → k.pmPending = [n] → c.Enterable l →
       Completes s (.pmcWrapInterrupt fc) (fun d =>
         Entered (c.spend.setCore f { k with pmPending := [] }) d l (BitVec.ofNat 64 (2 ^ 63 + n * 256 + 0x40)) (k.slot i.toNat).pc 0))) ∧
  (∀ (s : State) (ctx : BitVec 17) (l : Loc) (x : Ctx),
     let c := s.chip
     let n := ctx.toNat
     c.ctx n = some x → c.collsOf n = [] →
     (x.ended.isSome = true →
       Completes s (.kill ctx) (fun d => d = (c.spoilHash n).killReq n ∧
         (∀ f : Nat, ∀ t : Task, ((c.core f).slot l.slot.toNat).task = some t → t.ctx ≠ n →
           (d.core f).slot l.slot.toNat = (c.core f).slot l.slot.toNat) ∧
         (∀ j ∈ d.txu.jobs, j.ctx ≠ n) ∧ (∀ j ∈ d.vid.jobs, j.ctx ≠ n) ∧ (∀ u ∈ d.vid.units, u.ctx ≠ n) ∧
         (∀ p ∈ d.req.placeQ, p.1 ≠ n) ∧ (∀ q ∈ d.dieHqs, ∀ h ∈ q.2, h.ctx ≠ some n) ∧
         (∀ f e : Nat, e < 6 → ∀ y ∈ ((d.core f).engine e).queue, y.ctx = n → y.killed = true ∧ y.phase = .worked) ∧
         (s.memOk → ∀ a, a ∉ c.killedHash n → Mem.read d.mem a = Mem.read c.mem a))) ∧
     ((c.slot l).doubleFault = true → (c.slot l).ctxNum = n → c.mc.running = true → c.mc.hasRoom = true →
       Completes s (.doubleFaultService l) (fun d =>
         bit (SMap.get 0 d.cfr (cfrKey l 0)) 63 = false ∧
         (∃ y, d.ctx n = some y ∧ y.ended = some (0x13, detailOf l.fc.toNat (bits (SMap.get 0 c.cfr (cfrKey l 2)) 23 0))) ∧
         (d.slot l).doubleFault = false ∧ (∃ e, d.mc.ram.getLast? = some e ∧ e.code = 0x0010 ∧ e.severity = 2) ∧ d.mem = c.mem)))

/-- The life of an engine command around its work: START takes the oldest handle of START_HQ into the command; a command whose work is done and whose
writes are all performed completes; DONE puts its handle into DONE_HQ, and the command leaves; without DONE it leaves when it completes. The next
member of a Peloton holds the whole table: the command's handle goes into its Handle Queue, and after the last member the command's work is done. -/
def Obligations.EngineCommandLifecycle : Prop :=
  (∀ (s : State) (fc : BitVec 6) (e : Nat) (x : EngCmd) (h : Handle) (rest : List Handle) (tail : List EngCmd), e < 6 →
     let c := s.chip
     let f := fc.toNat
     let g := (c.core f).engine e
     (g.current = some x → x.startEn = true → x.phase = .queued → c.fcRuns f = true → c.hq f (x.field 5 1 % 128) = h :: rest →
       Completes s (.startHandleTake fc e) (fun d => d.hq f (x.field 5 1 % 128) = rest ∧
         (let y := { x with phase := .started, handle := some h.val, bytes := putB x.bytes 0x20 (leBytes 8 h.val.toNat) }
         (d.core f).engine e = { g with queue := putCmd g.queue y, wait := none }) ∧
         d.mem = c.mem)) ∧
     (g.current = some x → x.startEn = true → x.phase = .queued → c.fcRuns f = true → c.hq f (x.field 5 1 % 128) = [] →
       Completes s (.startHandleTake fc e) (fun d => d = c.stallEngine f e .hqEmpty)) ∧
     (g.queue = x :: tail → x.phase = .worked → (c.core f).engineOutstanding e = false → x.killed = false →
       Completes s (.engineCommandComplete fc e) (fun d => d.mem = c.mem ∧
         (x.doneEn = false → ((d.core f).engine e).queue = tail) ∧
         (x.doneEn = true → ((d.core f).engine e).queue = putCmd g.queue { x with phase := .complete }))) ∧
     (g.queue = x :: tail → x.phase = .complete → x.killed = false → c.hqRoom f (x.field 4 1 % 128) = true →
       Completes s (.doneHandlePut fc e) (fun d => ((d.core f).engine e).queue = tail ∧ d.mem = c.mem ∧
         d.hq f (x.field 4 1 % 128) = c.hq f (x.field 4 1 % 128) ++
           [{ val := BitVec.ofNat 64 (bits (if x.pass then x.handle.getD (x.addr 8) else x.addr 8) 62 0), ctx := some x.ctx }]))) ∧
  (∀ (s : State) (fc : BitVec 6) (x : EngCmd) (m : Nat) (ms : List Nat) (a : Nat),
     let c := s.chip
     let f := fc.toNat
     let q := x.field 0x2E 1 % 128
     let member := (a - poolBase) / poolSize
     ((c.core f).engine 0).current = some x → c.fcRuns f = true → x.field 0 1 = 1 → x.bit 0x2C 1 = true → x.sub = m :: ms →
     1 ≤ m → ms[m - 1]? = some a → c.hqRoom member q = true →
     let put := c.hqAdd member q (x.addr 8) (some x.ctx)
     Completes s (.pelotonMemberComplete fc) (fun d =>
       d.hq member q = c.hq member q ++ [{ val := BitVec.ofNat 64 (bits (x.addr 8) 62 0), ctx := some x.ctx }] ∧
       d.mem = c.mem ∧
       (m < ms.length → ((d.core f).engine 0).queue = putCmd ((c.core f).engine 0).queue { x with sub := (m + 1) :: ms }) ∧
       (m = ms.length → Worked put d f 0 { x with sub := (m + 1) :: ms })))

/-- An engine command whose computation meets no fault performs its writes, those to other packages first, then has its other effect, and its work is
done; no byte outside its writes changes. A command of the Matrix Tile does so on memory of this package as it was when the command started. A command
of more parts goes on with the next instead, and a STREAM command on a ring waits for its slots. -/
def Obligations.EngineCommandsDoTheirWork : Prop :=
  ∀ (s : State) (fc : BitVec 6) (x : EngCmd),
    let c := s.chip
    let f := fc.toNat
    let does := fun (i : Instr) (e : Nat) (opcode : Option Nat) (body : Rd EngOut) =>
      ∀ out reads, c.WorksOn f e opcode x → body.result (c.reader f e x) = .ok (out, reads) → c.Fits f e x out →
        let w := c.written f e x out reads
        (s.memOk → ∀ a, out.leaves a → Mem.read w.mem a = Mem.read c.mem a) ∧
        (out.stop = none → Completes s i (fun d => Worked (out.effect w) d f e x)) ∧
        (out.stop = some .again → Completes s i (fun d => d = out.effect w)) ∧
        (∀ why, out.stop = some (.wait why) → Completes s i (fun d => d = (out.effect w).stallEngine f e why))
    let tile := fun (i : Instr) (opcode : Nat) (body : EngCmd → Rd EngOut) =>
      let y := { x with seen := some (x.seen.getD c.mem) }
      ∀ out reads, c.WorksOn f 5 (some opcode) x → (body y).result (c.reader f 5 y) = .ok (out, reads) → c.Fits f 5 y out →
        let w := c.written f 5 y out reads
        (s.memOk → ∀ a, out.leaves a → Mem.read w.mem a = Mem.read c.mem a) ∧
        (out.stop = none → Completes s i (fun d => Worked (out.effect w) d f 5 y))
    let t := (c.core f).stream x.streamNum
    does (.layoutCopy fc false) 4 none (lceBody f x) ∧ does (.bcast fc false) 0 (some 3) (bcastBody x) ∧
    tile (.gemm fc false) 1 (gemmBody f) ∧ tile (.rules fc false) 3 (rulesBody f) ∧ tile (.conv fc false) 4 (convBody f) ∧
    tile (.bev fc false) 5 bevBody ∧ tile (.labels fc false) 6 labelsBody ∧
    (x.chained = false → ¬ (x.bit 0x2C 0 = false ∧ x.field 0x28 4 = 0 ∧ x.bit 0x2C 1 = false) →
      does (.stream fc false) 0 (some 1)
        (if x.bit 0x2C 1 then pelotonBody f x else if t.mode = 0 then streamDirect f x t.out else streamRing f x t)) ∧
    (x.sub = [] → does (.hjuClear fc false) 2 (some 2) (clearBody f x)) ∧
    (x.sub = [] → x.inCount ≠ 0 →
      does (.hash fc false) 2 (some 1) (hashBody x) ∧ does (.build fc false) 2 (some 3) (buildBody f x)) ∧
    (x.sub = [] →
      does (.probe fc false) 2 (some 4) (probeBody f x) ∧ does (.partition fc false) 2 (some 5) (partitionBody x) ∧
      does (.scatter fc false) 2 (some 6) (scatterBody f x)) ∧
    (x.sub = [] → does (.a2a fc false) 0 (some 2) (a2aHead f x)) ∧
    (x.sub ≠ [] → (planOf x.sub.tail).any (fun p => p.2.1 < 2) = true → does (.a2a fc false) 0 (some 2) (a2aRows f x))

/-- GATHER, BAG and a bounded SELECT write their output first and their mask or result record after it; then their work is done. VOXELISE does so in three
parts: it clears the slots of its hash, writes its outputs, and then its result record. -/
def Obligations.EngineCommandsOfTwoParts : Prop :=
  ∀ (s : State) (fc : BitVec 6) (x y : EngCmd),
    let c := s.chip
    let f := fc.toNat
    let does := fun (i : Instr) (e opcode : Nat) (first second : Rd EngOut) =>
      ∀ out out2 reads reads2, c.WorksOn f e (some opcode) x → x.sub = [] → first.result (c.reader f e x) = .ok (out, reads) →
        out.stop = some .again → c.Fits f e x out →
        let w := out.effect (c.written f e x out reads)
        ((w.core f).engine e).current = some y → y.seq = x.seq → (e = 1 → (w.core f).engineOutstanding 1 = false) →
        second.result (w.reader f e y) = .ok (out2, reads2) → out2.stop = none → w.Fits f e y out2 → out2.effect = id →
        Completes s i (fun d => Worked (w.written f e y out2 reads2) d f e y)
    (y.sub ≠ [] → does (.gather fc false) 1 1 (gatherBody f x) (maskBody y) ∧ does (.bag fc false) 1 2 (bagBody f x) (maskBody y)) ∧
    (y.sub = [2] → x.collective = false → does (.select fc false) 3 1 (selectBounded f x) (recordBody y y.rowLen)) ∧
    (let part := fun (b : Chip) (z : EngCmd) (body : EngCmd → Rd EngOut) (out : EngOut) (w : Chip) =>
        let z' := { z with seen := some (z.seen.getD b.mem) }
        ((b.core f).engine 5).current = some z ∧ z.seq = x.seq ∧ (z.sub ≠ [] → (b.core f).engineOutstanding 5 = false) ∧
        ∃ reads, (body z').result (b.reader f 5 z') = .ok (out, reads) ∧ b.Fits f 5 z' out ∧ w = out.effect (b.written f 5 z' out reads)
      ∀ (y z : EngCmd) (o1 o2 o3 : EngOut) (w1 w2 w3 : Chip),
        c.WorksOn f 5 (some 2) x → x.sub = [] → part c x (voxClear f) o1 w1 → o1.stop = some .again →
        part w1 y (voxeliseBody f) o2 w2 → y.sub = [0] → o2.stop = some .again →
        part w2 z sweepTail o3 w3 → z.sub ≠ [] → z.sub ≠ [0] → o3.stop = none →
        Completes s (.voxelise fc false) (fun d => Worked w3 d f 5 { z with seen := some (z.seen.getD w2.mem) }))

/-- HASH of one key in this package's memory writes the key's 8-byte hash under HASH_SEL and SEED at OUT_ADDR, and no other byte. A command of no input
completes at once: a STREAM whose list has no entry, a HASH or BUILD of no row. An OPCODE that the engine does not define ends the Request with
ABORT_ENGINE (0x14) and code 0xF0, and data with an uncorrectable error ends it with ABORT_ECC (0x11) and code 0x40; the DETAIL names the core, the
engine and the command. A GATHER or BAG of no index, a CONV over no voxel and a LABELS over no sample are done without a read or a write. -/
def Obligations.EngineEdges : Prop :=
  (∀ (s : State) (fc : BitVec 6) (x : EngCmd) (o q : Nat), s.memOk →
     let c := s.chip
     let f := fc.toNat
     let key := effAddr (x.addr 0x10) (BitVec.ofNat 64 (x.field 0x1E 1))
     c.WorksOn f 2 (some 1) x → x.sub = [] → x.inCount = 1 → c.LineAt f key x.keyLen false o → c.LineAt f (x.addr 0x20) 8 true q →
     Completes s (.hash fc false) (fun d =>
       (∀ i, i < 8 → Mem.read d.mem (q + i) = BitVec.ofNat 8
         ((hashKey (x.bit 0x1F 7) (c.bytes o x.keyLen) (x.addr 0x30)).toNat / 2 ^ (8 * i))) ∧
       (∀ a, a < q ∨ q + 8 ≤ a → Mem.read d.mem a = Mem.read c.mem a) ∧
       ((d.core f).engine 2).queue = putCmd ((c.core f).engine 2).queue { x with phase := .worked })) ∧
  (∀ (s : State) (fc : BitVec 6) (x : EngCmd) (q : Ctx),
     let c := s.chip
     let f := fc.toNat
     let ends := fun (i : Instr) (e status code : Nat) => c.ctx x.ctx = some q → q.ended = none → q.delivering = false →
       Completes s i (fun d => d.ctx x.ctx = some { q with ended := some (BitVec.ofNat 8 status,
         BitVec.ofNat 32 (f * 2 ^ 24 + 2 ^ 23 + e * 2 ^ 20 + x.seq.toNat % 4096 * 256 + code)) } ∧
         ((d.core f).engine e).queue = putCmd ((c.core f).engine e).queue { x with killed := true } ∧ d.mem = c.mem)
     (c.WorksOn f 0 (some 1) x → x.chained = false → x.bit 0x2C 0 = false → x.field 0x28 4 = 0 → x.bit 0x2C 1 = false →
       Completes s (.stream fc false) (fun d => Worked c d f 0 x)) ∧
     (x.sub = [] → x.inCount = 0 →
       (c.WorksOn f 2 (some 1) x → Completes s (.hash fc false) (fun d => Worked c d f 2 x)) ∧
       (c.WorksOn f 2 (some 3) x → Completes s (.build fc false) (fun d => Worked c d f 2 x))) ∧
     (x.sub = [] → x.field 0x18 4 = 0 → c.pkgCount % c.groupSize = 0 →
       (c.WorksOn f 1 (some 1) x → Completes s (.gather fc false) (fun d => Worked c d f 1 x)) ∧
       (c.WorksOn f 1 (some 2) x → Completes s (.bag fc false) (fun d => Worked c d f 1 x))) ∧
     (c.WorksOn f 5 (some 4) x → bits (x.addr 0x38) 31 0 = 0 → x.prog = 0 → Completes s (.conv fc false) (fun d => Worked c d f 5 x)) ∧
     (c.WorksOn f 5 (some 6) x → x.field 0x28 4 = 0 → x.prog = 0 → Completes s (.labels fc false) (fun d => Worked c d f 5 x)) ∧
     (c.WorksOn f 2 none x → (x.field 0 1 = 0 ∨ 7 ≤ x.field 0 1) → ends (.hash fc false) 2 0x14 0xF0) ∧
     (c.WorksOn f 5 none x → (x.field 0 1 = 0 ∨ 7 ≤ x.field 0 1) → ends (.gemm fc false) 5 0x14 0xF0) ∧
     (c.WorksOn f 4 none x → ends (.layoutCopy fc true) 4 0x11 0x40) ∧
     (c.WorksOn f 5 (some 6) x → ends (.labels fc true) 5 0x11 0x40))

/-! Requests, ports, registers and Recipes. -/

/-- A write of full bytes to an enabled window appends its bytes: every complete 64 bytes is a descriptor that arrived now, the rest waits. A write with
partial byte enables, or one beyond LIMIT, appends nothing, sets ERR and its PORT_ERR bit, and is counted; a poisoned one is discarded and sets
PORT_ERR bit 5 (log 26). An AtomicOp, to a window or elsewhere, is answered Unsupported Request. The RESET command of a window drops its waiting bytes
and clears ERR. A ring register is taken only while EN and ACTIVE are 0, and then both rings begin anew. A vector's unmasking sends the message that
waits in the PBA. -/
def Obligations.IntakeAndWindows : Prop :=
  (∀ (s : State) (port : BitVec 2) (window : BitVec 6) (payload : List Byte) (be : Bool) (at_ : Option (BitVec 6)),
     let c := s.chip
     let n := port.toNat
     let w := window.toNat
     let x := c.window n w
     let b := x.partialBytes ++ payload
     (c.port n).linkUp = true → payload ≠ [] → payload.length ≤ 4096 → x.partialBytes.length < 64 →
     (x.err = false → bit x.ctrl 0 = true → x.occupancyWith payload.length ≤ x.limit →
       Completes s (.intakeWrite port window ⟨payload, false⟩ true) (fun d =>
         d.window n w = { x with
           queue := x.queue ++ (List.range (b.length / 64)).map (fun i => { bytes := (b.drop (64 * i)).take 64, arrival := c.tide })
           partialBytes := b.drop (64 * (b.length / 64))
           accepted := x.accepted + BitVec.ofNat 32 (b.length / 64) } ∧
         (∀ m, m ≠ n → d.port m = c.port m) ∧ (∀ v, v ≠ w → d.window n v = c.window n v) ∧ { d with ports := c.ports } = c)) ∧
     (x.err = true ∨ bit x.ctrl 0 = false →
       Completes s (.intakeWrite port window ⟨payload, false⟩ be) (fun d => d = c.setWindow n w { x with overrun := x.overrun + 1 })) ∧
     (x.err = false → bit x.ctrl 0 = true →
       Completes s (.intakeWrite port window ⟨payload, false⟩ false) (fun d =>
         d.window n w = { x with badWrite := x.badWrite + 1, err := true } ∧ (d.port n).err.getLsbD 1 = true) ∧
       (x.limit < x.occupancyWith payload.length → Completes s (.intakeWrite port window ⟨payload, false⟩ true) (fun d =>
         d.window n w = { x with overrun := x.overrun + 1, err := true } ∧ (d.port n).err.getLsbD 0 = true))) ∧
     Completes s (.intakeWrite port window ⟨payload, true⟩ be) (fun d => (d.port n).err.getLsbD 5 = true ∧ (∀ v, d.window n v = c.window n v) ∧
       (∀ m, m ≠ n → d.port m = c.port m) ∧ d.mem = c.mem) ∧
     Completes s (.windowAtomicop port at_) (fun d => d = c.emit (.unsupported n))) ∧
  (∀ (s : State) (port : BitVec 2) (window : BitVec 6) (v : Word) (vector : BitVec 11) (addr : Word) (data : BitVec 32),
     let c := s.chip
     let n := port.toNat
     let w := window.toNat
     let x := c.window n w
     let anew := fun (y : Window) => c.setWindow n w { y with recHead := 0, recTail := 0, cplHead := 0, cplTail := 0 }
     (c.blackout = false →
       Completes s (.windowReset port window) (fun d => d = c.setWindow n w { x with partialBytes := [], err := false }) ∧
       (bit x.ctrl 0 = false → x.active = 0 →
         Completes s (.ringConfigWrite port window .recBase v) (fun d => d = anew { x with recBase := v }) ∧
         Completes s (.ringConfigWrite port window .cplBase v) (fun d => d = anew { x with cplBase := v }) ∧
         Completes s (.ringConfigWrite port window .ringCfg v) (fun d =>
           d = anew { x with ringCfg := x.ringCfg &&& ~~~(0x1F3F : Word) ||| v &&& 0x1F3F })) ∧
       (bit x.ctrl 0 = true ∨ 0 < x.active → ∀ r, Completes s (.ringConfigWrite port window r v) (fun d => d = c))) ∧
     ((c.port n).linkUp = true → Completes s (.msixVectorUnmask port vector addr data) (fun d =>
       SMap.get MsixEntry.reset (d.port n).msix vector.toNat = { addr := addr, data := data, masked := false } ∧ vector.toNat ∉ (d.port n).pba ∧
       (vector.toNat ∈ (c.port n).pba → (c.port n).busMaster = true → d.out = .msix n addr data :: c.out) ∧
       (vector.toNat ∉ (c.port n).pba → d.out = c.out))))

/-- The descriptor whose turn it is leaves its queue. One that fails a check of Table 4 ends with that check's status, uses no context and is counted as
rejected; one that passes takes the free context and is bound to its slot's Recipe, and its stages without predecessor are ready; with every context
in use it waits. A descriptor that waits at its queue's head for a context when its deadline passes ends there with 0x16 and DETAIL 1; an advance of
TAKEN is written back. -/
def Obligations.AdmissionAndCredits : Prop :=
  (∀ (s : State) (ctx : BitVec 17) (n w : Nat) (e : Desc) (rest : List Desc),
     let c := s.chip
     let k := ctx.toNat
     let x := c.window n w
     let slot := fieldB e.bytes 0x08 1 % 4
     let area := c.rcp.area slot
     bit c.req.control 0 = false → c.turnQueue = some (n, w) → x.queue = e :: rest →
     (∀ st det, c.checks e.bytes = some (st, det) → Completes s (.admitRequest ctx) (fun d =>
       (d.window n w).queue = rest ∧ (d.window n w).taken = x.taken + 1 ∧ d.req.rejected = c.req.rejected + 1 ∧ d.req.ctxs = c.req.ctxs ∧
       d.req.nextQueue = (64 * n + w + 1) % 256 ∧
       (d.window n w).cplQ = x.cplQ ++ [.descriptor e.bytes e.arrival (BitVec.ofNat 8 st) (BitVec.ofNat 32 det)])) ∧
     (c.checks e.bytes = none → c.req.ctxs.length < 131072 → c.ctx k = none → Completes s (.admitRequest ctx) (fun d =>
       (d.window n w).queue = rest ∧ (d.window n w).taken = x.taken + 1 ∧ d.req.admitted = c.req.admitted + 1 ∧
       (d.window n w).active = x.active + 1 ∧ d.req.rejected = c.req.rejected ∧
       (∀ j, j ≠ k → d.ctx j = c.ctx j) ∧
       ∃ y, d.ctx k = some y ∧ y.desc = e.bytes ∧ y.port = n ∧ y.window = w ∧ y.arrival = e.arrival ∧ y.area = area ∧
         y.digest = (c.rcp.slot slot).digest ∧ y.drops = 0 ∧ y.ended = none ∧ y.delivering = false ∧
         ∀ t, t < c.stageCount area → y.stageState t = if c.predCount area t = 0 then .ready else .waiting)) ∧
     (c.checks e.bytes = none → 131072 ≤ c.req.ctxs.length → c.req.stallHead = none → Completes s (.admitRequest ctx) (fun d =>
       d = { c with req := { c.req with nextQueue := (64 * n + w + 1) % 256, stallHead := some (n, w),
                                        admitStallEvents := c.req.admitStallEvents + 1, events := c.req.events ||| 4 } }))) ∧
  (∀ (s : State) (port : BitVec 2) (window : BitVec 6) (e : Desc) (rest : List Desc),
     let c := s.chip
     let n := port.toNat
     let w := window.toNat
     let x := c.window n w
     (x.queue = e :: rest → 131072 ≤ c.req.ctxs.length → bit c.req.control 0 = false → c.checks e.bytes = some (0x16, 1) →
       Completes s (.stalledDescriptorDeadline port window) (fun d =>
         (d.window n w).queue = rest ∧ (d.window n w).taken = x.taken + 1 ∧ d.req.rejected = c.req.rejected + 1 ∧
         (d.window n w).cplQ = x.cplQ ++ [.descriptor e.bytes e.arrival 0x16 1] ∧ d.req.ctxs = c.req.ctxs)) ∧
     (0 < x.cwbCount → x.cwbAddr.toNat / 8 ≠ 0 → (c.port n).linkUp = true → (c.port n).busMaster = true →
       Completes s (.cwbTimer port window) (fun d => (d.window n w).cwbCount = 0 ∧
         d.out = .busWrite n (x.cwbAddr.toNat / 8 * 8) (leBytes 4 x.taken.toNat) false false :: c.out)))

/-- Placement takes the first stage of the queue that an eligible core can take, on the eligible core with the most free slots: the slot starts with x1 to
x8 from ARGS, pc, XSP, XVEC and XSTATUS from the stage entry and every other register at its start value. A stage that reported completes, and each
successor all of whose predecessors have completed becomes ready. -/
def Obligations.StagesStartAndComplete : Prop :=
  ∀ (s : State) (ctx : BitVec 17) (stage : BitVec 12) (x : Ctx) (p : Nat × Nat) (n : Nat),
    let c := s.chip
    let at_ := fun o k => c.img x.area (c.stageAt x.area p.2 + o) k
    (c.req.placeQ.find? (fun q => !c.stageWaits q) = some p → c.ctx p.1 = some x → c.bestCore (c.maskOf p) = some n →
      Completes s .stagePlace (fun d => ∃ i ∈ (c.core n).freeSlots, ∃ y : Slot, (d.core n).slot i = y ∧
        y.task = some { ctx := p.1, stage := p.2 } ∧ y.stopped = false ∧ y.wait = none ∧ y.pend = none ∧ y.rsv = none ∧
        (∀ r : Reg, y.xr r = if 1 ≤ r.toNat ∧ r.toNat ≤ 8 then BitVec.ofNat 64 (fieldB (c.stageArgs x.area p.2) (8 * (r.toNat - 1)) 8) else 0) ∧
        (∀ r : Reg, y.vr r = 0) ∧ (∀ r : BitVec 3, y.mr r = if r = 0 then BitVec.allOnes 128 else 0) ∧
        y.pc = BitVec.ofNat 64 (areaBase x.area + at_ 0x04 4) ∧ y.xsp = BitVec.ofNat 64 (at_ 0x10 8) ∧ y.xvec = BitVec.ofNat 64 (at_ 0x18 8) ∧
        y.xstatus = BitVec.ofNat 64 (1 + at_ 0x01 1 % 2 * 2) ∧ y.fpflags = 0 ∧ y.swpShift = 0 ∧ y.bsrchBase = 0 ∧ y.bsrchEdges = 0 ∧
        (∀ j, j ≠ i → (d.core n).slot j = (c.core n).slot j) ∧ (∀ m, m ≠ n → d.core m = c.core m) ∧
        d.req.placeQ = c.req.placeQ.erase p ∧ (∃ z, d.ctx p.1 = some z ∧ z.stageState p.2 = .running) ∧ d.mem = c.mem)) ∧
    (c.ctx ctx.toNat = some x → x.stageState stage.toNat = .reported → x.ended = none →
      Completes s (.stageComplete ctx stage) (fun d => ∃ y, d.ctx ctx.toNat = some y ∧ d.mem = c.mem ∧
        let done := fun u => u = stage.toNat ∨ x.stageState u = .completed
        y.stageState stage.toNat = .completed ∧
        ∀ t, t ≠ stage.toNat →
          ((x.stageState t = .waiting ∧ (stage.toNat, t) ∈ c.stageEdges x.area ∧ ∀ f, (f, t) ∈ c.stageEdges x.area → done f) →
            y.stageState t = .ready) ∧
          (¬ (x.stageState t = .waiting ∧ (stage.toNat, t) ∈ c.stageEdges x.area ∧ ∀ f, (f, t) ∈ c.stageEdges x.area → done f) →
            y.stageState t = x.stageState t)))

/-- A deadline that has passed ends its Request with 0x16. Quiesce holds QUIESCE_REQ, its policy and its timeout; ABORT ends every Request whose delivery
has not begun with 0x20, DRAIN ends none, DRAIN_THEN_ABORT ends them when the timeout expires; resume clears QUIESCE_REQ and QUIESCED. -/
def Obligations.DeadlinesAndQuiesce : Prop :=
  ∀ (s : State) (ctx : BitVec 17) (v : Word) (x : Ctx) (j : Nat),
    let c := s.chip
    let k := ctx.toNat
    let held := fun (d : Chip) (v : Word) => d.req.control = v &&& 0xFFFFFFFF0000000D ∧ d.req.quiesced = d.atRest
    (c.ctx k = some x → x.ended = none → x.delivering = false → fieldB x.desc 0x10 8 ≠ 0 → fieldB x.desc 0x10 8 ≤ c.tide.toNat →
      Completes s (.deadlineExpiry ctx) (fun d => d.ctx k = some { x with ended := some (0x16, 0) } ∧
        (d.window x.port x.window).cplQ = (c.window x.port x.window).cplQ ++ [.request k] ∧ (∀ i, i ≠ k → d.ctx i = c.ctx i) ∧
        d.mem = c.mem ∧ d.cores = c.cores)) ∧
    (c.blackout = false →
      (bits v 3 2 = 0 → Completes s (.quiesce v) (fun d => held d (v ||| 1) ∧ d.req.ctxs = c.req.ctxs)) ∧
      (bits v 3 2 = 1 → c.ctx j = some x → x.ended = none → x.delivering = false →
        Completes s (.quiesce v) (fun d => held d (v ||| 1) ∧ d.ctx j = some { x with ended := some (0x20, 0) })) ∧
      Completes s (.resume v) (fun d => held d (v &&& ~~~(1 : Word)) ∧ d.req.quiesced = false ∧ d.req.timeoutRuns = false ∧
        d.req.ctxs = c.req.ctxs)) ∧
    (c.req.timeoutRuns = true → bits c.req.control 63 32 ≠ 0 → bit c.req.control 0 = true → 2 ≤ bits c.req.control 3 2 →
      c.ctx j = some x → x.ended = none → x.delivering = false →
      Completes s .drainTimeoutExpiry (fun d => d.req.timeoutRuns = false ∧ d.ctx j = some { x with ended := some (0x20, 0) }))

/-- When every stage of a Request has completed, its deadline has not passed and its window's rings have room, delivery begins: the Feature Record is
written at the record tail in posted writes no larger than the Max Payload Size, and its completion takes its place after those of deliveries that
have begun. Its body is the one that Recipe digest and Sample Index name, unless the command gives another (log 28). A record larger than the area
ends the Request with 0x14; without room it waits; a deadline that has passed ends it with 0x16. The first completion of a window that is ready takes
the next entry of its completion area: 32 bytes with the correlation tag, status, slot, SELF with PHASE, the context, the record's length, DETAIL and
the latency; the Request's context is free then. An interrupt that its delay holds back is signalled when the delay ends. -/
def Obligations.DeliveryAndCompletion : Prop :=
  (∀ (s : State) (ctx : BitVec 17) (x : Ctx) (other : Option (List Byte)),
     let c := s.chip
     let k := ctx.toNat
     let body := other.getD (Config.recordBody x.digest (BitVec.ofNat 64 (fieldB x.desc 0 8)))
     let late := fieldB x.desc 0x10 8 ≠ 0 ∧ fieldB x.desc 0x10 8 ≤ c.tide.toNat
     let n := x.port
     let w := c.window n x.window
     let len := 32 + body.length
     let room := roundUp len 64
     let start := w.recTail + BitVec.ofNat 64 (w.recordSkip len)
     let header := sliceB x.desc 0 8 ++ leBytes 4 len ++ [1, 0, 0, 0] ++ sliceB x.digest 0 8 ++ leBytes 4 (crc32c body) ++ leBytes 4 0
     c.ctx k = some x → x.ended = none → x.delivering = false → x.cut = false → (c.port n).linkUp = true → (c.port n).busMaster = true →
     (∀ t, t < c.stageCount x.area → x.stageState t = .completed) →
     (late → Completes s (.deliveryBegin ctx other) (fun d => d.ctx k = some { x with ended := some (0x16, 0) } ∧ d.out = c.out ∧ d.mem = c.mem)) ∧
     (¬ late → room ≤ w.recSize → (w.recordSkip len + room : Nat) ≤ ringRoom w.recSize w.recTail w.recHead →
       ((w.cplQ.filter c.cplReady).length + 1 : Nat) ≤ w.cplRoom →
       Completes s (.deliveryBegin ctx other) (fun d =>
         d.out = (c.busPosts n (w.recBase.toNat / 64 * 64 + start.toNat % w.recSize) (header ++ body) (bit w.ctrl 1) (bit w.ctrl 2)).reverse ++
           c.out ∧
         d.ctx k = some { x with delivering := true, recordBytes := len } ∧
         (d.window n x.window).recTail = start + BitVec.ofNat 64 room ∧ (d.window n x.window).cplQ =
           w.cplQ.filter c.cplReady ++ [.request k] ++ w.cplQ.filter (fun i => !(c.cplReady i)) ∧
         d.mem = c.mem)) ∧
     (¬ late → w.recSize < room → Completes s (.deliveryBegin ctx other) (fun d => d.ctx k = some { x with ended := some (0x14, 0x40000001) })) ∧
     (¬ late → room ≤ w.recSize → ringRoom w.recSize w.recTail w.recHead < (w.recordSkip len + room : Nat) → k ∉ w.waiting →
       Completes s (.deliveryBegin ctx other) (fun d => d = c.setWindow n x.window { w with waiting := w.waiting ++ [k] }))) ∧
  (∀ (s : State) (port : BitVec 2) (window : BitVec 6) (k : Nat) (x : Ctx),
     let c := s.chip
     let n := port.toNat
     let wn := window.toNat
     let w := c.window n wn
     let st := x.outcome
     let phase := if w.cplTail.toNat / w.cplSize % 2 = 0 then 2 ^ 15 else 0
     let entry := sliceB x.desc 0 8 ++ [st.1, BitVec.ofNat 8 (fieldB x.desc 0x08 1 % 4)] ++ leBytes 2 (c.self + phase) ++
       sliceB x.desc 0x0C 4 ++ leBytes 4 (2 ^ 31 + k) ++ leBytes 4 (if 0x10 ≤ st.1.toNat then 0 else x.recordBytes) ++
       leBytes 4 st.2.toNat ++ leBytes 4 (Nat.min (c.tide.toNat - x.arrival.toNat) (2 ^ 32 - 1))
     (c.port n).linkUp = true → (c.port n).busMaster = true →
     (w.cplQ.find? c.cplReady = some (.request k) → c.ctx k = some x → x.port = n → x.window = wn → x.cut = false → 1 ≤ w.cplRoom →
       Completes s (.completionRecord port window) (fun d =>
         d.ctx k = none ∧ (∀ j, j ≠ k → d.ctx j = c.ctx j) ∧ (d.window n wn).cplTail = w.cplTail + 1 ∧
         (d.window n wn).cplQ = w.cplQ.erase (.request k) ∧ (d.window n wn).active = w.active - 1 ∧ d.mem = c.mem ∧
         ∃ l, d.out = l ++ .busWrite n (w.cplBase.toNat / 64 * 64 + 32 * (w.cplTail.toNat % w.cplSize)) entry false false :: c.out)) ∧
     (bit w.irq 63 = true → bits w.irq 47 32 ≠ 0 → 0 < w.irqCount →
       Completes s (.irqDelayExpiry port window) (fun d => d = (c.setWindow n wn { w with irqCount := 0 }).msix n (bits w.irq 58 48))))

/-- Function Level Reset, PERST, link down and Bus Master Enable = 0 take a port's queued descriptors and its waiting entries of descriptors, counted as
discarded; Requests admitted through it run on, cut off from delivery. The first three also reset the port's registers, and no window counts those
Requests any more; without a reset a window keeps counting them. Other ports keep all. -/
def Obligations.PortsAreCutOff : Prop :=
  ∀ (s : State) (port : BitVec 2) (k : Nat) (x : Ctx),
    let c := s.chip
    let n := port.toNat
    let p := c.port n
    let lost := p.windows.foldl (fun a w => a + (w.2.cplQ.filter (fun i => !i.isRequest)).length) 0
    let left := fun (x : Window) => x.cplQ.filter CplItem.isRequest
    let cut := fun (d : Chip) (reset up perst master : Bool) =>
      (d.port n).linkUp = up ∧ (d.port n).perst = perst ∧ (d.port n).busMaster = master ∧ (d.port n).access = p.access ∧
      (d.port n).discarded = p.discarded + BitVec.ofNat 64 lost ∧
      (∀ w, d.window n w = if reset then { Window.reset with cplQ := left (c.window n w) }
        else { c.window n w with queue := [], waiting := [], cplQ := left (c.window n w) }) ∧
      (reset = true → (d.port n).errVec = 0 ∧ (d.port n).aper = 0 ∧ (d.port n).fabWin = 0 ∧ (d.port n).msix = [] ∧ (d.port n).pba = []) ∧
      (reset = false → (d.port n).errVec = p.errVec ∧ (d.port n).aper = p.aper ∧ (d.port n).msix = p.msix) ∧
      (c.ctx k = some x → d.ctx k = some (if x.port = n then { x with cut := true, gone := x.gone || reset } else x)) ∧
      (∀ m, m ≠ n → d.port m = c.port m) ∧ d.mem = c.mem ∧ d.cores = c.cores
    (p.linkUp = true →
      Completes s (.functionLevelReset port) (fun d => cut d true true p.perst p.busMaster) ∧
      Completes s (.pcieLinkDown port) (fun d => cut d true false p.perst p.busMaster) ∧
      Completes s (.busMasterDisable port) (fun d => cut d false true p.perst false)) ∧
    Completes s (.perstAssert port) (fun d => cut d true false true p.busMaster) ∧
    Completes s (.perstRelease port) (fun d => d = c.setPort n { p with perst := false }) ∧
    (∀ (rate width : BitVec 4) (payload : BitVec 3), payload.toNat ≤ 5 → 1 ≤ rate.toNat → rate.toNat ≤ 6 → width.toNat ≤ 4 → c.hubOn = true → c.rst.ready = true → p.perst = false →
      p.linkUp = false → c.mc.recovery = false →
      Completes s (.pcieLinkUp port rate ⟨width, payload⟩) (fun d =>
        d = c.setPort n { p with linkUp := true, busMaster := true, rate := rate, width := width, payload := payload }))

/-- A completion of a read under its tag brings the next of its bytes to the engine that asked for it, and the read gives its tag back when it has them
all; an error or a timeout ends the Request with 0x10 and code 1, and gives the tag back. BAR4 reaches HBM at PORT_APER.BASE while PORTn_ACCESS allows
it: a write stores its bytes and no other, a read returns them; what HBM does not take, a write-protected region among it, sets PORT_ERR bit 3, or is
aborted; a poisoned write is discarded (log 26). BAR5 reaches the registers of this package, or sends a message to the package that PORT_FAB_WIN
names. -/
def Obligations.PortReadsAndBars : Prop :=
  (∀ (s : State) (port : BitVec 2) (tag : BitVec 14) (data : List Byte) (f e : Nat) (r : BusRead) (x : EngCmd) (q : Ctx),
     let c := s.chip
     let n := port.toNat
     let key := busKey n (r.addr + r.done)
     let g := (c.core f).engine e
     let others := (c.port n).reads.filter (fun a => a.tag ≠ tag.toNat)
     let ended := fun (d : Chip) => d.ctx x.ctx = some { q with ended := some (0x10,
       BitVec.ofNat 32 (f * 2 ^ 24 + 2 ^ 23 + e * 2 ^ 20 + x.seq.toNat % 4096 * 256 + 1)) } ∧ (d.port n).reads = others ∧ d.mem = c.mem
     f < 64 → e < 6 → (c.port n).readOf tag.toNat = some r → r.reader = .engine f e x.seq → g.current = some x → data.length ≤ 4096 →
     ((c.port n).linkUp = true → data.length ≤ r.len - r.done → Completes s (.pcieReadCompletion port tag data none) (fun d =>
       (∀ i, i < data.length → SMap.find ((d.core f).engine e).got (key + i) = data[i]?) ∧
       ((d.core f).engine e).wait = none ∧ ((d.core f).engine e).queue = g.queue ∧ d.mem = c.mem ∧
       (d.port n).reads = if r.len ≤ r.done + data.length then others
         else (c.port n).reads.map (fun a => if a.tag = tag.toNat then { a with done := a.done + data.length } else a))) ∧
     (c.ctx x.ctx = some q → q.ended = none → q.delivering = false →
       Completes s (.pcieCompletionTimeout port tag) ended ∧
       ((c.port n).linkUp = true → ∀ err, Completes s (.pcieReadCompletion port tag data (some err)) ended))) ∧
  (∀ (s : State) (port : BitVec 2) (offset : BitVec 28) (data : List Byte) (len : Nat) (off : BitVec 24) (size : Nat) (v : Word), s.memOk →
     let c := s.chip
     let n := port.toNat
     let p := c.port n
     let a := bits p.aper 49 28 * 2 ^ 28 + offset.toNat
     let o := off.toNat
     let pkg := bits p.fabWin 11 0
     p.linkUp = true →
     (data ≠ [] → data.length ≤ 4096 → offset.toNat + data.length ≤ 2 ^ 28 → p.access.getLsbD 1 = true → c.hbmWaits a = false →
       (c.hbmTakes a data.length = true → Completes s (.bar4Write port offset ⟨data, false⟩) (fun d =>
         (∀ i, i < data.length → some (Mem.read d.mem (a + i)) = data[i]?) ∧
         (∀ b, b < a ∨ a + data.length ≤ b → Mem.read d.mem b = Mem.read c.mem b) ∧ d.ports = c.ports)) ∧
       (c.hbmTakes a data.length = false → Completes s (.bar4Write port offset ⟨data, false⟩) (fun d =>
         (d.port n).err.getLsbD 3 = true ∧ d.mem = c.mem)) ∧
       Completes s (.bar4Write port offset ⟨data, true⟩) (fun d => (d.port n).err.getLsbD 5 = true ∧ d.mem = c.mem)) ∧
     (1 ≤ len → len ≤ 4096 → offset.toNat + len ≤ 2 ^ 28 →
       (p.access.getLsbD 1 = true → c.hbmWaits a = false → c.hbmTakes a len = true →
         Completes s (.bar4Read port offset len) (fun d => d = c.emit (.readData n ((List.range len).map (fun i => Mem.read c.mem (a + i)))))) ∧
       (p.access.getLsbD 1 = true → c.hbmWaits a = false → c.hbmTakes a len = false →
         Completes s (.bar4Read port offset len) (fun d => d = c.emit (.completerAbort n))) ∧
       (p.access.getLsbD 1 = false → Completes s (.bar4Read port offset len) (fun d => d = c.emit (.readData n (List.replicate len 0))))) ∧
     (p.access.getLsbD 2 = true → regAligned o size = true →
       (pkg = c.self → Completes s (.bar5Access port off size .read) (fun d => d = c.emit (.readWord n (regLoad c o size)))) ∧
       (pkg = c.self → Completes s (.bar5Access port off size (.write v)) (fun d => d = c.regStore false o size v)) ∧
       (pkg ≠ c.self → c.inGeom pkg = false → Completes s (.bar5Access port off size .read) (fun d => (d.port n).err.getLsbD 4 = true ∧
         ∃ l, d.out = .readWord n (BitVec.ofNat 64 (2 ^ (8 * size) - 1)) :: l))))

/-- A register write over BAR0 reaches the register of its offset: a scratch register holds the 8 bytes, or its half the 4 bytes, and reads them back; a
W1C bit written 1 clears; RO registers and reserved offsets take nothing; an access of another size or alignment sets PORT_ERR bit 2, changes no
register and reads 0. A read answers the register, over BAR3 the port's own; BAR0 reads 0 while its access bit is clear, and BAR2 always. BAR1 takes
and shows the MSI-X table. A register message reads a register and is answered with it, writes one with the powers of a message and not of a session,
and brings a register's value to the port whose BAR5 asked for it. -/
def Obligations.RegisterWrites : Prop :=
  (∀ (s : State) (port : BitVec 2) (v : Word) (off : BitVec 24) (size : Nat),
     let c := s.chip
     let n := port.toNat
     let o := off.toNat
     let w := fun (o : BitVec 24) (size : Nat) => Instr.registerWrite (.bar0 port) o size (.write v)
     let answers := fun (p : Path) (u : Word) => Completes s (.registerWrite p off size .read) (fun d => d = c.emit (.readWord n u))
     let bad := fun (p : Path) => Completes s (.registerWrite p off size .read) (fun d => (d.port n).err.getLsbD 2 = true ∧
       (∃ l, d.out = .readWord n 0 :: l) ∧ d.scratch = c.scratch ∧ d.mem = c.mem)
     (c.port n).linkUp = true →
     ((c.port n).access.getLsbD 0 = true → c.rst.por = true → c.rst.held = false →
       Completes s (w 0x20 8) (fun d => regRead d 0x20 = v ∧ regRead d 0x28 = regRead c 0x28 ∧ { d with scratch := c.scratch } = c) ∧
       Completes s (w 0x28 8) (fun d => regRead d 0x28 = v ∧ regRead d 0x20 = regRead c 0x20 ∧ { d with scratch := c.scratch } = c) ∧
       Completes s (w 0x20 4) (fun d => bits (regRead d 0x20) 31 0 = bits v 31 0 ∧ bits (regRead d 0x20) 63 32 = bits (regRead c 0x20) 63 32) ∧
       Completes s (w 0x24 4) (fun d => bits (regRead d 0x20) 63 32 = bits v 31 0 ∧ bits (regRead d 0x20) 31 0 = bits (regRead c 0x20) 31 0) ∧
       (∀ o : BitVec 24, o.toNat % 8 = 0 → o.toNat < 0x20 ∨ (0x30 ≤ o.toNat ∧ o.toNat < 0x10000) → Completes s (w o 8) (fun d => d = c)) ∧
       Completes s (w 0xC0030 8) (fun d => ∀ i, i < 6 → d.mc.events.getLsbD i = (c.mc.events.getLsbD i && !(bit v i))) ∧
       (regAligned o size = false → bad (.bar0 port) ∧
         Completes s (w off size) (fun d => (d.port n).err.getLsbD 2 = true ∧ d.scratch = c.scratch ∧ d.mem = c.mem)) ∧
       (o % 8 = 0 → size = 8 → answers (.bar0 port) (regRead c o))) ∧
     ((c.port n).access.getLsbD 0 = false → answers (.bar0 port) 0 ∧ Completes s (w off size) (fun d => d = c)) ∧
     answers (.bar2 port) 0 ∧
     (o < 0x10000 → o % 8 = 0 → size = 8 → answers (.bar3 port) (regRead c (0x50000 + 0x10000 * n + o))) ∧
     (o < 0x10000 → regAligned (0x50000 + 0x10000 * n + o) size = false → bad (.bar3 port)) ∧
     (o < 0x8000 → size = 8 →
       (o % 16 = 0 → answers (.bar1 port) (SMap.get MsixEntry.reset (c.port n).msix (o / 16)).addr ∧
         Completes s (.registerWrite (.bar1 port) off 8 (.write v)) (fun d =>
           SMap.get MsixEntry.reset (d.port n).msix (o / 16) = { SMap.get MsixEntry.reset (c.port n).msix (o / 16) with addr := v })) ∧
       (o % 16 = 8 → Completes s (.registerWrite (.bar1 port) off 8 (.write v)) (fun d =>
         SMap.get MsixEntry.reset (d.port n).msix (o / 16) =
           { SMap.get MsixEntry.reset (c.port n).msix (o / 16) with data := v.setWidth 32, masked := bit v 32 })))) ∧
  (∀ (s : State) (m : Msg) (v : Word), s.chip.Receives m →
     let c := s.chip
     let o := bits m.addr 49 0
     let reply := { c.blankMsg 0x43 m.src.toNat with addr := m.addr, txn := m.txn, len := 8, data := leBytes 8 (regRead c o).toNat }
     (o % 8 = 0 → m.len = 8 → m.src.toNat ∈ c.net.live → Completes s (.mregRd m) (fun d => d = c.send reply)) ∧
     (o % 8 = 0 → m.len = 8 → m.data = leBytes 8 v.toNat →
       Completes s (.mregWr m) (fun d => d = c.regStore false o 8 v) ∧
       (o = 0x20 → Completes s (.mregWr m) (fun d => regRead d 0x20 = v ∧ { d with scratch := c.scratch } = c))) ∧
     (o % 8 ≠ 0 → m.len = 8 → Completes s (.mregWr m) (fun d => d = c)) ∧
     (1 ≤ m.txn.toNat → m.txn.toNat ≤ 4 → m.len = 8 → m.data = leBytes 8 v.toNat → Completes s (.mregData m) (fun d =>
       d = c.emit (.readWord (m.txn.toNat - 1) v))))

/-- VERIFY copies the staged image into the staging area and is then VERIFYING, or is BAD_FORMAT at once where the staging registers are out of range; its
end is BAD_SIGNATURE, BAD_FORMAT or VALID, the first condition that fails deciding. The staging registers take writes unless VERIFYING. -/
def Obligations.RecipeVerify : Prop :=
  ∀ (s : State) (v : Word), s.memOk → s.chip.blackout = false →
    let c := s.chip
    let r := c.rcp
    let from_ := r.stageAddr.toNat
    let len := r.stageLen.toNat
    let to_ := areaBase r.stageArea
    let trailer := r.imageLen - 256
    let digest := sha384 (c.bytes to_ trailer)
    (r.busy = none → r.stageStatus ≠ .verifying → r.stageArea < 5 →
      (512 ≤ len → len ≤ 2 ^ 30 → from_ + len ≤ storeBase → Completes s .verify (fun d =>
        (∀ i, i < len → Mem.read d.mem (to_ + i) = Mem.read c.mem (from_ + i)) ∧
        (∀ a, a < to_ ∨ to_ + len ≤ a → Mem.read d.mem a = Mem.read c.mem a) ∧
        d.rcp = { r with stageStatus := .verifying, imageLen := len })) ∧
      (len < 512 ∨ 2 ^ 30 < len ∨ storeBase < from_ + len → Completes s .verify (fun d =>
        d.rcp = { r with stageStatus := .badFormat } ∧ d.mem = c.mem))) ∧
    (r.stageStatus = .verifying → c.mc.running = true → Completes s .verifyDone (fun d => d.mem = c.mem ∧
      (c.signatureOk r.stageArea trailer digest = false → d.rcp = { r with stageStatus := .badSignature, stageDigest := digest }) ∧
      (c.signatureOk r.stageArea trailer digest = true → c.formatOk r.stageArea trailer = false →
        d.rcp = { r with stageStatus := .badFormat, stageDigest := digest }) ∧
      (c.signatureOk r.stageArea trailer digest = true → c.formatOk r.stageArea trailer = true →
        d.rcp = { r with stageStatus := .valid, stageDigest := digest }))) ∧
    (r.stageStatus ≠ .verifying →
      Completes s (.stageRegWrite true v) (fun d => d = c.setRcp { r with stageLen := v &&& 0xFFFFFFFF, stageStatus := .idle }) ∧
      Completes s (.stageRegWrite false v) (fun d => d = c.setRcp { r with stageAddr := v &&& 0x3FFFFFFFFF000, stageStatus := .idle })) ∧
    (r.stageStatus = .verifying → (∀ b, Completes s (.stageRegWrite b v) (fun d => d = c)) ∧ (r.busy = none → Completes s .verify (fun d => d = c)))

/-- COMMIT of a VALID image is under way until it is done, and then the slot and the staging area have exchanged areas and the slot is READY with the
image's digest; CLEAR empties a slot; the locked slots take neither. LOCK_REQ holds the lock if the package has left Bring-up, is quiesced and the
digest of the slot digests is the expected one; UNLOCK drops it when quiesced. -/
def Obligations.RecipeSlotsAndLock : Prop :=
  ∀ (s : State) (slot : BitVec 2), s.chip.blackout = false →
    let c := s.chip
    let r := c.rcp
    let n := slot.toNat
    let sum := sha384 ((List.range 4).flatMap (fun i => if (r.slot i).ready then sliceB (r.slot i).digest 0 48 else List.replicate 48 0))
    let want := (List.range 6).flatMap (fun i => leBytes 8 (SMap.get 0 r.expect i).toNat)
    let result := fun (d : Chip) (code : BitVec 3) => d.rcp = { r with lastResult := code } ∧ d.mem = c.mem
    (r.busy = none →
      (r.locked = false → r.stageStatus = .valid → Completes s (.slotCommit slot) (fun d => d = c.setRcp { r with busy := some (.commit n) })) ∧
      (r.locked = false → r.stageStatus ≠ .valid → Completes s (.slotCommit slot) (fun d =>
        d = c.setRcp (r.setSlot n { r.slot n with last := 2 }))) ∧
      (r.locked = true → Completes s (.slotCommit slot) (fun d => d = c) ∧ Completes s (.slotClear slot) (fun d => d = c)) ∧
      (r.locked = false → Completes s (.slotClear slot) (fun d => d = c.setRcp (r.setSlot n { r.slot n with ready := false, digest := [] }))) ∧
      (c.rst.bringupMode = true → Completes s .lockReq (fun d => result d 4)) ∧
      (c.rst.bringupMode = false → c.req.quiesced = false → Completes s .lockReq (fun d => result d 3)) ∧
      (c.rst.bringupMode = false → c.req.quiesced = true → sum ≠ want → Completes s .lockReq (fun d => result d 2)) ∧
      (c.rst.bringupMode = false → c.req.quiesced = true → sum = want → Completes s .lockReq (fun d =>
        d.rcp = { r with locked := true, lockDigest := sum, lastResult := 1 } ∧ d.mc.jtagOpen = false ∧ d.mem = c.mem)) ∧
      (c.req.quiesced = false → Completes s .unlock (fun d => result d 5)) ∧
      (c.req.quiesced = true → Completes s .unlock (fun d => d.rcp = { r with locked := false, lockDigest := [], lastResult := 6 } ∧ d.mem = c.mem))) ∧
    (r.busy = some (.commit n) → r.queue = [] → Completes s .slotCommitDone (fun d =>
      d.rcp.area n = r.stageArea ∧ d.rcp.stageArea = r.area n ∧ (∀ m, m < 4 → m ≠ n → d.rcp.area m = r.area m) ∧
      d.rcp.slot n = { ready := true, last := 1, digest := r.stageDigest } ∧ (∀ m, m ≠ n → d.rcp.slot m = r.slot m) ∧
      d.rcp.stageStatus = .idle ∧ d.rcp.busy = none ∧ d.rcp.locked = r.locked ∧ d.mem = c.mem))

/-! Tables, arbiters and messages. -/

/-- A write of a table's register sets VERSION to 0 and drops the table from the Remap Directory, the Poison List, the hot set and the tracker, and no
other table; nothing is written while the Recipe Lock is held. The end of a measurement epoch takes the hot set from the tracked rows at or above
their threshold, keeps the channel loads and starts anew. A migration moves the slice to its new slot, and the Remap Directory names it. -/
def Obligations.EmbeddingTables : Prop :=
  ∀ (s : State) (table : BitVec 6) (v : Word), s.memOk →
    let c := s.chip
    let n := table.toNat
    let t := c.table n
    let e := c.emb
    let purged := fun (d : Chip) => d.emb.remap = e.remap.filter (fun x => x.table ≠ n) ∧ d.emb.poison = e.poison.filter (fun x => x.1 ≠ n) ∧
      d.emb.hot = e.hot.filter (fun x => x.1 ≠ n) ∧ d.emb.tracker = e.tracker.filter (fun x => x.table ≠ n) ∧
      (∀ k, k ≠ n → d.table k = c.table k) ∧ d.mem = c.mem
    (c.blackout = false → c.locked = false →
      Completes s (.tableRegWrite table .rows v) (fun d => purged d ∧ d.table n = { t with rows := BitVec.ofNat 64 (bits v 39 0), version := 0 }) ∧
      Completes s (.tableRegWrite table .base v) (fun d => purged d ∧ d.table n = { t with base := BitVec.ofNat 64 (bits v 49 0), version := 0 }) ∧
      Completes s (.tableRegWrite table .salt v) (fun d => purged d ∧ d.table n = { t with salt := v, version := 0 }) ∧
      Completes s (.tableRegWrite table .spare v) (fun d => purged d ∧ d.table n = { t with spare := BitVec.ofNat 64 (bits v 16 0), version := 0 }) ∧
      Completes s (.tableRegWrite table .cfg v) (fun d => purged d ∧ (d.table n).version = 0 ∧
        ∀ i, bit (d.table n).cfg i = (bit v i && !(decide (13 ≤ i ∧ i ≤ 27))))) ∧
    (c.blackout = false → c.locked = true → ∀ r, Completes s (.tableRegWrite table r v) (fun d => d = c)) ∧
    (c.measuring = true → Completes s .measEpochEnd (fun d =>
      d.emb.tracker = [] ∧ d.emb.load = [] ∧ d.emb.hotBad = [] ∧ (∀ ch, SMap.get 0 d.emb.shload ch = BitVec.ofNat 64 (SMap.get 0 e.load ch)) ∧
      (∀ q ∈ d.emb.hot, ∃ x ∈ e.tracker, x.table = q.1 ∧ x.row = q.2 ∧ bit (c.table x.table).cfg 61 = true ∧
        (c.table x.table).threshold ≤ x.count) ∧ d.emb.remap = e.remap ∧ d.mem = c.mem)) ∧
    (∀ (m : Remap) (rest : List Remap), e.moves = m :: rest →
      let len := (c.table m.table).slice c.groupSize
      let from_ := c.placeOffsets m.table (c.rowPlace m.table m.row) len
      let to_ := c.placeOffsets m.table (m.channel, m.place) len
      (∀ o ∈ to_, o < basinBase) →
      Completes s .migrationCommit (fun d => d.rowPlace m.table m.row = (m.channel, m.place) ∧ d.emb.moves = rest ∧
        (d.table m.table).version = (c.table m.table).version + 1 ∧
        (∀ i o q : Nat, to_[i]? = some o → from_[i]? = some q → Mem.read d.mem o = Mem.read c.mem q) ∧
        (∀ a, a ∉ to_ → Mem.read d.mem a = Mem.read c.mem a)))

/-- A slice read of one row of this package is answered with the row's slice and counted; an uncorrectable error in HBM puts the row on the Poison List
and is answered with poison. An answer reaches the engine that asked for the slice. -/
def Obligations.SliceReads : Prop :=
  ∀ (s : State) (m : Msg) (fc : Nat) (x : EngCmd) (key : Nat),
    let c := s.chip
    let t := bits m.addr 5 0
    let row := fieldB m.data 0 8
    let die := channelDie (c.rowPlace t row).1
    let reply := { c.blankMsg 0x51 m.src.toNat with addr := m.addr, position := BitVec.ofNat 64 row, ctx := m.ctx }
    let poison := { c.blankMsg 0x1F m.src.toNat with addr := m.addr, position := BitVec.ofNat 64 row, ctx := m.ctx, cause := 2, len := 8 }
    let offs := c.placeOffsets t (c.rowPlace t row) ((c.table t).slice c.groupSize)
    let g := (c.core fc).engine 1
    c.Receives m →
    (c.tagOk m = true → m.len = 8 → (∀ o ∈ offs, rowOf o = some .hbm ∧ c.HomeAt o 1) → c.poisoned t row = false →
      Completes s (.sliceRd m false) (fun d =>
        d = ((lineStarts offs).foldl (fun c o => c.memAccess (farRequester m.src.toNat) 2 none o) (c.countSlice t row die)).send
          { reply with data := offs.map (fun o => Mem.read c.mem o) }) ∧
      (c.hotRow t row die = false → Completes s (.sliceRd m true) (fun d =>
        d = ((c.countSlice t row die).poisonRow t row).send poison ∧ (c.emb.poison.length < 1024 → d.poisoned t row = true))) ∧
      (c.hotRow t row die = true → Completes s (.sliceRd m true) (fun d => d.hotRow t row die = false ∧ d.mem = c.mem))) ∧
    (c.tagOk m = true → m.len = 8 → offs.all (fun o => (c.homeWait { pkg := none, off := o, row := .hbm, ty := 0, wp := false }).isNone) = true →
      c.poisoned t row = true → m.cause = 1 → Completes s (.sliceRd m false) (fun d => d = (c.countPoison t row).send poison)) ∧
    (fc < 64 → c.conf.merges.find? (fun e => e.answered { m with mtype := 0x51 }) = none →
      (∀ f, f < 64 → f ≠ fc → ((c.core f).engine 1).current = none) → g.current = some x → x.ctx = m.ctx.toNat % 2 ^ 17 → g.asked = [key] →
      key = sliceKey t m.position.toNat (c.rank m.src.toNat % c.groupSize) (key % 2 ^ 21) → m.position.toNat < 2 ^ 40 →
      Completes s (.sliceData m) (fun d =>
        (∀ i, i < m.data.length → SMap.find ((d.core fc).engine 1).got (sliceAt key + i) = m.data[i]?) ∧
        ((d.core fc).engine 1).asked = [] ∧ ((d.core fc).engine 1).wait = none ∧ ((d.core fc).engine 1).queue = g.queue ∧ d.mem = c.mem))

/-- DEADLINE grants the tagged access with the earliest EMPTY_AT of those that wait, and of equal ones the one that came first and has the lower
requester; an untagged one where none is tagged, or where the run of 64 grants would hold fewer than FLOOR untagged ones. SPLIT grants an access of a
class that is furthest behind its share where one waits. What is granted leaves the arbiter and no data changes: a channel serves it, and a Basin
slice serves a line that it holds or passes the access on to its channel. -/
def Obligations.ArbiterGrants : Prop :=
  ∀ (s : State) (home : ArbHome) (n : Nat) (x : Waiting),
    let a := home.index n
    let c := s.chip
    let b := c.arb a
    let l := c.waitingAt a
    let plain := l.filter (fun y => y.emptyAt.isNone)
    let given := (b.recent.filter (fun k => !k.2)).length + (63 - b.recent.length)
    let goes := fun (d : Chip) (k : Nat) (y : Waiting) =>
      d.arb a = { b with recent := ((k, y.emptyAt.isSome) :: b.recent).take 63, last := some y } ∧ (∀ j, j ≠ a → d.arb j = c.arb j) ∧ d.mem = c.mem ∧
      (a < 96 → d.waitingAt a = l.erase y ∧ (∀ j, j ≠ a → d.waitingAt j = c.waitingAt j)) ∧
      (96 ≤ a → d.waitingAt a = l.erase y ∧
        (y.off / 64 ∉ c.linesOf (a - 96) → ∃ i, d.waitingAt (channelOf y.off) = c.waitingAt (channelOf y.off) ++ [{ y with arrival := i }]))
    n < home.count → (∀ y ∈ l, y.cls ≤ 2) → x ∈ l →
    (bits b.ctl 33 32 ≠ 1 →
      (x.emptyAt.isSome = true → (∀ y ∈ l, y.emptyAt.isSome = true → y ≠ x → tagBefore x y = true) → plain = [] ∨ b.floor ≤ given →
        Completes s (.arbGrant home n) (fun d => goes d x.cls x)) ∧
      ((∀ y ∈ l, y.emptyAt = none) ∨ (plain ≠ [] ∧ given < b.floor) →
        Completes s (.arbGrant home n) (fun d => ∃ y ∈ plain, goes d y.cls y))) ∧
    (bits b.ctl 33 32 = 1 → (∀ k, k ≤ 2 → k ∈ b.due → ∃ y ∈ l, y.cls = k) →
      Completes s (.arbGrant home n) (fun d => ∃ y ∈ l, y.cls ∈ b.due ∧ goes d y.cls y))

/-- Requests of another package for this one's memory, with the lock tag, each an access of class REMOTE at the arbiter of its home slice, RD and WR with
their EMPTY_AT (R240, R241): RD answers the bytes, WR, BULK_WR and BCAST_DATA store them and acknowledge, RSV_RD keeps a reservation, STC stores only
under it, a prefetch hint does nothing, a Short Message is written and notified. A wrong tag is refused; a home without power keeps the message. A
Short Message without notification is written into its Pool and acknowledged at once; one that notifies waits at its core, and its delivery writes it,
puts its handle into DEST_HQ and returns the sender's credit. -/
def Obligations.RequestsAndMessagesArrive : Prop :=
  (∀ (s : State) (m : Msg), s.memOk → s.chip.Receives m →
     let c := s.chip
     let o := bits m.addr 49 0
     let n := if m.len.toNat % 64 = 0 then 64 else m.len.toNat % 64
     let data := sliceB m.data 0 n
     let at_ := fun (tag : Option Word) => c.memAccess (farRequester m.src.toNat) 2 tag o
     let emptyAt := if m.position = 0 then none else some m.position
     let stored := fun (d : Chip) (n : Nat) => (∀ i, i < n → some (Mem.read d.mem (o + i)) = (sliceB m.data 0 n)[i]?) ∧
       ∀ a, a < o ∨ o + n ≤ a → Mem.read d.mem a = Mem.read c.mem a
     (c.tagOk m = true → c.HomeAt o n →
       Completes s (.rd m) (fun d => d = (at_ emptyAt).answer m 0x11 (c.bytes o n)) ∧
       Completes s (.wr m) (fun d => stored d n ∧ d = ((at_ emptyAt).putAt o data).answer m 0x12 []) ∧
       Completes s (.bcastData m) (fun d => stored d n ∧ d = ((at_ none).putAt o data).answer m 0x12 []) ∧
       (c.conf.a2a = [] → Completes s (.bulkWr m) (fun d => stored d n ∧ d = ((at_ none).putAt o data).answer m 0x12 []))) ∧
     (c.tagOk m = true → c.HomeAt o 8 →
       Completes s (.rsvRd m) (fun d => d.reservedHome m.src.toNat (msgHolder m) o = true ∧ d.mem = c.mem ∧
         d = ((at_ none).reserveHome m.src.toNat (msgHolder m) o).answer m 0x11 (c.bytes o 8)) ∧
       (c.reservedHome m.src.toNat (msgHolder m) o = true → Completes s (.stc m) (fun d => stored d 8 ∧
         d.reservedHome m.src.toNat (msgHolder m) o = false ∧
         d = (((at_ none).putAt o (sliceB m.data 0 8)).unreserveHome m.src.toNat (msgHolder m)).answer m 0x13 [0])) ∧
       (c.reservedHome m.src.toNat (msgHolder m) o = false → Completes s (.stc m) (fun d => d.mem = c.mem ∧
         d = (c.unreserveHome m.src.toNat (msgHolder m)).answer m 0x13 [1]))) ∧
     Completes s (.pfhMessage m) (fun d => d = c) ∧
     (c.tagOk m = false → Completes s (.rd m) (fun d => d = c.refuseTag m false) ∧ Completes s (.wr m) (fun d => d = c.refuseTag m false) ∧
       Completes s (.smsgMessage m) (fun d => d = c.refuseTag m false)) ∧
     (c.tagOk m = true → ∀ w, o < storeBase → c.homeWait { pkg := none, off := o, row := .hbm, ty := 0, wp := false } = some w →
       Completes s (.rd m) (fun d => d = { c with net := { c.net with inbox := c.net.inbox ++ [{ m with mtype := 0x01 }] } }))) ∧
  (∀ (s : State) (m : Msg) (fc : BitVec 6) (rest : List Msg), s.memOk →
     let c := s.chip
     let f := fc.toNat
     let o := bits m.addr 49 0
     let q := fieldB m.data 0x0C 1 % 128
     let size := 16 + Nat.min 48 (fieldB m.data 0x0D 1)
     let written := fun (d : Chip) => (∀ i, i < 64 → some (Mem.read d.mem (o + i)) = (sliceB (m.data.take size) 0 64)[i]?) ∧
       ∀ a, a < o ∨ o + 64 ≤ a → Mem.read d.mem a = Mem.read c.mem a
     poolBase ≤ o → o + 64 ≤ poolBase + 64 * poolSize →
     (c.Receives m → c.tagOk m = true → Msg.notify m = false → m.src.toNat ≠ c.self → Completes s (.smsgMessage m) (fun d => written d)) ∧
     (c.Receives m → c.tagOk m = true → Msg.notify m = true → (o - poolBase) / poolSize = f → Completes s (.smsgMessage m) (fun d =>
       d.mem = c.mem ∧ (d.core f).smWaiting = (c.core f).smWaiting ++ [{ m with mtype := 0x31 }])) ∧
     ((c.core f).smWaiting = m :: rest → Msg.notify m = true → c.hqRoom f q = true → m.src.toNat ≠ c.self →
       Completes s (.smsgDeliver fc) (fun d => written d ∧ (d.core f).smWaiting = rest ∧
         d.hq f q = c.hq f q ++ [{ val := BitVec.ofNat 64 (fieldB m.data 8 4), ctx := none }])))

/-- The answers to this package's own operations: RD_DATA completes a load with its value, RSV_RESULT gives STCV its result, WR_ACK and SM_ACK free the
tracker. A REFUSE by lock tag and an operation without answer for REMOTE_TIMEOUT end the Request with ABORT_REMOTE and the package in DETAIL. -/
def Obligations.AnswersReachTheirIssuers : Prop :=
  ∀ (s : State) (m : Msg) (t : Trk) (l : Loc) (rd : Reg) (size : Nat) (sgn : Bool) (q : Ctx),
    let c := s.chip
    let f := l.fc.toNat
    let x := c.slot l
    let freed := fun (d : Chip) => (d.core f).trks = (c.core f).trks.filter (fun u => u.id ≠ t.id) ∧ d.mem = c.mem
    let pend := fun (dst : LoadDst) => x.pend = some { dst := dst, want := [(t.id, 0)], got := [] }
    let after := fun (v : Word) => { x.setX rd v with pc := x.pc + 4, wait := none, pend := none }
    let value := leNat ((sliceB m.data 0 t.size).take 8)
    let lost := fun (d : Chip) (byTag : Nat) => freed d ∧ d.ctx t.ctx = some { q with ended := some (0x15,
      BitVec.ofNat 32 (m.src.toNat + byTag * 4096)) }
    f = m.txn.toNat / 1024 → c.trkOf m = some t →
    (c.Receives m → t.holder = .slot l.slot.toNat →
      (t.kind = .read → pend (.scalar rd size sgn) → Completes s (.rdData m) (fun d => freed d ∧
        d.slot l = after (extend size sgn (value % 2 ^ 64)))) ∧
      (t.kind = .storeCond → pend (.storeCond rd) → Completes s (.rsvResult m) (fun d => freed d ∧ d.slot l = after (BitVec.ofNat 64 value)))) ∧
    (c.Receives m → t.kind = .write ∨ t.kind = .bulk ∨ t.kind = .bcast → Completes s (.wrAck m) freed) ∧
    (c.Receives m → t.kind = .storeBuf → Completes s (.wrAck m) (fun d => freed d ∧
      (d.core f).storeBuf = (c.core f).storeBuf.filter (fun e => !(e.sent && e.trk = t.id)))) ∧
    (c.Receives m → t.kind = .message → Completes s (.smAck m) freed) ∧
    (t.holder ≠ .gone → c.ctx t.ctx = some q → q.ended = none → q.delivering = false →
      (c.Receives m → m.cause = 1 → m.len ≠ 8 → m.position = 0 → Completes s (.refuse m) (fun d => lost d 1)) ∧
      (t.pkg ≠ c.self → (c.core f).trks.find? (fun u => u.id = t.id && u.pkg ≠ c.self) = some t →
        Completes s (.remoteTimeout l.fc (BitVec.ofNat 10 t.id)) (fun d => lost d 0)))

/-- Collectives with the lock tag: the first JOIN opens one at its root, a chunk rises in the tree of one that is not complete, a list waits for the
others, a RESULT completes the reductions that joined, or ends the Requests of a collective with its error; the first A2A_COUNT of several opens a
receiver, and an A2A_OFFSET is kept by the command that asked. A wrong tag is refused. -/
def Obligations.CollectiveMessages : Prop :=
  ∀ (s : State) (m : Msg) (r : Root) (fc : Nat) (x : EngCmd), s.chip.Receives m →
    let c := s.chip
    let name := bits m.addr 31 0
    let root := bits m.addr 43 32
    let typed := fun (t : Byte) => { m with mtype := t }
    let known := fun (b : Bool) => c.conf.roots.find? (fun q => q.hist = b ∧ q.name = name) = some r ∧ r.hist = b ∧ r.ended = none
    let tree := fun (n : Nat) (k : Chunk) => c.setRoot { r with leaves := r.leaves + n, chunks := climb 32 k r.chunks } false
    let chunk := chunkOf (typed 0x21)
    let counts := chunkOf (typed 0x22)
    let j := joinerOf m
    let e := if m.position = 0 then 2 else 3
    (c.tagOk m = true →
      (known false → r.allSeen = false →
        Completes s (.contrib m) (fun d => d = tree chunk.leafCount { chunk with chunk := r.chunkNumber chunk })) ∧
      (known true → r.allSeen = false → bits m.position 20 16 ≠ 31 → counts.chunk / 1024 = 0 →
        Completes s (.hist m) (fun d => d = tree counts.leafCount counts)) ∧
      (known true → r.allSeen = false → bits m.position 20 16 ≠ 31 → counts.chunk / 1024 ≠ 0 → r.pass ≠ 0 →
        Completes s (.hist m) (fun d => d = tree 0 counts)) ∧
      (known true → bits m.position 20 16 = 31 → r.pass ≠ 0 → r.lists.length + 1 < r.count →
        Completes s (.hist m) (fun d => d = c.setRoot { r with lists :=
          ((List.range (m.data.length / 8)).map (fun i => fieldB m.data (8 * i) 8)) :: r.lists } false)) ∧
      (c.conf.roots = [] → 2 ≤ j.count → j.part < j.count → Completes s (.join m) (fun d => d = { c with conf := { c.conf with
        roots := [{ hist := decide (m.cause = 1), name := name, count := j.count, joins := [j], absent := 0, chunks := [], pass := 0, leaves := 0,
                    lists := [], ended := none }] } })) ∧
      (c.conf.a2a = [] → 2 ≤ fieldB m.data 2 2 → Completes s (.a2aCount m) (fun d => d = { c with conf := { c.conf with
        a2a := [{ name := name, recv := fieldB m.data 16 8 % 2 ^ 50, cap := fieldB m.data 12 4, parts := fieldB m.data 2 2,
                  rowBytes := fieldB m.data 8 2, counts := [(fieldB m.data 0 2, m.src.toNat, fieldB m.data 4 4)], replied := false, left := 0 }] } }))) ∧
    (fc < 64 → c.joined fc e root name = some x → (∀ f, f < 64 → f ≠ fc → c.joined f e root name = none) →
      (m.cause = 0 → m.position = 0 → Completes s (.result m) (fun d => Worked c d fc 2 x)) ∧
      (m.cause ≠ 0 → m.position = 0 ∨ m.position = 1 → Completes s (.result m) (fun d => d = c.failCmd fc e x.apart 0x14 m.cause.toNat))) ∧
    (c.a2aCmds name = [(fc, x)] → x.field 0x32 2 = fieldB m.data 0 2 → Completes s (.a2aOffset m) (fun d =>
      d = c.setCmd fc 0 { x with sub := planNums ((planOf x.sub.tail).map (fun p =>
        if p.1 = m.src.toNat ∧ p.2.1 = 0 then (p.1, 1, fieldB m.data 8 8) else p)) })) ∧
    (c.tagOk m = false → Completes s (.contrib m) (fun d => d = c.refuseTag (typed 0x21) true) ∧
      Completes s (.join m) (fun d => d = c.refuseTag (typed 0x23) true))

/-! The Text Unit and Video Intake. -/

/-- LOAD checks the range of a vocabulary slot and its end judges the image: READY with its digest, or BAD_FORMAT; CLEAR empties it; nothing changes under
the Recipe Lock. The oldest ready job takes the lowest free lane. A tokenising or detokenising job writes its output and then its record, and its
stage reports; the released bytes and the bytes held back are the stream. -/
def Obligations.TextUnit : Prop :=
  ∀ (s : State) (slot : BitVec 4) (lane : BitVec 2) (j : TextJob) (x : Ctx) (o : TextOut),
    let c := s.chip
    let n := slot.toNat
    let v := c.txu.voc n
    let d0 := c.stageArgs x.area j.stage
    let done := fun (i : Instr) (op : Nat) (body : Voc → Ctx → List Byte → Nat → Rd TextOut) =>
      c.txu.jobs.find? (fun q => q.lane = some lane.toNat) = some j → c.ctx j.ctx = some x → x.ended = none → fieldB d0 0 1 = op → j.sent = false →
      (body (c.txu.voc (fieldB x.desc 0x09 1)) x d0 j.ctx).value (c.unitReader j.got) = .ok o → (∀ w ∈ o.outs ++ o.record, w.isRemote = false) →
      c.unitQuiet .text j.ctx = true →
      Completes s i (fun d => d.mem = (c.unitWrites .text j.ctx (o.outs ++ o.record)).mem ∧
        d.txu.jobs = c.txu.jobs.filter (fun q => !(q.ctx = j.ctx && q.stage = j.stage)) ∧ d.txu.jobCount = c.txu.jobCount + 1 ∧
        d.txu.byteCount = c.txu.byteCount + BitVec.ofNat 64 o.bytes ∧ d.txu.replaced = c.txu.replaced + BitVec.ofNat 64 o.replaced ∧
        ∃ y, d.ctx j.ctx = some y ∧ y.stageState j.stage = .reported)
    (c.blackout = false → c.locked = false → v.state ≠ 1 →
      Completes s (.vocLoad slot) (fun d => d = c.setVoc n { v with state := if v.start + v.size ≤ storeBase then 1 else 3, digest := [], image := [] }) ∧
      Completes s (.vocClear slot) (fun d => (d.txu.voc n).state = 0 ∧ (d.txu.voc n).digest = [] ∧ d.mem = c.mem)) ∧
    (c.locked = true → Completes s (.vocLoad slot) (fun d => d = c) ∧ Completes s (.vocClear slot) (fun d => d = c)) ∧
    (v.state = 1 → Completes s (.vocLoadDone slot) (fun d => d.mem = c.mem ∧
      (c.vocFormat v = true → (d.txu.voc n).state = 2 ∧ (d.txu.voc n).digest = sha384 (c.bytes v.start v.size) ∧
        (d.txu.voc n).image = c.bytes v.start v.size) ∧
      (c.vocFormat v = false → (d.txu.voc n).state = 3))) ∧
    (∀ i : Nat, i < 4 → c.txu.jobs.find? (fun q => q.lane.isNone) = some j → c.laneFree i = true → (∀ k, k < i → c.laneFree k = false) →
      Completes s .textJobStart (fun d => d = c.setTextJob { j with lane := some i })) ∧
    done (.tokenise lane false) 1 tokenise ∧ done (.detokenise lane false) 2 detokenise ∧
    (∀ (hold : Bool) (held : List Byte) (stops strs : List (List Byte)),
      let r := release366 hold held stops strs
      let stream := held ++ strs.flatten
      (r.stop = none → r.bytes ++ r.carry = stream ∧ r.consumed = strs.length ∧ r.carry.length ≤ 63) ∧
      (∀ k, r.stop = some k → (r.bytes ++ stops.getD k []) <+: stream ∧ r.carry = []))

/-- A video job's access units are cut into decode units; the oldest ready unit takes the lowest free stream context and engine; a sample is shaped,
written, noted and handed on; and when every unit has ended, the result record is written and the stage reports. A bitstream without a unit, and
reference pictures that do not fit, end the Request with 0x21; an uncorrectable error in what a sample reads ends it with 0x11. -/
def Obligations.VideoIntake : Prop :=
  ∀ (s : State) (ctx : BitVec 17) (stage : BitVec 12) (sample : Nat) (j : VidJob) (x : Ctx) (u : DecUnit) (ws : List Wr) (input : List Byte),
    let c := s.chip
    let k := ctx.toNat
    let st := stage.toNat
    let d0 := c.stageArgs x.area st
    let parse := cutUnits (fieldB d0 1 1) (Config.videoParse (fieldB d0 1 1) input)
    let views := vjViews d0
    let f := sample / views
    let hq := fieldB d0 0x3C 1
    let samples := u.frameCount (vjCap d0) * views
    let ended := fun (d : Chip) (code : Nat) => d.ctx k = some { x with ended := some (0x21, BitVec.ofNat 32 (0x42 * 2 ^ 24 + code)) } ∧ d.mem = c.mem
    c.vidJob k st = some j → c.ctx k = some x → x.ended = none → x.delivering = false → j.ctx = k → j.stage = st →
    (j.parsed = false → fieldB d0 0 1 = 1 → fieldB d0 1 1 ≤ 2 → (vidInput x d0 k).value (c.unitReader j.got) = .ok input →
      (parse.2 ≠ [] → Completes s (.decodeShape ctx stage false) (fun d =>
        d.vidJob k st = some { j with parsed := true, input := input, frames := (parse.2.map VidUnit.frames).sum,
                                      units := parse.2.length, skipped := parse.1, got := [], asked := [] } ∧
        d.vid.units = c.vid.units ++ numberUnits k st 0 0 parse.2 ∧ d.mem = c.mem)) ∧
      (parse.2 = [] → Completes s (.decodeShape ctx stage false) (fun d => ended d 5))) ∧
    (j.parsed = true → j.units ≤ j.ended → j.sent = false →
      (wrBytes vdWrite (effAddr (BitVec.ofNat 64 (fieldB d0 0x20 8)) (BitVec.ofNat 64 (64 * k))) (vidRecord j views)).value (c.unitReader j.got) = .ok ws →
      (∀ w ∈ ws, w.isRemote = false) → c.unitQuiet .video k = true →
      Completes s (.decodeShape ctx stage false) (fun d => d.mem = (c.unitWrites .video k ws).mem ∧ d.vidJob k st = none ∧
        ∃ y, d.ctx k = some y ∧ y.stageState st = .reported)) ∧
    (∀ e n : Nat, e < 32 → c.vid.units.find? (fun q => q.hold.isNone && (c.live q.ctx).isSome) = some u → u.ctx = k → u.stage = st →
      c.engineFree e = true → (∀ i, i < e → c.engineFree i = false) → n < c.vidContexts → c.streamFree n = true → (∀ i, i < n → c.streamFree i = false) →
      (s.memOk → dpbNeed u.info ≤ c.dpbSize → u.shaped < samples → Completes s .decodeUnitStart (fun d =>
        d.vid.units = c.vid.units.map (fun q => if q.ctx = k ∧ q.stage = st ∧ q.index = u.index then { u with hold := some (n, e) } else q) ∧
        d.vid.jobs = c.vid.jobs)) ∧
      (c.dpbSize < dpbNeed u.info → Completes s .decodeUnitStart (fun d => ended d 3))) ∧
    (c.vid.units.find? (fun q => q.ctx = k && q.stage = st && q.hold.isSome && q.first ≤ f && f < q.first + q.frameCount (vjCap d0)) = some u →
      sample ∉ j.written → (sampleWrites x j d0 (BitVec.ofNat 64 (c.img x.area 0x08 8)) u sample).value (c.unitReader j.got) = .ok ws →
      (∀ w ∈ ws, w.isRemote = false) → c.unitLanded .video k ws = true → u.shaped + 1 < samples →
      (c.unitWrites .video k ws).stageArgs x.area st = d0 →
      (vjFlag d0 2 = true → c.hqRoom (hq / 128 * 32) (64 + hq % 64) = true) →
      Completes s (.sampleEmerge ctx stage ⟨sample, false⟩) (fun d =>
        d.mem = (c.unitWrites .video k ws).mem ∧
        d.vidJob k st = some { j with written := j.written ++ [sample], sending := SMap.erase j.sending sample } ∧
        d.vid.units = c.vid.units.map (fun q => if q.ctx = k ∧ q.stage = st ∧ q.index = u.index then { u with shaped := u.shaped + 1 } else q) ∧
        (vjFlag d0 2 = true → d.hq (hq / 128 * 32) (64 + hq % 64) = c.hq (hq / 128 * 32) (64 + hq % 64) ++
          [{ val := BitVec.ofNat 64 (sample % 65536), ctx := some k }])) ∧
      (sample ∉ j.written → Completes s (.sampleEmerge ctx stage ⟨sample, true⟩) (fun d => d.mem = c.mem ∧
        d.ctx k = some { x with ended := some (0x11, BitVec.ofNat 32 (0x42 * 2 ^ 24 + 0x40)) })))

/-! Links and fabric epochs. -/

/-- A link goes from DETECT to POLL on signal, from POLL to EQ after 64 good frames on every lane and 64 sent after the first, from EQ to CONFIG after 16
EQ_DONE frames sent and 16 received on every lane, and from RETRAIN to CONFIG as from POLL. Eight identical valid TS2 with 16 TS2 sent after the first
received end CONFIG: into ISOLATED with a test and fresh counts, or back into ACTIVE, for which TEST_PASS must be 1. A time-out counts a failure, and
the eighth is FAILED; RETRAIN that runs out takes the link down. EN and the link test work as written. -/
def Obligations.LinkTraining : Prop :=
  ∀ (s : State) (n : Nat) (lane : BitVec 3) (f : LaneFrame) (t : List Byte), n < 24 → t.length = 128 →
    let c := s.chip
    let k := c.link n
    let k1 := k.noteFrame lane.toNat f
    let k2 := k1.moveTaps lane.toNat f
    let ready := fun (q : Link) => q.laneOrder.isSome && allLanes q.laneGood 64 && allLanes q.laneSent 64 && q.skewOk
    let sixteen := fun (q : Link) => allLanes q.laneDone 16 && allLanes q.eqSent 16
    let rest := fun (d : Chip) => (∀ j, j ≠ n → d.link j = c.link j) ∧ d.mem = c.mem ∧ d.cores = c.cores
    let becomes := fun (i : Instr) (k' : Link) => Completes s i (fun d => d.link n = k' ∧ rest d)
    let late := fun (i : Instr) (st : LinkState) =>
      (k.state ≠ st → Completes s i (fun d => d = c)) ∧
      (k.state = st → k.retraining = false → k.fails < 7 → becomes i { k.detect with fails := k.fails + 1 }) ∧
      (k.state = st → k.retraining = false → 7 ≤ k.fails → Completes s i (fun d =>
        (d.link n).state = .failed ∧ (d.link n).err.getLsbD 6 = true ∧ (d.link n).fails = k.fails + 1 ∧ rest d)) ∧
      (k.state = st → k.retraining = true → Completes s i (fun d =>
        (d.link n).state = (if k.fails < 7 then .detect else .failed) ∧ (d.link n).fails = k.fails + 1 ∧
        (7 ≤ k.fails → (d.link n).err.getLsbD 6 = true) ∧ (d.link n).err.getLsbD 5 = true ∧ (d.link n).replay = [] ∧ rest d))
    (k.state = .detect → becomes (.signalDetect n) { k.detect with state := .poll }) ∧
    (k.state ≠ .detect → Completes s (.signalDetect n) (fun d => d = c)) ∧
    (k.state = .poll ∨ k.state = .retrain → ready k1 = false → becomes (.laneFrame n lane f) k1) ∧
    (k.state = .poll ∨ k.state = .retrain → ready k1 = true → Completes s (.laneFrame n lane f) (fun d => (d.link n).state = (if k.state = .poll then .eq else .config) ∧
      some (d.link n).reversed = k1.laneOrder ∧ rest d)) ∧
    (k.state = .eq → sixteen k2 = false → becomes (.laneFrame n lane f) k2) ∧
    (k.state = .eq → sixteen k2 = true → Completes s (.laneFrame n lane f) (fun d => (d.link n).state = .config ∧ (d.link n).before = .eq ∧ rest d)) ∧
    (k.state ≠ .poll → k.state ≠ .retrain → k.state ≠ .eq → becomes (.laneFrame n lane f) k) ∧
    (k.state = .config →
      (tsValid t = false → becomes (.trainingSet n t) { k with tsSame := 0 }) ∧
      (tsValid t = true → fieldB t 0 1 = 1 → becomes (.trainingSet n t) { k with lastTs := t, tsSame := 0 }) ∧
      (tsValid t = true → fieldB t 0 1 = 2 →
        let k3 := { k with lastTs := t, tsSame := if t = k.lastTs then k.tsSame + 1 else 1, ts2Sent := some (k.ts2Sent.getD 0),
                           agreed := if t = k.lastTs ∧ 7 ≤ k.tsSame then t else k.agreed }
        (k3.agreed = [] ∨ k.ts2Sent.getD 0 < 16 → becomes (.trainingSet n t) k3)) ∧
      (tsValid t = true → fieldB t 0 1 = 2 → t = k.lastTs → 7 ≤ k.tsSame → 16 ≤ k.ts2Sent.getD 0 → k.held = [] →
        (k.retraining = false → Completes s (.trainingSet n t) (fun d => (d.link n).state = .isolated ∧ (d.link n).fails = 0 ∧
          (d.link n).testLeft = some k.testLength ∧ (d.link n).testPass = false ∧ (d.link n).peerPkg.toNat = fieldB t 2 2 % 4096 ∧
          (d.link n).peerLink.toNat = fieldB t 4 1 % 32 ∧ (d.link n).txSeq = 0 ∧ (d.link n).replay = [] ∧ rest d)) ∧
        (k.replay = [] → BitVec.ofNat 12 (fieldB t 2 2) = k.peerPkg → BitVec.ofNat 5 (fieldB t 4 1) = k.peerLink →
          (k.before = .active → k.testPass = true → Completes s (.trainingSet n t) (fun d => (d.link n).state = .active ∧
            (d.link n).txSeq = k.txSeq ∧ (d.link n).rxLast = k.rxLast ∧ rest d)) ∧
          (k.before = .isolated ∨ (k.before = .active ∧ k.testPass = false) → Completes s (.trainingSet n t) (fun d =>
            (d.link n).state = .isolated ∧ (d.link n).fails = 0 ∧ (d.link n).testLeft = some k.testLength ∧ (d.link n).testPass = false ∧
            (d.link n).txSeq = k.txSeq ∧ (d.link n).rxLast = k.rxLast ∧ rest d))))) ∧
    (k.state ≠ .config → k.held = [] → becomes (.trainingSet n t) k) ∧
    late (.pollTimeout n) .poll ∧ late (.eqTimeout n) .eq ∧ late (.configTimeout n) .config ∧
    (k.retraining = true → Completes s (.retrainTimeout n) (fun d => (d.link n).state = .detect ∧ (d.link n).err.getLsbD 5 = true ∧
      (d.link n).replay = [] ∧ rest d)) ∧
    (k.retraining = false → Completes s (.retrainTimeout n) (fun d => d = c)) ∧
    Completes s (.linkDisable n) (fun d => (d.link n).state = .disabled ∧ bit (d.link n).ctrl 0 = false ∧
      (k.up = true → (d.link n).err.getLsbD 5 = true ∧ (d.link n).replay = []) ∧ rest d) ∧
    Completes s (.linkEnable n) (fun d => bit (d.link n).ctrl 0 = true ∧ rest d ∧
      (c.phyOn n = true → k.state = .disabled → (d.link n).state = .detect) ∧
      (k.state ≠ .disabled → k.state ≠ .failed → (d.link n).state = k.state)) ∧
    (k.state = .isolated → Completes s (.linkTest n) (fun d => d.link n = k.startTest ∧ d.rst.qualified.getLsbD n = false ∧ rest d)) ∧
    (k.state = .active → becomes (.linkTest n) { k with testDone := false, testPass := false, testLeft := none, testWaits := true }) ∧
    (k.state = .isolated → k.testLeft = some 0 → Completes s (.linkTestDone n) (fun d => (d.link n).testDone = true ∧ (d.link n).testLeft = none ∧
      (d.link n).testPass = (!k.testBad && decide (k.testSyms * 1024 ≤ k.testCws)) ∧ rest d)) ∧
    (k.testLeft ≠ some 0 → Completes s (.linkTestDone n) (fun d => d = c))

/-- Loss of lock and LINK_CTRL.RETRAIN take an up link into RETRAIN with its replay buffer and numbers, and leave another link alone. A replay time-out
resends every unacknowledged flit, and after four in a row the link retrains. A codeword goes out as five training sets in CONFIG and as five
scrambled flits on an up link, each with its header, its parity and its spread over the lanes; before CONFIG a lane frame goes out on each lane, and a
link that is DISABLED or FAILED sends nothing. A codeword that cannot be corrected is counted, and the eighth in a row is a loss of lock; a flit with
a bad FCRC is counted and changes nothing else. A waypoint sends a message on and counts its flits. -/
def Obligations.LinkTraffic : Prop :=
  ∀ (s : State) (n : Nat) (w : Codeword) (m : Msg) (done : BitVec 8) (req : BitVec 48), n < 24 → w.slots.length = 5 → w.slots.all (fun x => x.length = 128) = true →
    let c := s.chip
    let k := c.link n
    let rest := fun (d : Chip) => (∀ j, j ≠ n → d.link j = c.link j) ∧ d.mem = c.mem ∧ d.cores = c.cores
    let trains := fun (d : Chip) => (d.link n).state = .retrain ∧ (d.link n).before = k.state ∧ (d.link n).replay = k.replay ∧
      (d.link n).txSeq = k.txSeq ∧ (d.link n).rxLast = k.rxLast ∧ (d.link n).err.getLsbD 4 = true ∧ rest d
    let flits := (scramble k.scrRx w.slots).1
    (k.up = true →
      Completes s (.lossOfLock n) trains ∧ Completes s (.linkRetrain n) trains ∧
      (k.replay ≠ [] → k.resends < 4 → Completes s (.replayTimeout n) (fun d => (d.link n).resend = k.replay ∧ (d.link n).replay = k.replay ∧
        (d.link n).resends = k.resends + 1 ∧ (d.link n).state = k.state ∧ (d.link n).err.getLsbD 3 = true ∧ rest d)) ∧
      (k.replay ≠ [] → 4 ≤ k.resends → Completes s (.replayTimeout n) trains) ∧
      (k.replay = [] → Completes s (.replayTimeout n) (fun d => d = c)) ∧
      Completes s (.codewordSend ⟨n, done, req⟩) (fun d => (d.link n).state = k.state ∧ (d.link n).cwNum = k.cwNum + 1 ∧ (d.link n).rxLast = k.rxLast ∧
        rest d ∧ ∃ slots, slots.length = 5 ∧ d.out = .codeword n 0 k.cwNum slots (wireLanes 0 k.cwNum slots) :: c.out) ∧
      (w.corrected = none → k.badCws < 7 → Completes s (.codewordReceive n w) (fun d => (d.link n).badCws = k.badCws + 1 ∧
        (d.link n).state = k.state ∧ (d.link n).testBad = (k.testBad || decide (0 < k.testLeft.getD 0)) ∧ (d.link n).err.getLsbD 1 = true ∧ rest d)) ∧
      (w.corrected = none → 7 ≤ k.badCws → Completes s (.codewordReceive n w) trains) ∧
      (∀ syms, w.corrected = some syms → syms ≤ 15 → w.kind = 0 → flits.all (fun f => flitCrc f ≠ fieldB f 12 4) = true →
        Completes s (.codewordReceive n w) (fun d => (d.link n).rxLast = k.rxLast ∧ (d.link n).replay = k.replay ∧ (d.link n).badCws = 0 ∧
          (d.link n).err.getLsbD 0 = true ∧ d.net = c.net ∧ d.out = c.out ∧ rest d))) ∧
    (k.up = false →
      Completes s (.lossOfLock n) (fun d => d = c) ∧ Completes s (.linkRetrain n) (fun d => d = c) ∧ Completes s (.replayTimeout n) (fun d => d = c) ∧
      (k.state = .config → k.agreed = [] ∨ (∀ j, k.ts2Sent = some j → j + 5 < 16) → ∀ sets, sets = List.replicate 5 (c.ownSet n) → Completes s (.codewordSend ⟨n, done, req⟩) (fun d =>
        d.link n = { k with cwNum := k.cwNum + 1, ts2Sent := if k.lastTs = [] then k.ts2Sent else k.ts2Sent.map (fun j => j + 5) } ∧ rest d ∧
        d.out = .codeword n 1 k.cwNum sets (wireLanes 1 k.cwNum sets) :: c.out)) ∧
      (k.state = .poll ∨ k.state = .eq ∨ k.state = .retrain ∨ k.state = .detect → Completes s (.codewordSend ⟨n, done, req⟩) (fun d =>
        d.link n = k.framesSent done ∧ rest d ∧ d.out = (List.range 8).reverse.map (fun i =>
          .laneFrame n i (k.frameBits n i (done.getLsbD i) (req.toNat / 2 ^ (6 * i)))) ++ c.out)) ∧
      (k.state = .disabled ∨ k.state = .failed → Completes s (.codewordSend ⟨n, done, req⟩) (fun d => d = c)) ∧
      (k.state ≠ .config → (w.corrected.all (fun e => e ≤ 15) = true → Completes s (.codewordReceive n w) (fun d => d = c)))) ∧
    (∀ lane : Nat, lane < 8 → ∀ a, (k.frameBits n lane a 0).toNat % 2 ^ 48 = 0xA5C3F00F3C + lane * 2 ^ 40 + n * 2 ^ 43) ∧
    (m ∈ c.net.via → Completes s (.waypointReinject m) (fun d => d.net.via = c.net.via.erase m ∧
      SMap.get 0 d.net.counters 6 = SMap.get 0 c.net.counters 6 + BitVec.ofNat 64 (flitsOf m 0 0).length ∧ d.mem = c.mem ∧ d.cores = c.cores)) ∧
    (m ∉ c.net.via → Completes s (.waypointReinject m) (fun d => d = c))

/-- A report is forwarded once on each other up link and gathered. FREEZE for the next epoch holds new operations back; a quiet router drains, and the
coordinator commits when every member has. A commit sets the epoch, its live packages and its links; one that shrinks ends every unanswered operation
with ABORT_REMOTE, one that only grows ends none and gives a package that joins the Tide of the coordinator. RESUME lets what was held go. -/
def Obligations.EpochChange : Prop :=
  ∀ (s : State) (link : Nat) (r : Report) (p : EpochPlan) (pkg : BitVec 12) (tide : Word), link < 24 →
    let c := s.chip
    let me := c.self
    let n := c.net
    let members := n.live.filter (fun q => q ∉ p.lost) ++ p.joined
    let gone := fun (e : Nat × Nat) => e ∈ p.removed ∨ e.1 ∈ p.lost ∨ (c.otherEnd e).1 ∈ p.lost
    let still := fun (d : Chip) => d.mem = c.mem ∧ d.cores = c.cores ∧ d.links = c.links ∧ d.req = c.req
    let freezes := fun (q : EpochPlan) (d : Chip) => d.net.plan = some q ∧ d.net.phase = .freeze ∧ d.net.drained = [] ∧ Out.freeze q ∈ d.out ∧ still d
    ((c.link link).up = false ∨ r ∈ n.seen → Completes s (.epochReport link r) (fun d => d = c)) ∧
    ((c.link link).up = true → r ∉ n.seen → Completes s (.epochReport link r) (fun d => r ∈ d.net.reports ∧ r ∈ d.net.seen ∧
      (∀ m, m < 24 → m ≠ link → (c.link m).up = true → Out.report m r ∈ d.out) ∧
      (Out.report link r ∈ d.out → Out.report link r ∈ c.out) ∧ still d)) ∧
    Completes s .netCmdEpoch (fun d => Report.request me ∈ d.net.reports ∧ (n.phase = .run → d.net.phase = .collect) ∧ still d) ∧
    (p.epoch = n.epoch + 1 ∨ me ∉ n.live → Completes s (.epochFreeze p) (fun d => d.net.plan = some p ∧ d.net.phase = .freeze ∧
      (∀ m : Msg, m.mtype.toNat ≤ 6 → d.send m = { d with net := { d.net with held := d.net.held ++ [m] } }) ∧ still d)) ∧
    (p.epoch ≠ n.epoch + 1 → me ∈ n.live → Completes s (.epochFreeze p) (fun d => d = c)) ∧
    (n.phase = .collect → c.coordinates = true → Completes s .collectExpiry (freezes (c.planNow []))) ∧
    (n.phase ≠ .collect ∨ c.coordinates = false → Completes s .collectExpiry (fun d => d = c)) ∧
    (n.plan = none → Completes s .drainQuiet (fun d => d = c) ∧ Completes s (.epochDrained pkg) (fun d => d = c) ∧
      Completes s (.freezeLimitExpiry pkg) (fun d => d = c) ∧ Completes s .coordinatorFailover (fun d => d = c) ∧
      Completes s (.epochCommit p.epoch tide) (fun d => d = c) ∧
      (n.phase = .drained → Completes s .epochResume (fun d => d.net.phase ≠ .drained ∧ d.net.phase ≠ .freeze ∧ d.net.held = [] ∧
        d.mem = c.mem ∧ d.cores = c.cores ∧ d.req = c.req))) ∧
    (n.phase ≠ .drained ∨ n.plan ≠ none → Completes s .epochResume (fun d => d = c)) ∧
    (n.plan = some p →
      (n.phase = .freeze → c.quiet = true → Completes s .drainQuiet (fun d => d.net.phase = .drained ∧ Out.drained me p.epoch ∈ d.out ∧ still d)) ∧
      (c.quiet = false → Completes s .drainQuiet (fun d => d = c)) ∧
      (p.coord.toNat = me → pkg.toNat ∉ n.drained → Completes s (.epochDrained pkg) (fun d => d.net.drained = pkg.toNat :: n.drained ∧ still d ∧
        d.out = if members.all (fun q => q ∈ pkg.toNat :: n.drained) then .commit p.epoch :: c.out else c.out)) ∧
      (p.coord.toNat ≠ me → Completes s (.epochDrained pkg) (fun d => d = c)) ∧
      (p.coord.toNat = me → pkg.toNat ∈ n.live ++ p.joined → pkg.toNat ∉ n.drained → pkg.toNat ∉ p.lost →
        Completes s (.freezeLimitExpiry pkg) (fun d => freezes (c.planNow (p.lost ++ [pkg.toNat])) d ∧ ∀ q, d.net.plan = some q → pkg.toNat ∈ q.lost)) ∧
      (lowest (c.candidates.filter (fun q => p.coord.toNat < q)) = some me → Completes s .coordinatorFailover (freezes { p with coord := BitVec.ofNat 12 me })) ∧
      Completes s (.epochCommit p.epoch tide) (fun d => d.net.epoch = p.epoch ∧ d.net.plan = none ∧ d.net.coord = p.coord ∧ d.mem = c.mem ∧
        (∀ q, q ∈ d.net.live ↔ q ∈ members) ∧ (∀ e, e ∈ d.net.links ↔ (e ∈ n.links ∧ ¬gone e) ∨ e ∈ p.added) ∧
        (p.grow = true → d.cores = c.cores ∧ d.req = c.req ∧ d.conf = c.conf ∧
          (me ∈ p.joined → me ∉ n.live → d.tide = tide ∧ d.rst.phase = .joined) ∧
          ∀ m, m < 24 → (d.link m).state =
            if (c.link m).state = .isolated ∧ (me, m) ∈ d.net.links ∧ (c.link m).testPass = true then .active
            else if (c.link m).state = .active ∧ (me, m) ∉ d.net.links then .isolated
            else (c.link m).state) ∧
        (p.grow = false → d.conf = { roots := [], merges := [], a2a := [] } ∧ (∀ fc, fc < 64 → ∀ t ∈ (d.core fc).trks, t.pkg = me) ∧
          ∀ fc t x, fc < 64 → t ∈ (c.core fc).trks → t.pkg ≠ me → t.holder ≠ .gone → c.ctx t.ctx = some x → x.ended = none → x.delivering = false →
            ∃ y, d.ctx t.ctx = some y ∧ y.ended = some (0x15, detailRemote (c.shrinkPkg p) false))) ∧
      (∀ e, e ≠ p.epoch → Completes s (.epochCommit e tide) (fun d => d = c)))

/-! Power, management and start-up. -/

/-- A request moves a domain that is at rest, latches in one that is in a transition, does nothing to a Pool, and is refused for memory in use. Work ends
before a domain turns off; a domain that is off has been counted, and a core that comes back from Off is reset with its Pool at zero and tests itself:
it passes into Run, or fails. The automatic policy turns off what has been idle, and asks again for the last lane or engine that a request turns off
while work waits for it. A core's frequency becomes the lowest of MAX_MHZ and its thermal and power limits, or 800 MHz while a sensor of its die is at
CRIT. A sample of the sensors lowers the thermal limit of every core of a die that is too hot by 100 MHz, down to 800, raises it where the whole die
is below the hysteresis, and keeps it between; a sample of the power does the same with the limit under the cap. -/
def Obligations.PowerAndFrequencies : Prop :=
  (∀ (s : State) (d : Nat) (fc : BitVec 6), s.memOk → d < 236 → s.chip.hubOn = true →
     let c := s.chip
     let x := c.dom d
     let n := fc.toNat
     let k := 2 * n
     let y := c.dom k
     let rest := fun (e : Nat) (b : Chip) => (∀ f, f ≠ e → b.dom f = c.dom f) ∧ b.mem = c.mem ∧ b.cores = c.cores
     let asked := fun (i : Instr) (z : Domain) => Completes s i (fun b => b.dom d = z ∧ rest d b)
     let inPool := fun (a : Nat) => poolBase + n * poolSize ≤ a ∧ a < poolBase + (n + 1) * poolSize
     let poolZero := fun (b : Chip) => ∀ a, Mem.read b.mem a = if inPool a then 0 else Mem.read c.mem a
     let used := isMemDom d = true ∧ ¬(c.req.quiesced = true ∧ c.locked = false)
     let unit := fun (e : Nat) => isCoreDom e = false ∧ isPoolDom e = false ∧ isMemDom e = false ∧ isLinkDom e = false ∧ isPortDom e = false
     let jobs := c.txu.jobs.any (fun j => j.lane.isNone)
     let units := c.vid.units.any (fun u => u.hold.isNone)
     let asleep := c.autoOn = false ∨ (jobs = false ∧ units = false)
     let kin := fun (e : Nat) => (isLaneDom d = true ∧ isLaneDom e = true) ∨ (isEngineDom d = true ∧ isEngineDom e = true)
     let waiting := (isLaneDom d = true ∧ jobs = true ∧ units = false) ∨ (isEngineDom d = true ∧ units = true ∧ jobs = false)
     (isPoolDom d = true → ∀ i ∈ [Instr.pwrReqRun d, .pwrReqFreewheel d, .pwrReqOff d], Completes s i (fun b => b = c)) ∧
     (isPoolDom d = false → (isLaneDom d = true ∨ isEngineDom d = true → asleep) →
       (x.state = .run → Completes s (.pwrReqRun d) (fun b => b = c)) ∧
       (x.state = .off → asked (.pwrReqRun d) { x with state := .turningOn, latch := .none, fwSide := false, begun := true }) ∧
       (x.state = .turningOff → asked (.pwrReqRun d) { x with latch := .on }) ∧
       (x.state = .turningOn ∨ x.state = .selfTest → asked (.pwrReqRun d) { x with latch := .none }) ∧
       (x.state = .failed → ¬used → asked (.pwrReqRun d) { x with state := .turningOn, latch := .none, fwSide := false, begun := true } ∧
         asked (.pwrReqOff d) { x with state := .turningOn, latch := .none, fwSide := false, begun := true }) ∧
       (used → Completes s (.pwrReqOff d) (fun b => b.dom d = x ∧ b.pwr.err.getLsbD 0 = true ∧ rest d b) ∧
         Completes s (.pwrReqFreewheel d) (fun b => b.dom d = x ∧ b.pwr.err.getLsbD 0 = true ∧ rest d b)) ∧
       (x.state = .run → isLinkDom d = false → isPortDom d = false → ¬used →
         asked (.pwrReqOff d) { x with state := .turningOff, latch := .none, fwSide := false, begun := isMemDom d } ∧
         asked (.pwrReqFreewheel d) { x with state := .turningOff, latch := .none, fwSide := isCoreDom d, begun := isMemDom d }) ∧
       (x.state = .run → isLinkDom d = true → Completes s (.pwrReqOff d) (fun b => (b.dom d).state = .off ∧ (b.link (d - 172)).state = .disabled ∧ rest d b))) ∧
     (c.autoOn = true → x.state = .run → (∀ e, e ≠ d → kin e → (c.dom e).state = .failed) → waiting →
       asked (.pwrReqOff d) { x with state := .turningOff, latch := .on, fwSide := false, begun := false }) ∧
     (x.state = .turningOff → x.begun = false → c.drained d = true → asked (.powerTransitionBegin d) { x with begun := true }) ∧
     (c.drained d = false ∨ x.state ≠ .turningOff → Completes s (.powerTransitionBegin d) (fun b => b = c)) ∧
     (unit d → x.latch = .none →
       (x.state = .turningOff → x.begun = true → x.fwSide = false → Completes s (.powerTransitionDone d) (fun b =>
         b.dom d = { x with state := .off } ∧ b.pwr.transitions = c.pwr.transitions + 1 ∧ rest d b)) ∧
       (x.state = .turningOn → Completes s (.powerTransitionDone d) (fun b =>
         b.dom d = { x with state := .run } ∧ b.pwr.transitions = c.pwr.transitions + 1 ∧ rest d b))) ∧
     (y.state = .turningOff → y.begun = true → y.latch = .none →
       (y.fwSide = true → Completes s (.powerTransitionDone k) (fun b => b.dom k = { y with state := .freewheel } ∧ rest k b)) ∧
       (y.fwSide = false → Completes s (.powerTransitionDone k) (fun b => b.dom k = { y with state := .off } ∧ (b.dom (k + 1)).state = .off ∧
         poolZero b ∧ b.cores = c.cores))) ∧
     (y.state = .turningOff → y.begun = true → y.latch = .on → Completes s (.powerTransitionDone k) (fun b => (b.dom k).state = .turningOn)) ∧
     (y.state = .turningOn → y.fwSide = true → Completes s (.powerTransitionDone k) (fun b => b.dom k = { y with state := .selfTest } ∧ rest k b)) ∧
     (y.state = .turningOn → y.fwSide = false → Completes s (.powerTransitionDone k) (fun b => b.dom k = { y with state := .selfTest } ∧
       (b.dom (k + 1)).state = .run ∧ b.core n = { Core.reset with smWaiting := (c.core n).smWaiting } ∧ (∀ m, m ≠ n → b.core m = c.core m) ∧ poolZero b)) ∧
     (y.state = .selfTest →
       (y.latch = .none → Completes s (.selftestDone fc true) (fun b => b.dom k = { y with state := .run } ∧ n ∈ b.pwr.fresh ∧ rest k b)) ∧
       Completes s (.selftestDone fc false) (fun b => b.dom k = { y with state := .failed, latch := .none } ∧ b.pwr.err.getLsbD 1 = true ∧ rest k b)) ∧
     (y.state ≠ .selfTest → ∀ pass, Completes s (.selftestDone fc pass) (fun b => b = c)) ∧
     (c.autoOn = true → y.auto = true → c.req.placeQ = [] →
       (y.state = .run → bits c.pwr.policy 47 32 ≠ 0 → (c.core n).idle = true → Nat.min 64 (bits c.pwr.policy 14 8) < c.running →
         Completes s (.fwIdleExpiry fc) (fun b => b.dom k = { y with state := .turningOff, latch := .none, fwSide := true, begun := false } ∧ rest k b)) ∧
       (y.state = .freewheel → bits c.pwr.policy 63 48 ≠ 0 →
         Completes s (.offIdleExpiry fc) (fun b => b.dom k = { y with state := .turningOff, latch := .none, fwSide := false, begun := false } ∧ rest k b))) ∧
     (c.autoOn = false ∨ y.auto = false ∨ c.running ≤ Nat.min 64 (bits c.pwr.policy 14 8) → Completes s (.fwIdleExpiry fc) (fun b => b = c)) ∧
     (c.autoOn = false ∨ y.auto = false ∨ bits c.pwr.policy 63 48 = 0 → Completes s (.offIdleExpiry fc) (fun b => b = c)) ∧
     (n ∈ c.pwr.poolAlone → Completes s (.poolIdleOff fc) (fun b => (b.dom (k + 1)).state = .off ∧ n ∉ b.pwr.poolAlone ∧ poolZero b ∧ b.cores = c.cores)) ∧
     (n ∉ c.pwr.poolAlone → Completes s (.poolIdleOff fc) (fun b => b = c))) ∧
  (∀ (s : State) (fc : BitVec 6) (temps : List Int) (watts : BitVec 16), temps.length = 48 → s.chip.rst.por = true → s.chip.rst.held = false →
     let c := s.chip
     let n := fc.toNat
     let die := fun (p : Int → Prop) => ∀ i t, temps[i]? = some t → sensorDie i = coreDie n → p t
     let frame := fun (b : Chip) => b.mem = c.mem ∧ b.cores = c.cores ∧ b.pwr.doms = c.pwr.doms ∧ b.pwr.maxMhz = c.pwr.maxMhz ∧ b.pwr.curMhz = c.pwr.curMhz
     let cap := bits c.pwr.cap 15 0
     Completes s (.freqChangeDone fc) (fun b => { b with pwr := c.pwr } = c ∧ ∀ m, b.curMhz m =
       if m = n then (if c.pwr.crit.any (fun i => sensorDie i = coreDie n) then 800 else Nat.min (c.maxMhz n) (Nat.min (c.thermMhz n) (c.capMhz n)))
       else c.curMhz m) ∧
     Completes s (.thermalSample temps) (fun b => frame b ∧ b.pwr.capMhz = c.pwr.capMhz ∧
       ((∃ i t, temps[i]? = some t ∧ sensorDie i = coreDie n ∧ c.throttleAt < t) →
         b.thermMhz n = Nat.max 800 (Nat.min (c.thermMhz n) (c.goalMhz n) - 100)) ∧
       (die (fun t => t ≤ c.throttleAt) → die (fun t => t < c.regainBelow) → b.thermMhz n = Nat.min 2200 (c.thermMhz n + 100)) ∧
       (die (fun t => t ≤ c.throttleAt) → ¬die (fun t => t < c.regainBelow) → b.thermMhz n = c.thermMhz n) ∧
       (b.thermMhz n < c.maxMhz n → b.pwr.err.getLsbD 2 = true)) ∧
     Completes s (.powerCapSample watts) (fun b => frame b ∧ b.pwr.thermMhz = c.pwr.thermMhz ∧ b.pwr.measured = watts ∧
       (cap < watts.toNat → (c.dom (2 * n)).state = .run → b.capMhz n = Nat.max 800 (Nat.min (c.capMhz n) (c.goalMhz n) - 100)) ∧
       (watts.toNat * 20 ≤ cap * 19 → b.capMhz n = Nat.min 2200 (c.capMhz n + 100)) ∧
       (cap * 19 < watts.toNat * 20 → watts.toNat ≤ cap → b.capMhz n = c.capMhz n) ∧
       (b.capMhz n < Nat.min (c.maxMhz n) (c.thermMhz n) → b.pwr.err.getLsbD 3 = true)))

/-- Events wait at their source while the MC restarts. LOG_COPY moves the oldest uncopied entry to flash, and a full flash ring loses 1,024 entries, of
which the unread are counted; LOG_RD finds an entry by its SEQ in RAM or flash, or says that it is gone or not yet written; an entry is 64 bytes that
end in their CRC. A session reads and writes registers in order and writes HBM as BAR4 would, and answers each frame; over I3C and SMBus the summary
is read from a pointer that wraps at 64; I3C throttles every core; JTAG answers IDCODE alone while closed; a restart of the MC ends its sessions. -/
def Obligations.EventLogAndInterfaces : Prop :=
  (∀ (s : State) (e : LogEntry) (seq : Word),
     let c := s.chip
     let m := c.mc
     let unread := ((m.flash.take 1024).filter (fun x => m.logAck ≤ x.seq)).length
     (LogEntry.bytes e).length = 64 ∧ fieldB (LogEntry.bytes e) 60 4 = crc32c ((LogEntry.bytes e).take 60) % 2 ^ 32 ∧
     (m.running = true → m.ram[m.copied]? = some e → m.gapCount = 0 →
       (m.flash.length < flashEntries → Completes s .logCopy (fun d => d = { c with mc := { m with flash := m.flash ++ [e], copied := m.copied + 1 } })) ∧
       (flashEntries ≤ m.flash.length → Completes s .logCopy (fun d => d.mc.flash = m.flash.drop 1024 ++ [e] ∧ d.mc.copied = m.copied + 1 ∧
         d.mc.ram = m.ram ∧ d.mc.logLost = m.logLost + BitVec.ofNat 64 unread ∧ (0 < unread → d.mc.events.getLsbD 2 = true)))) ∧
     (m.running = false ∨ m.ram.length ≤ m.copied → Completes s .logCopy (fun d => d = c)) ∧
     (c.aon = true → Completes s (.logRd seq) (fun d => d = { c with mc := { m with rdSeq := seq, rdStatus := 0 } })) ∧
     (m.rdStatus = 0 → m.running = true →
       ((m.ram ++ m.flash).find? (fun x => x.seq = m.rdSeq) = some e → Completes s .logRdDone (fun d =>
         d = { c with mc := { m with rdStatus := 1, rdData := e.bytes } })) ∧
       ((∀ x ∈ m.ram ++ m.flash, x.seq ≠ m.rdSeq) → Completes s .logRdDone (fun d =>
         d = { c with mc := { m with rdStatus := if m.seqNext ≤ m.rdSeq then 3 else 2 } }))) ∧
     (m.rdStatus ≠ 0 ∨ m.running = false → Completes s .logRdDone (fun d => d = c))) ∧
  (∀ (s : State) (slot : BitVec 2) (reason pointer : Byte) (count : Nat) (offset v : Word) (payload : List Byte) (tap : JtagOp), s.memOk →
     let c := s.chip
     let m := c.mc
     let n := fieldB payload 0 4
     let a := offset.toNat
     let frame := fun (op status : Byte) (data : List Byte) => Out.frame op status offset data
     let stops := fun (i : Instr) (cause : Byte) => Completes s i (fun d => d = { c with mc := { m with running := false, startCause := cause, sessions := 0 } })
     (m.running = true →
       (SMap.get [] m.cfg.sessionKeys slot.toNat ≠ [] → Completes s (.mgmtSessionOpen slot true reason) (fun d =>
         d = { c with mc := { m with sessions := m.sessions + 1 } })) ∧
       Completes s (.mgmtSessionOpen slot false reason) (fun d => d.mc.sessions = m.sessions ∧
         (m.ram.length < 4096 → ∃ e, d.mc.ram = m.ram ++ [e] ∧ e.code = 0x51)) ∧
       Completes s (.i3cSummaryRead count) (fun d => d.mc.i3cPtr = (m.i3cPtr + count) % 64 ∧ ∃ b, d.out = .i3c b :: c.out ∧ b.length = count ∧
         ∀ i, i < count → b[i]? = c.summary[(m.i3cPtr + i) % 64]?) ∧
       Completes s .smbusBlockRead (fun d => d = c.emit (.i3c c.summary) ∧ c.summary.length = 64) ∧
       Completes s (.i3cSetPointer pointer) (fun d => d = { c with mc := { m with i3cPtr := pointer.toNat % 64 } }) ∧
       Completes s .i3cThrottle (fun d => (∀ k, k < 64 → d.maxMhz k = 800) ∧ { d with pwr := c.pwr } = c) ∧
       stops .i3cMcRestart 3 ∧ stops .mcWatchdog 2) ∧
     (m.running = false → ∀ i ∈ [Instr.mgmtSessionOpen slot true reason, .i3cSummaryRead count, .smbusBlockRead, .i3cSetPointer pointer, .i3cThrottle,
       .i3cMcRestart, .mcWatchdog, .mgmtRegRead offset payload, .mgmtRegWrite offset payload, .mgmtHbmWrite offset payload], Completes s i (fun d => d = c)) ∧
     (m.running = true → 0 < m.sessions →
       (payload.length = 4 → 1 ≤ n → n ≤ 512 → regRange offset n = true → Completes s (.mgmtRegRead offset payload) (fun d =>
         d = c.emit (frame 0x81 0 ((List.range n).flatMap (fun i => leBytes 8 (regRead c (a + 8 * i)).toNat))))) ∧
       (payload.length ≠ 4 ∨ n = 0 ∨ 512 < n ∨ regRange offset n = false → Completes s (.mgmtRegRead offset payload) (fun d => d = c.emit (frame 0x81 2 []))) ∧
       (offset = 0x20 → payload = leBytes 8 v.toNat → c.rst.por = true → c.rst.held = false → Completes s (.mgmtRegWrite offset payload) (fun d =>
         regRead d 0x20 = v ∧ d.out = frame 0x82 0 [] :: c.out ∧ d.mem = c.mem)) ∧
       (payload.length % 8 ≠ 0 → Completes s (.mgmtRegWrite offset payload) (fun d => d = c.emit (frame 0x82 2 []))) ∧
       (payload ≠ [] → payload.length ≤ 2 ^ 20 → a < 2 ^ 50 → c.hbmWaits a = false →
         (c.hbmTakes a payload.length = true → Completes s (.mgmtHbmWrite offset payload) (fun d => d.out = frame 0x83 0 [] :: c.out ∧
           (∀ i, i < payload.length → some (Mem.read d.mem (a + i)) = payload[i]?) ∧
           (∀ b, b < a ∨ a + payload.length ≤ b → Mem.read d.mem b = Mem.read c.mem b))) ∧
         (c.hbmTakes a payload.length = false → Completes s (.mgmtHbmWrite offset payload) (fun d => d = c.emit (frame 0x83 3 [])))) ∧
       (2 ^ 20 < payload.length ∨ 2 ^ 50 ≤ a → Completes s (.mgmtHbmWrite offset payload) (fun d => d = c.emit (frame 0x83 2 [])))) ∧
     (c.aon = true → Completes s (.jtagInstruction tap) (fun d => { d with mc := { d.mc with tap := m.tap } } = c ∧
       (m.jtagOpen = true → d.mc.tap = tap) ∧ (m.jtagOpen = false → d.mc.tap = if tap = .idcode then .idcode else .bypass))))

/-- A sample that lies beyond CRIT for the third time in a row enters the level, and three back inside WARN leave it; the die of a sensor at CRIT is held
at 800 MHz, and a voltage at CRIT takes the rails down or, for VDD_FC, throttles. A silent regulator throttles, sets MC_EVENT.RAIL and is logged. -/
def Obligations.SensorsAndAlarms : Prop :=
  ∀ (s : State) (temps : List Int) (volts currents : List Nat) (readings : List (Nat × Nat)) (rail i j k : Nat) (word : BitVec 16),
    s.chip.mc.running = true → temps.length = 48 → temps.all (fun t => -32768 ≤ t ∧ t < 32768) = true →
    volts.length = 24 → volts.all (fun v => v < 2 ^ 16) = true → currents.length = 16 → currents.all (fun a => a < 2 ^ 32) = true →
    readings.length = 8 → readings.all (fun p => p.1 < 2 ^ 16 ∧ p.2 < 2 ^ 32) = true → rail < 8 → i < 48 → j < 24 → k < 16 →
    let c := s.chip
    let alarm := fun (d : Chip) (key : Nat) => SMap.get Alarm.reset d.mc.alarms key
    let thr := SMap.get thrTReset c.mc.thrT i
    let warn := signed 16 (bits thr 15 0)
    let crit := signed 16 (bits thr 31 16)
    let thrV := SMap.get 0 c.mc.thrV j
    let thrI := SMap.get 0 c.mc.thrI k
    Completes s (.sensorSampleTemp temps) (fun d => some (SMap.get 0 d.mc.temps i) = temps[i]? ∧ (i ∈ d.pwr.crit ↔ (alarm d i).critOn = true) ∧
      d.mem = c.mem ∧ d.cores = c.cores ∧ ∀ t, temps[i]? = some t →
        (crit ≠ 0 → crit < t → (alarm d i).crit = (alarm c i).crit + 1 ∧
          ((alarm c i).critOn = false → (alarm c i).crit = 1 → (alarm d i).critOn = false) ∧
          ((alarm c i).critOn = false → (alarm c i).crit = 2 → (alarm d i).critOn = true ∧ d.mc.events.getLsbD 1 = true)) ∧
        (warn ≠ 0 → warn < t → (alarm c i).warnOn = false → (alarm c i).warn = 2 → (alarm d i).warnOn = true ∧ d.mc.events.getLsbD 0 = true) ∧
        (t ≤ warn → t ≤ crit → (alarm c i).inside = 2 → (alarm d i).warnOn = false ∧ (alarm d i).critOn = false)) ∧
    Completes s (.sensorSampleRail volts currents) (fun d => some (SMap.get 0 d.mc.volts j) = volts[j]? ∧
      some (SMap.get (0, 0) d.mc.rails k).2 = currents[k]? ∧ (SMap.get (0, 0) d.mc.rails k).1 = (SMap.get (0, 0) c.mc.rails k).1 ∧
      (∀ v, volts[j]? = some v → v < bits thrV 15 0 → (alarm c (64 + j)).critOn = false → (alarm c (64 + j)).crit = 2 →
        (alarm d (64 + j)).critOn = true ∧ d.mc.events.getLsbD 1 = true ∧
        (∀ r, monitorRail j = some r → r ≠ 7 → d.rst.railsOff = true ∧ d.rst.railsOn = []) ∧
        (monitorRail j = some 7 → ∀ n, n < 64 → d.maxMhz n = 800)) ∧
      (∀ a, currents[k]? = some a → bits thrI 63 32 ≠ 0 → bits thrI 63 32 < a → (alarm c (96 + k)).critOn = false → (alarm c (96 + k)).crit = 2 →
        (alarm d (96 + k)).critOn = true)) ∧
    Completes s (.railPoll readings) (fun d => (rail < 8 → readings[rail]? = some (SMap.get (0, 0) d.mc.rails rail)) ∧
      { d with mc := { d.mc with rails := c.mc.rails }, out := c.out, freeCtr := c.freeCtr } = c ∧
      ∃ mv, d.out = .vout 7 mv :: c.out ∧ mv % 5 = 0 ∧ mv ≤ 950 ∧
        ∀ n, n < 64 → (c.dom (2 * n)).state ≠ .off → Nat.min 905 (Config.fcMillivolts n (c.curMhz n) c.free) + 45 ≤ mv) ∧
    Completes s (.railFault rail word) (fun d => (∀ n, n < 64 → d.maxMhz n = 800) ∧ d.mc.events.getLsbD 5 = true ∧ d.mem = c.mem ∧ d.cores = c.cores ∧
      (c.mc.ram.length < 4096 → ∃ e, d.mc.ram = c.mc.ram ++ [e] ∧ e.seq = c.mc.seqNext ∧ e.code = 0x31 ∧ e.severity = 3 ∧
        e.payload = BitVec.ofNat 8 rail :: leBytes 2 word.toNat))

/-- INSTALL validates an image and writes only a valid one over the slot not running; ACTIVATE and REVERT need the drain and restart the MC; COMMIT makes
the running slot the committed one and blows its fuses; a command that is not accepted sets its status alone. The MC starts from a slot that is
bootable, resumes SEQ and logs BOOT. A Configuration Record is stored whole or refused by the first check that fails. -/
def Obligations.FirmwareAndConfiguration : Prop :=
  ∀ (s : State) (nonce : Word) (b : Bool),
    let c := s.chip
    let m := c.mc
    let image := c.bytes (bits m.fwAddr 49 12 * 4096) (bits m.fwLen 20 0)
    let verdict := m.judgeImage image
    let slots := fun (d : Chip) => d.mc.slotA = m.slotA ∧ d.mc.slotB = m.slotB
    let turned := fun (i : Instr) (status : BitVec 4) => Completes s i (fun d => d = { c with mc := { m with fwStatus := status } })
    let r := c.bytes (bits m.cfgAddr 49 6 * 64) 4096
    let item := fieldB r 4 1
    let boot := m.bootFirst
    (m.running = true →
      (m.fwOp.isSome = true → turned .fwInstall 7 ∧ turned .fwActivate 7 ∧ turned .fwCommit 7 ∧ turned .fwRevert 7) ∧
      (m.fwOp = none → m.trial = true → turned .fwInstall 7) ∧
      (m.fwOp = none → m.trial = false → turned .fwCommit 7 ∧ turned .fwRevert 7 ∧
        Completes s .fwInstall (fun d => d.mc.fwOp = some .install ∧ d.mc.fwStatus = 1 ∧ (verdict ≠ 2 → slots d) ∧
          (verdict = 2 → d.mc.other = { slotFrom image with valid := false } ∧ d.mc.running_ = m.running_))) ∧
      (m.fwOp = none → c.req.quiesced = false → turned .fwActivate 6 ∧ (m.trial = true → turned .fwRevert 6)) ∧
      (m.fwOp = none → c.req.quiesced = true → m.bootable m.other = false → turned .fwActivate 7) ∧
      (m.fwOp = none → c.req.quiesced = true → m.bootable m.other = true → Completes s .fwActivate (fun d =>
        d.mc.running = false ∧ d.mc.trial = true ∧ d.mc.trialB = (!m.runB) ∧ d.mc.attempted = false ∧ d.mc.fwOp = some .activate ∧ slots d)) ∧
      (m.fwOp = none → m.trial = true → Completes s .fwCommit (fun d => d = { c with mc := { m with fwOp := some .commit, fwStatus := 1 } })) ∧
      (m.fwOp = none → m.trial = true → c.req.quiesced = true → Completes s .fwRevert (fun d =>
        d.mc.running = false ∧ d.mc.trial = false ∧ d.mc.committedB = m.committedB ∧ d.mc.fwOp = some .revert ∧ slots d)) ∧
      (m.fwOp = some .commit → Completes s .fwCommitDone (fun d => d.mc.committedB = m.runB ∧ d.mc.trial = false ∧ d.mc.fwOp = none ∧ d.mc.fwStatus = 2 ∧
        d.mc.fuses = Nat.max m.fuses m.running_.rollback ∧ d.mc.events.getLsbD 4 = true ∧ slots d)) ∧
      Completes s .cfgApply (fun d => d = { c with mc := { m with cfgStatus := 1 } }) ∧
      (m.cfgStatus = 1 →
        (∀ e, c.recordFault r = some e → Completes s (.cfgApplyDone nonce) (fun d => d.mc.cfgStatus = BitVec.ofNat 4 e ∧ d.mc.cfg = m.cfg ∧
          (e ≠ 3 → d.ports = c.ports ∧ d.mc.ram = m.ram))) ∧
        (c.recordFault r = none → Completes s (.cfgApplyDone nonce) (fun d => d.mc.cfgStatus = 2 ∧
          d.mc.cfg = { m.cfg.put item (fieldB r 5 1) (sliceB r 0x20 (fieldB r 0x18 4)) with seq := BitVec.ofNat 64 (fieldB r 0x10 8) } ∧
          (item = 9 → d.mc.jtagOpen = true ∧ d.mc.nonce = nonce) ∧ (item ≠ 9 → d.mc.jtagOpen = m.jtagOpen ∧ d.mc.nonce = m.nonce) ∧
          (item = 4 → ∀ n, n < 4 → (d.port n).access = BitVec.ofNat 3 (fieldB r (0x20 + n) 1)))))) ∧
    (m.fwOp ≠ some .install → Completes s .fwInstallDone (fun d => d = c)) ∧
    (m.fwOp = some .install →
      (m.fwResult = 2 → Completes s .fwInstallDone (fun d => d.mc.fwOp = none ∧ d.mc.fwStatus = 2 ∧ d.mc.other = { m.other with valid := true } ∧
        d.mc.running_ = m.running_ ∧ d.mc.events.getLsbD 4 = true)) ∧
      (m.fwResult ≠ 2 → Completes s .fwInstallDone (fun d => d.mc.fwOp = none ∧ d.mc.fwStatus = m.fwResult ∧ slots d ∧ d.mc.events.getLsbD 4 = true))) ∧
    (c.aon = true → m.running = false → m.recovery = false → c.rst.phase ≠ .mcBoot →
      (boot.1.bootSlot boot.2 = some b → Completes s .mcStart (fun d => d.mc.running = true ∧ d.mc.runB = b ∧ d.mem = c.mem ∧ d.cores = c.cores ∧
        (m.gapCount = 0 → m.held = [] → m.fwOp = none → ∃ e, d.mc.ram = [e] ∧ e.code = 1 ∧ e.seq = m.resumeSeq ∧ d.mc.seqNext = m.resumeSeq + 1))) ∧
      (boot.1.bootSlot boot.2 = none → Completes s .mcStart (fun d => d.mc.recovery = true ∧ d.mc.running = false ∧ d.mem = c.mem))) ∧
    (c.aon = false ∨ m.running = true ∨ m.recovery = true → Completes s .mcStart (fun d => d = c))

/-- POR_N rises: Tide counts from 0, every switched domain is off and the boot block starts; it falls, or REFCLK25 or an AON supply is lost: all state
goes but flash, fuses and configuration. Rails come up one after the other, TRAINING begins after the last, and one that does not report takes them
all down; HBM_READY follows the zero-fill. A warm restart keeps HBM, Tide and the MC and resets the rest. A thermal trip stops every clock. -/
def Obligations.PowerAndRestart : Prop :=
  ∀ (s : State) (strap clockB : Bool) (rail sensor n : Nat), s.memOk → rail < 8 → sensor < 48 →
    let c := s.chip
    let r := c.rst
    let kept := fun (d : Chip) => d.mc.flash = c.mc.flash ∧ d.mc.slotA = c.mc.slotA ∧ d.mc.slotB = c.mc.slotB ∧ d.mc.cfg = c.mc.cfg ∧
      (c.mc.fwOp ≠ some .commit → d.mc.fuses = c.mc.fuses)
    let bare := fun (d : Chip) => d.mem = [] ∧ d.cores = [] ∧ d.links = [] ∧ d.rcp = Rcp.reset ∧ d.req = ReqTable.reset ∧ d.tide = 0 ∧
      d.mc.running = false ∧ d.rst.phase = .mcBoot ∧ d.rst.ready = false ∧ d.hubOn = false ∧ kept d
    let next := r.phase = .rails ∧ r.railsOff = false ∧ r.por = true ∧ r.held = false ∧ rail = r.railsOn.length + 2 ∧ rail ≤ c.lastRail
    let group := 12 * (if clockB then 1 else 0) ≤ n ∧ n < 12 + 12 * (if clockB then 1 else 0)
    (r.por = false → Completes s (.porRise strap) (fun d => bare d ∧ d.rst.por = true ∧ d.rst.held = false ∧ d.rst.strapLow = (!strap) ∧
      ∀ k, k < 236 → (d.dom k).state = .off ∧ (d.dom k).auto = decide (k < 128 ∧ k % 2 = 0))) ∧
    (r.por = true → Completes s (.porRise strap) (fun d => d = c)) ∧
    Completes s .porFall (fun d => bare d ∧ d.rst = Rst.reset ∧ (r.tripped = true → Out.pin "THERMTRIP_N" true ∈ d.out)) ∧
    (∀ i ∈ [Instr.refclk25Loss, .aonIoSupplyLoss], Completes s i (fun d => bare d ∧ d.rst.held = true ∧ d.rst.por = r.por ∧ d.rst.tripped = r.tripped)) ∧
    (next → rail < c.lastRail → Completes s (.railPowerGood rail) (fun d =>
      d = ({ c with rst := { r with railsOn := r.railsOn ++ [rail] } }).emit (.rail (rail + 1) true))) ∧
    (next → rail = 7 → Completes s (.railPowerGood rail) (fun d => d.rst.phase = .training ∧ d.rst.ready = true ∧ d.rst.railsOn = r.railsOn ++ [7] ∧
      d.rst.bringupMode = true ∧ d.mem = c.mem ∧ d.rcp = c.rcp ∧ (∀ k, k < 236 → (d.dom k).state = if k < 128 ∧ k % 2 = 0 then .selfTest else .run) ∧
      ∀ m, m < 24 → bit (c.link m).ctrl 0 = true → (d.link m).state = .detect)) ∧
    (¬next → Completes s (.railPowerGood rail) (fun d => d = c) ∧ Completes s (.railEnableTimeout rail) (fun d => d = c)) ∧
    (next → Completes s (.railEnableTimeout rail) (fun d => d.rst.railsOff = true ∧ d.rst.railsOn = [] ∧ d.hubOn = false ∧ d.mem = [] ∧ d.mc.flash = c.mc.flash ∧
      ∀ k ∈ List.range rail, 2 ≤ k → Out.rail k false ∈ d.out)) ∧
    (r.phase = .training → Completes s .hbmTrainingDone (fun d => d.rst.hbmTrained = true ∧ d.mem = c.mem ∧
      ((∀ k, k < 64 → k ∈ r.coresTested) → d.rst.phase = .bringup ∨ d.rst.phase = .discovered) ∧
      (∀ k, k < 64 → k ∉ r.coresTested → d.rst.phase = .training))) ∧
    (r.phase ≠ .training → Completes s .hbmTrainingDone (fun d => d = c)) ∧
    (c.hubOn = true → r.hbmTrained = true → r.hbmReady = false → Completes s .hbmZeroFillDone (fun d => d.rst.hbmReady = true ∧ d.cores = c.cores ∧
      (∀ a, Mem.read d.mem a = 0 ∨ Mem.read d.mem a = Mem.read c.mem a) ∧ (∀ a, storeEnd ≤ a → Mem.read d.mem a = Mem.read c.mem a) ∧
      (r.phase = .bringup → r.unnumbered = false → r.strapLow = false → r.qualified ≠ 0 → d.rst.phase = .discovered ∧ d.rst.bringupMode = false))) ∧
    (c.hubOn = false ∨ r.hbmTrained = false ∨ r.hbmReady = true → Completes s .hbmZeroFillDone (fun d => d = c)) ∧
    (c.warmTaken = true → Completes s .warmRestart (fun d => d.rst.phase = .training ∧ d.rst.warm = true ∧ d.rst.restarts = r.restarts + 1 ∧ d.tide = c.tide ∧
      d.rcp = Rcp.reset ∧ d.req = ReqTable.reset ∧ d.cores = [] ∧ d.net.live = [] ∧ d.scratch = c.scratch ∧ d.mc.running = c.mc.running ∧
      Out.pin "READY" true ∈ d.out ∧ ∀ a, Mem.read d.mem a = if a < storeEnd then Mem.read c.mem a else 0)) ∧
    (c.warmTaken = false → Completes s .warmRestart (fun d => d = c)) ∧
    Completes s (.sparlineRefclkLoss clockB) (fun d => d.mem = c.mem ∧ d.cores = c.cores ∧
      (group → (c.link n).up = true → (d.link n).state = .retrain ∧ (d.link n).before = (c.link n).state ∧ (d.link n).replay = (c.link n).replay) ∧
      (¬group ∨ (c.link n).up = false → d.link n = c.link n)) ∧
    (r.por = true → r.held = false → r.tripped = false → Completes s (.thermtrip sensor) (fun d => d.rst.tripped = true ∧ d.hubOn = false ∧
      Out.pin "THERMTRIP_N" false ∈ d.out ∧ d.rst.railsOn = [] ∧ d.mem = [] ∧ d.mc.flash = c.mc.flash)) ∧
    (r.por = false ∨ r.held = true ∨ r.tripped = true → Completes s (.thermtrip sensor) (fun d => d = c))

/-! Reset and what every step keeps. -/

/-- After reset, whatever place in the torus the package has: epoch 0, an empty link set, every other package lost, no route but to itself, and admission
stopped by QUIESCE_REQ. -/
def Obligations.NetworkAfterReset : Prop :=
  ∀ geom : Word,
    let c := { Chip.reset with net := { Net.reset with geom := geom } }
    c.inGeom c.self = true →
    readNet c 0x08 = 0 ∧ readNet c 0x28 = 0 ∧ (∀ d, c.inGeom d = true → (c.isLost d = true ↔ d ≠ c.self)) ∧
    (∀ d, c.route d = if d = c.self then ⟨6, none⟩ else ⟨7, none⟩) ∧ bit (readRqt c 0x08) 0 = true

/-- The registers at reset that the chapters give a value, no command that waits, slot n with area n and area 4 for staging, no lock, no link up, and no
task. The reset state has the two invariants below. The memory that reads 0 is the model's choice (log entry 8). -/
def Obligations.ResetState : Prop :=
  let s := State.reset
  let c := s.chip
  s.pending = [] ∧ s.memOk ∧ s.areasOk ∧ (∀ n, n < 4 → c.rcp.area n = n) ∧ c.rcp.stageArea = 4 ∧ c.locked = false ∧ (∀ a, Mem.read c.mem a = 0) ∧
  readRqt c 0x00 = 0x8000000000000000 ∧ readRqt c 0x08 = 0x00004E2000000009 ∧ readRcp c 0x00 = 2 ∧ readRcp c 0x98 = 0x40 ∧ readNet c 0x10 = 0x000007D000001388 ∧ readNet c 0x18 = 3 ∧
  (∀ n, readLink (c.link n) 0x00 = 0x1801 ∧ readLink (c.link n) 0x08 = 0 ∧ (c.link n).up = false) ∧
  (∀ a, (c.arb a).ctl = 0x08101020) ∧ (∀ n, n < 128 → n % 2 = 0 → readPwr c (8 * n) = 0x102) ∧ (∀ n, n < 128 → n % 2 = 1 → readPwr c (8 * n) = 0x002) ∧
  readPwr c 0x800 = 0x0000000A00000801 ∧ readPwr c 0x808 = 780 ∧ readPwr c 0x810 = 0x0564 ∧ readRst c 0x08 = 0 ∧ (∀ i, i < 48 → readMc c (0x400 + 8 * i) = 0x069005F0) ∧
  ∀ l, (c.slot l).task = none ∧ (c.slot l).xstatus = 1 ∧ (c.slot l).xvec = 0

/-- At every moment each Recipe Slot owns one of the five areas, and the fifth is the staging area: every step keeps it, whatever the command and the
state. -/
def Obligations.EveryStepKeepsTheAreas : Prop :=
  Keeps State.areasOk

/-- Every step keeps memory in its canonical form: addresses strictly rising, and no byte listed that reads as an unlisted one does. -/
def Obligations.EveryStepKeepsMemoryCanonical : Prop :=
  Keeps State.memOk
end

