-- ==== Sys2Proof/Laws/State.lean ====
section
/-! SUPPORT. What reading a part of the state gives after an update of a part: tables, cores, slots, counters. -/

namespace Sys2Proof.Machine

/-! Sparse tables. -/

@[simp] theorem SMap.get_nil {α : Type} (d : α) (k : Nat) : SMap.get d [] k = d := rfl

theorem SMap.get_set {α : Type} (d : α) (m : SMap α) (k j : Nat) (v : α) :
    SMap.get d (SMap.set m k v) j = if j = k then v else SMap.get d m j := by
  induction m with
  | nil => by_cases h : k = j <;> simp [SMap.set, SMap.get, h, eq_comm]
  | cons p t ih =>
    obtain ⟨i, a⟩ := p
    unfold SMap.set
    split
    · next h1 => subst h1; by_cases h2 : i = j <;> simp [SMap.get, h2, Ne.symm]
    · next h1 =>
      split
      · by_cases h2 : k = j <;> simp [SMap.get, h2, eq_comm]
      · by_cases h2 : i = j
        · subst h2; simp [SMap.get, h1]
        · simp [SMap.get, h2, ih]

@[simp] theorem SMap.get_set_same {α : Type} (d : α) (m : SMap α) (k : Nat) (v : α) : SMap.get d (SMap.set m k v) k = v := by
  simp [SMap.get_set]

theorem SMap.get_set_other {α : Type} (d : α) (m : SMap α) {k j : Nat} (v : α) (h : j ≠ k) :
    SMap.get d (SMap.set m k v) j = SMap.get d m j := by
  simp [SMap.get_set, h]

theorem SMap.find_set {α : Type} (m : SMap α) (k j : Nat) (v : α) :
    SMap.find (SMap.set m k v) j = if j = k then some v else SMap.find m j := by
  induction m with
  | nil => by_cases h : k = j <;> simp [SMap.set, SMap.find, h, eq_comm]
  | cons p t ih =>
    obtain ⟨i, a⟩ := p
    unfold SMap.set
    split
    · next h1 => subst h1; by_cases h2 : i = j <;> simp [SMap.find, h2, Ne.symm]
    · next h1 =>
      split
      · by_cases h2 : k = j <;> simp [SMap.find, h2, eq_comm]
      · by_cases h2 : i = j
        · subst h2; simp [SMap.find, h1]
        · simp [SMap.find, h2, ih]

/-! Parts of the package. -/

@[simp] theorem Chip.core_setCore (c : Chip) (n : Nat) (k : Core) : (c.setCore n k).core n = k := by
  simp [Chip.core, Chip.setCore]

theorem Chip.core_setCore_other (c : Chip) {n m : Nat} (k : Core) (h : m ≠ n) : (c.setCore n k).core m = c.core m := by
  simp [Chip.core, Chip.setCore, SMap.get_set, h]

@[simp] theorem Core.slot_setSlot (k : Core) (i : Nat) (s : Slot) : (k.setSlot i s).slot i = s := by
  simp [Core.slot, Core.setSlot]

theorem Core.slot_setSlot_other (k : Core) {i j : Nat} (s : Slot) (h : j ≠ i) : (k.setSlot i s).slot j = k.slot j := by
  simp [Core.slot, Core.setSlot, SMap.get_set, h]

@[simp] theorem Core.engine_setEngine (k : Core) (e : Nat) (g : Engine) : (k.setEngine e g).engine e = g := by
  simp [Core.engine, Core.setEngine]

theorem Core.engine_setEngine_other (k : Core) {e f : Nat} (g : Engine) (h : f ≠ e) :
    (k.setEngine e g).engine f = k.engine f := by
  simp [Core.engine, Core.setEngine, SMap.get_set, h]

@[simp] theorem Core.slot_setEngine (k : Core) (e i : Nat) (g : Engine) : (k.setEngine e g).slot i = k.slot i := rfl
@[simp] theorem Core.engine_setSlot (k : Core) (e i : Nat) (s : Slot) : (k.setSlot i s).engine e = k.engine e := rfl

@[simp] theorem Core.stream_setStream (k : Core) (i : Nat) (t : Stream) : (k.setStream i t).stream i = t := by
  simp [Core.stream, Core.setStream]

@[simp] theorem Chip.slot_setSlot (c : Chip) (l : Loc) (s : Slot) : (c.setSlot l s).slot l = s := by
  simp [Chip.slot, Chip.setSlot]

/-- Two locations differ in the core or in the slot. -/
theorem Loc.ne_cases {l m : Loc} (h : m ≠ l) : m.fc.toNat ≠ l.fc.toNat ∨ m.slot.toNat ≠ l.slot.toNat := by
  rcases l with ⟨f, i⟩
  rcases m with ⟨g, j⟩
  by_cases h1 : g.toNat = f.toNat
  · refine Or.inr (fun h2 => h ?_)
    have e1 : g = f := BitVec.eq_of_toNat_eq h1
    have e2 : j = i := BitVec.eq_of_toNat_eq h2
    rw [e1, e2]
  · exact Or.inl h1

theorem Chip.slot_setSlot_other (c : Chip) {l m : Loc} (s : Slot) (h : m ≠ l) : (c.setSlot l s).slot m = c.slot m := by
  unfold Chip.slot Chip.setSlot
  by_cases h1 : m.fc.toNat = l.fc.toNat
  · rw [h1, Chip.core_setCore, Core.slot_setSlot_other]
    exact (Loc.ne_cases h).resolve_left (fun h2 => h2 h1)
  · rw [Chip.core_setCore_other _ _ h1]

@[simp] theorem Chip.port_setPort (c : Chip) (n : Nat) (p : Port) : (c.setPort n p).port n = p := by
  simp [Chip.port, Chip.setPort]

theorem Chip.port_setPort_other (c : Chip) {n m : Nat} (p : Port) (h : m ≠ n) : (c.setPort n p).port m = c.port m := by
  simp [Chip.port, Chip.setPort, SMap.get_set, h]

@[simp] theorem Chip.window_setWindow (c : Chip) (n w : Nat) (x : Window) : (c.setWindow n w x).window n w = x := by
  simp [Chip.window, Chip.setWindow, Port.window]

@[simp] theorem Chip.link_setLink (c : Chip) (n : Nat) (k : Link) : (c.setLink n k).link n = k := by
  simp [Chip.link, Chip.setLink]

theorem Chip.link_setLink_other (c : Chip) {n m : Nat} (k : Link) (h : m ≠ n) : (c.setLink n k).link m = c.link m := by
  simp [Chip.link, Chip.setLink, SMap.get_set, h]

@[simp] theorem Chip.dom_setDom (c : Chip) (d : Nat) (x : Domain) : (c.setDom d x).dom d = x := by
  simp [Chip.dom, Chip.setDom]

theorem Chip.dom_setDom_other (c : Chip) {d e : Nat} (x : Domain) (h : e ≠ d) : (c.setDom d x).dom e = c.dom e := by
  simp [Chip.dom, Chip.setDom, SMap.get_set, h]

@[simp] theorem Chip.table_setTable (c : Chip) (t : Nat) (x : Table) : (c.setTable t x).table t = x := by
  simp [Chip.table, Chip.setTable]

@[simp] theorem Chip.ctx_setCtx (c : Chip) (n : Nat) (x : Ctx) : (c.setCtx n x).ctx n = some x := by
  simp [Chip.ctx, Chip.setCtx, SMap.find_set]

theorem Chip.ctx_setCtx_other (c : Chip) {n m : Nat} (x : Ctx) (h : m ≠ n) : (c.setCtx n x).ctx m = c.ctx m := by
  simp [Chip.ctx, Chip.setCtx, SMap.find_set, h]

/-! Registers of a slot. -/

@[simp] theorem Slot.xr_zero (s : Slot) : s.xr 0 = 0 := by simp [Slot.xr]
@[simp] theorem Slot.setX_zero (s : Slot) (v : Word) : s.setX 0 v = s := by simp [Slot.setX]

theorem Slot.xr_setX (s : Slot) (r q : Reg) (v : Word) : (s.setX r v).xr q = if q = r ∧ r ≠ 0 then v else s.xr q := by
  unfold Slot.setX Slot.xr
  by_cases h0 : r = 0
  · simp only [h0, if_true, ne_eq, not_true, and_false, if_false]
  · by_cases h1 : q = 0
    · have h2 : ¬ (q = r) := fun e => h0 (e ▸ h1)
      simp only [h0, h1, if_true, if_false]
      rw [if_neg (fun h => h0 h.1.symm)]
    · by_cases h2 : q = r
      · subst h2
        simp only [h0, if_false, SMap.get_set_same, ne_eq, not_false_eq_true, and_self, if_true]
      · have h3 : q.toNat ≠ r.toNat := fun e => h2 (BitVec.eq_of_toNat_eq e)
        simp only [h0, h1, h2, if_false, false_and, SMap.get_set, h3]

@[simp] theorem Slot.mr_zero (s : Slot) : s.mr 0 = BitVec.allOnes 128 := by simp [Slot.mr]

theorem Slot.vr_setV (s : Slot) (r q : Reg) (v : VReg) : (s.setV r v).vr q = if q = r then v else s.vr q := by
  by_cases h2 : q = r
  · simp [Slot.setV, Slot.vr, h2]
  · have h3 : q.toNat ≠ r.toNat := fun e => h2 (BitVec.eq_of_toNat_eq e)
    simp [Slot.setV, Slot.vr, h2, SMap.get_set_other _ _ _ h3]

@[simp] theorem Slot.setX_pc (s : Slot) (r : Reg) (v : Word) : (s.setX r v).pc = s.pc := by
  unfold Slot.setX; split <;> rfl
@[simp] theorem Slot.setV_pc (s : Slot) (r : Reg) (v : VReg) : (s.setV r v).pc = s.pc := rfl
@[simp] theorem Slot.setM_pc (s : Slot) (r : BitVec 3) (v : MReg) : (s.setM r v).pc = s.pc := by
  unfold Slot.setM; split <;> rfl
@[simp] theorem Slot.raise_pc (s : Slot) (f : Nat) : (s.raise f).pc = s.pc := rfl

/-! Counters of a core: counting an event changes PMC, PMWRAP and the pending wraps alone. -/

@[simp] theorem Core.perfOf_self (k : Core) : k.perfOf k = k := rfl
@[simp] theorem Core.perfOf_perfOf (k j i : Core) : (k.perfOf j).perfOf i = k.perfOf i := rfl

theorem Core.bump_perfOf (k : Core) (n b : Nat) : (k.bump n b).perfOf k = k := by
  unfold Core.bump
  dsimp only
  split <;> rfl

theorem Core.perfOf_trans {i j k : Core} (h1 : j.perfOf i = i) (h2 : k.perfOf j = j) : k.perfOf i = i := by
  rw [← Core.perfOf_perfOf k j i, h2, h1]

theorem Core.bumps_perfOf (l : List Nat) (k : Core) (b : Nat) : (l.foldl (fun k n => k.bump n b) k).perfOf k = k := by
  induction l generalizing k with
  | nil => rfl
  | cons n t ih => exact Core.perfOf_trans (Core.bump_perfOf k n b) (ih (k.bump n b))

theorem Core.count_perfOf (k : Core) (e b : Nat) : (k.count e b).perfOf k = k := Core.bumps_perfOf _ k b

theorem Core.count_slots (k : Core) (e b : Nat) : (k.count e b).slots = k.slots := by
  have h : ((k.count e b).perfOf k).slots = k.slots := by rw [Core.count_perfOf]
  exact h

theorem Core.count_slot (k : Core) (e b i : Nat) : (k.count e b).slot i = k.slot i := by
  unfold Core.slot
  rw [Core.count_slots]

theorem Core.count_engine (k : Core) (e b i : Nat) : (k.count e b).engine i = k.engine i := by
  have h : ((k.count e b).perfOf k).engine i = k.engine i := by rw [Core.count_perfOf]
  exact h

end Sys2Proof.Machine
end

