-- ==== Sys2Proof/Laws/Retire.lean ====
section
/-! SUPPORT. What issuing, retiring and stalling an instruction can do. -/

namespace Sys2Proof.Machine

/-- A slot that issues runs its instruction on itself. -/
theorem Chip.issue_of {c : Chip} {l : Loc} (h : c.Issues l) (f : Slot → Chip) : c.issue l f = f (c.slot l) := by
  obtain ⟨h1, h2, h3, h4, h5⟩ := h
  unfold Chip.issue
  simp only [h1, h2, h3, h4, h5, Option.isNone_none, Bool.not_false, Bool.and_self, if_true]

theorem Chip.slot_setCore_count (c : Chip) (l : Loc) (k : Core) : (c.setCore l.fc.toNat k).slot l = k.slot l.slot.toNat := by
  simp [Chip.slot]

/-- Replacing one slot and counting events is all that a core's update with such a core does. -/
theorem Retired.of_core {c : Chip} {l : Loc} {k : Core} {x : Slot} {pc : Word}
    (h : (k.perfOf (c.core l.fc.toNat)) = (c.core l.fc.toNat).setSlot l.slot.toNat { x with pc := pc, wait := none }) :
    Retired c (c.setCore l.fc.toNat k) l x pc where
  slot := by
    have h1 : k.slots = ((c.core l.fc.toNat).setSlot l.slot.toNat { x with pc := pc, wait := none }).slots := by
      have h0 : (k.perfOf (c.core l.fc.toNat)).slots = _ := congrArg Core.slots h
      exact h0
    have h2 : k.slot l.slot.toNat = ((c.core l.fc.toNat).setSlot l.slot.toNat { x with pc := pc, wait := none }).slot l.slot.toNat := by
      unfold Core.slot; rw [h1]
    rw [Chip.slot_setCore_count, h2, Core.slot_setSlot]
  others := by
    intro m hm
    have h1 : k.slots = ((c.core l.fc.toNat).setSlot l.slot.toNat { x with pc := pc, wait := none }).slots := by
      have h0 : (k.perfOf (c.core l.fc.toNat)).slots = _ := congrArg Core.slots h
      exact h0
    unfold Chip.slot
    by_cases h2 : m.fc.toNat = l.fc.toNat
    · have h3 : m.slot.toNat ≠ l.slot.toNat := (Loc.ne_cases hm).resolve_left (fun h4 => h4 h2)
      have h4 : k.slot m.slot.toNat = ((c.core l.fc.toNat).setSlot l.slot.toNat { x with pc := pc, wait := none }).slot m.slot.toNat := by
        unfold Core.slot; rw [h1]
      rw [h2, Chip.core_setCore, h4, Core.slot_setSlot_other _ _ h3]
    · rw [Chip.core_setCore_other _ _ h2]
  cores := by
    intro n
    by_cases h2 : n = l.fc.toNat
    · subst h2
      rw [Chip.core_setCore, h]
      rfl
    · rw [Chip.core_setCore_other _ _ h2]
      rfl
  rest := rfl

/-- Retiring changes the slot as given, and counts. -/
theorem Chip.retireAt_retired (c : Chip) (l : Loc) (x : Slot) (pc : Word) (v : Bool) : Retired c (c.retireAt l x pc v) l x pc := by
  unfold Chip.retireAt
  apply Retired.of_core
  cases v
  · have h := Core.count_perfOf ((c.core l.fc.toNat).setSlot l.slot.toNat { x with pc := pc, wait := none }) 2 1
    exact h
  · have h := Core.count_perfOf ((c.core l.fc.toNat).setSlot l.slot.toNat { x with pc := pc, wait := none }) 2 1
    have h2 := Core.count_perfOf (((c.core l.fc.toNat).setSlot l.slot.toNat { x with pc := pc, wait := none }).count 2 1) 3 1
    exact Core.perfOf_trans h h2

/-- An instruction that retires on the spot completes. -/
theorem Retires.of_run {s : State} {i : Instr} {l : Loc} {x : Slot} {pc : Word} {f : Chip → Chip} (h : exec i s = s.run f)
    (h1 : Retired s.chip (f s.chip) l x pc) : Retires s i l x pc :=
  ⟨{ s with chip := f s.chip }, h, rfl, h1⟩

end Sys2Proof.Machine
end

