-- ==== Sys2Proof/Laws/Exceptions.lean ====
section
/-! SUPPORT. What taking an exception does. -/

namespace Sys2Proof.Machine

/-- A core update that leaves a slot as it was, as the other slots see it. -/
theorem Chip.slot_setCore_other (c : Chip) {l m : Loc} (k : Core) (h : m ≠ l) (hk : ∀ j, j ≠ l.slot.toNat → k.slot j = (c.core l.fc.toNat).slot j) :
   (c.setCore l.fc.toNat k).slot m = c.slot m := by
  unfold Chip.slot
  by_cases h2 : m.fc.toNat = l.fc.toNat
  · have h3 : m.slot.toNat ≠ l.slot.toNat := (Loc.ne_cases h).resolve_left (fun h4 => h4 h2)
    rw [h2, Chip.core_setCore, hk _ h3]
  · rw [Chip.core_setCore_other _ _ h2]

/-- The bits of a word with one field replaced. -/
theorem setBits_bit (w : Word) (lo n v i : Nat) (hi : i < 64) :
   (setBits w lo n v).getLsbD i = if lo ≤ i ∧ i < lo + n then v.testBit (i - lo) else w.getLsbD i := by
  unfold setBits
  simp only [BitVec.getLsbD_or, BitVec.getLsbD_and, BitVec.getLsbD_not, BitVec.getLsbD_ofNat, hi, decide_true, Bool.true_and, Nat.testBit_shiftLeft, Nat.testBit_two_pow_sub_one, Nat.testBit_mod_two_pow]
  by_cases h1 : lo ≤ i
  · by_cases h2 : i < lo + n
    · have : i - lo < n := by omega
      simp [h1, h2, this]
    · have : ¬ (i - lo < n) := by omega
      simp [h1, h2, this]
  · simp [h1]

/-- DEPTH as handler entry sets it. -/
theorem depth_set (w : Word) (d : Nat) (hd : d < 16) : depthOf (setBits (setBits w 8 4 d) 0 1 0) = d := by
  unfold depthOf bits
  apply Nat.eq_of_testBit_eq
  intro i
  simp only [Nat.testBit_mod_two_pow, Nat.testBit_shiftRight]
  by_cases hi : i < 4
  · have h1 : (setBits (setBits w 8 4 d) 0 1 0).toNat.testBit (8 + i) = (setBits (setBits w 8 4 d) 0 1 0).getLsbD (8 + i) := rfl
    rw [h1, setBits_bit _ _ _ _ _ (by omega), setBits_bit _ _ _ _ _ (by omega)]
    have h2 : ¬ (0 ≤ 8 + i ∧ 8 + i < 0 + 1) := by omega
    have h3 : 8 ≤ 8 + i ∧ 8 + i < 8 + 4 := by omega
    rw [if_neg h2, if_pos h3]
    simp [hi]
  · have : d.testBit i = false := Nat.testBit_lt_two_pow (Nat.lt_of_lt_of_le hd (Nat.pow_le_pow_right (n := 2) (by omega) (by omega : 4 ≤ i)))
    simp [hi, this]

/-- What putting a frame into the store buffer can do: the buffer takes what it has room for, and the slot waits while some is left. -/
theorem Chip.pushFrame_spec (c : Chip) (l : Loc) (frame : List SbEntry) :
    let k := c.core l.fc.toNat
    let q := k.storeBuf ++ k.frameQ ++ frame
    ∃ k2, c.pushFrame l frame = c.setCore l.fc.toNat k2 ∧
      { k2.perfOf k with slots := k.slots, storeBuf := k.storeBuf, frameQ := k.frameQ } = k ∧
      k2.storeBuf = q.take 16 ∧ k2.frameQ = q.drop 16 ∧ (∀ j, j ≠ l.slot.toNat → k2.slot j = k.slot j) ∧
      k2.slot l.slot.toNat = if q.drop 16 = [] then c.slot l
        else { c.slot l with wait := some .storeDrain, pend := some { dst := .frame, want := [], got := [] } } := by
  intro k q
  by_cases h : q.drop 16 = []
  · refine ⟨{ k with storeBuf := q.take 16, frameQ := q.drop 16 }, ?_, rfl, rfl, rfl, fun j _ => rfl, by rw [if_pos h]; rfl⟩
    unfold Chip.pushFrame
    exact congrArg (c.setCore l.fc.toNat) (if_pos h)
  · have hp := Core.count_perfOf ({ k with storeBuf := q.take 16, frameQ := q.drop 16 }.setSlot l.slot.toNat
      { c.slot l with wait := some .storeDrain, pend := some { dst := .frame, want := [], got := [] } }) (0x10 + Cause.storeDrain.index) 1
    refine ⟨_, congrArg (c.setCore l.fc.toNat) (if_neg h), ?_, ?_, ?_, fun j hj => ?_, ?_⟩
    · exact congrArg (fun x : Core => { x.perfOf k with slots := k.slots, storeBuf := k.storeBuf, frameQ := k.frameQ }) hp
    · exact congrArg Core.storeBuf hp
    · exact congrArg Core.frameQ hp
    · rw [Core.count_slot, Core.slot_setSlot_other _ _ hj]; rfl
    · rw [Core.count_slot, Core.slot_setSlot, if_neg h]

/-- The frame stores of an exception are those of Table 6. -/
theorem frameStores_frame (x : Slot) (n : Nat) (xc xe xa : Word) :
    frameStores n x.ctxNum (x.xsp - 128) (frameWords x xc xe xa) =
      (x.frame xc xe xa).zipIdx.map (fun p =>
        { slot := n, addr := x.xsp - 128 + BitVec.ofNat 64 (8 * p.2), size := 8, data := p.1, strict := false,
          sent := false, trk := 0, ctx := x.ctxNum }) := by
  unfold frameWords Slot.frame
  simp [frameStores, List.range, List.range.loop, BitVec.add_assoc]

/-- Taking an exception where a handler may be entered is the entry of R161 and nothing else. -/
theorem Chip.exc_entered {c : Chip} {l : Loc} (h : c.Enterable l) (xc xe xa : Word) : Entered c (c.exc l xc xe xa) l xc xe xa := by
  obtain ⟨h1, h2, h3, h4⟩ := h
  unfold Slot.handler at h1 h4
  unfold Chip.exc
  dsimp only
  rw [if_neg h1, if_neg (by rw [h2]; exact Bool.false_ne_true), if_neg (by omega), if_pos h4, frameStores_frame]
  generalize hf : ((c.slot l).frame xc xe xa).zipIdx.map _ = frame
  obtain ⟨k2, e1, e2, e3, e4, e5, e6⟩ := (c.setSlot l ((c.slot l).enter xc xe xa)).pushFrame_spec l frame
  have hk : (c.setSlot l ((c.slot l).enter xc xe xa)).core l.fc.toNat = (c.core l.fc.toNat).setSlot l.slot.toNat ((c.slot l).enter xc xe xa) := by
    unfold Chip.setSlot; rw [Chip.core_setCore]
  have hb : ((c.core l.fc.toNat).setSlot l.slot.toNat ((c.slot l).enter xc xe xa)).storeBuf = (c.core l.fc.toNat).storeBuf := rfl
  have hq : ((c.core l.fc.toNat).setSlot l.slot.toNat ((c.slot l).enter xc xe xa)).frameQ = (c.core l.fc.toNat).frameQ := rfl
  rw [hk, hb, hq] at e3 e4 e6
  rw [hk] at e2 e5
  rw [Chip.slot_setSlot] at e6
  rw [e1]
  have hs : ∃ w p, ((c.setSlot l ((c.slot l).enter xc xe xa)).setCore l.fc.toNat k2).slot l = { (c.slot l).enter xc xe xa with wait := w, pend := p } := by
    rw [Chip.slot_setCore_count, e6]
    split
    · exact ⟨_, _, rfl⟩
    · exact ⟨_, _, rfl⟩
  have hc : ((c.setSlot l ((c.slot l).enter xc xe xa)).setCore l.fc.toNat k2).core l.fc.toNat = k2 := by rw [Chip.core_setCore]
  obtain ⟨w, p, hs⟩ := hs
  constructor
  · rw [hs]; rfl
  · rw [hs]; rfl
  · rw [hs]; rfl
  · rw [hs]; rfl
  · rw [hs]; exact depth_set _ _ (by omega)
  · rw [hs]; show (setBits _ _ _ _).getLsbD 0 = _; rw [setBits_bit _ _ _ _ _ (by omega)]; rfl
  · intro i hi hi2
    rw [hs]
    show (setBits _ _ _ _).getLsbD i = _
    by_cases h64 : i < 64
    · rw [setBits_bit _ _ _ _ _ h64, if_neg (by omega), setBits_bit _ _ _ _ _ h64, if_neg (by omega)]; rfl
    · rw [BitVec.getLsbD_of_ge _ _ (by omega)]; unfold bit; rw [BitVec.getLsbD_of_ge _ _ (by omega)]
  · rw [hs]; rfl
  · rw [hs]; rfl
  · rw [hs]; rfl
  · rw [hc, e3, e4]
    refine ⟨by rw [List.length_take]; omega, fun hne => ?_⟩
    rw [List.length_take]
    have : ¬ ((c.core l.fc.toNat).storeBuf ++ (c.core l.fc.toNat).frameQ ++ frame).length ≤ 16 := fun h => hne (List.drop_eq_nil_of_le h)
    omega
  · intro hn
    rw [hc, e4] at hn
    rw [Chip.slot_setCore_count, e6, if_pos hn]
    exact ⟨rfl, rfl⟩
  · intro hn
    rw [hc, e4] at hn
    rw [Chip.slot_setCore_count, e6, if_neg hn]
    exact ⟨by simp, rfl⟩
  · rw [hc, e3, e4, List.take_append_drop, ← hf]
  · intro m hm
    rw [Chip.slot_setCore_other _ _ hm, Chip.slot_setSlot_other _ _ hm]
    intro j hj
    rw [e5 j hj, hk]
  · intro n
    by_cases hn : n = l.fc.toNat
    · subst hn
      rw [hc]
      exact congrArg (fun x : Core => { x with slots := (c.core l.fc.toNat).slots }) e2
    · rw [Chip.core_setCore_other _ _ hn]
      unfold Chip.setSlot
      rw [Chip.core_setCore_other _ _ hn]
      rfl
  · rfl

/-- Retiring an instruction does not change whether the handler may be entered. -/
theorem Chip.Enterable.of_retired {c w : Chip} {l : Loc} {pc : Word} (h : c.Enterable l) (hr : Retired c w l (c.slot l) pc) : w.Enterable l := by
  obtain ⟨h1, h2, h3, h4⟩ := h
  have hw : w = { c with cores := w.cores } := by
     have := hr.rest
     rw [← this]
  have hs := hr.slot
  refine ⟨?_, ?_, ?_, ?_⟩
  · rw [hs]; exact h1
  · rw [hs]; rw [hw]; exact h2
  · rw [hs]; exact h3
  · rw [hs]; rw [hw]; exact h4

end Sys2Proof.Machine
end

