-- ==== Sys2Proof/Laws/Frame.lean ====
section
/-! SUPPORT. An update of one part of the package leaves the other parts as they are: one lemma for each update and part. -/

namespace Sys2Proof.Machine

@[simp] theorem Chip.setCore_mem (c : Chip) (n : Nat) (k : Core) : (c.setCore n k).mem = c.mem := rfl
@[simp] theorem Chip.setCore_tide (c : Chip) (n : Nat) (k : Core) : (c.setCore n k).tide = c.tide := rfl
@[simp] theorem Chip.setCore_freeCtr (c : Chip) (n : Nat) (k : Core) : (c.setCore n k).freeCtr = c.freeCtr := rfl
@[simp] theorem Chip.setCore_out (c : Chip) (n : Nat) (k : Core) : (c.setCore n k).out = c.out := rfl
@[simp] theorem Chip.setCore_dieHqs (c : Chip) (n : Nat) (k : Core) : (c.setCore n k).dieHqs = c.dieHqs := rfl
@[simp] theorem Chip.setCore_rsvs (c : Chip) (n : Nat) (k : Core) : (c.setCore n k).rsvs = c.rsvs := rfl
@[simp] theorem Chip.setCore_rmap (c : Chip) (n : Nat) (k : Core) : (c.setCore n k).rmap = c.rmap := rfl
@[simp] theorem Chip.setCore_req (c : Chip) (n : Nat) (k : Core) : (c.setCore n k).req = c.req := rfl
@[simp] theorem Chip.setCore_rcp (c : Chip) (n : Nat) (k : Core) : (c.setCore n k).rcp = c.rcp := rfl
@[simp] theorem Chip.setCore_ports (c : Chip) (n : Nat) (k : Core) : (c.setCore n k).ports = c.ports := rfl
@[simp] theorem Chip.setCore_txu (c : Chip) (n : Nat) (k : Core) : (c.setCore n k).txu = c.txu := rfl
@[simp] theorem Chip.setCore_vid (c : Chip) (n : Nat) (k : Core) : (c.setCore n k).vid = c.vid := rfl
@[simp] theorem Chip.setCore_emb (c : Chip) (n : Nat) (k : Core) : (c.setCore n k).emb = c.emb := rfl
@[simp] theorem Chip.setCore_arbs (c : Chip) (n : Nat) (k : Core) : (c.setCore n k).arbs = c.arbs := rfl
@[simp] theorem Chip.setCore_traffic (c : Chip) (n : Nat) (k : Core) : (c.setCore n k).traffic = c.traffic := rfl
@[simp] theorem Chip.setCore_cfr (c : Chip) (n : Nat) (k : Core) : (c.setCore n k).cfr = c.cfr := rfl
@[simp] theorem Chip.setCore_links (c : Chip) (n : Nat) (k : Core) : (c.setCore n k).links = c.links := rfl
@[simp] theorem Chip.setCore_net (c : Chip) (n : Nat) (k : Core) : (c.setCore n k).net = c.net := rfl
@[simp] theorem Chip.setCore_conf (c : Chip) (n : Nat) (k : Core) : (c.setCore n k).conf = c.conf := rfl
@[simp] theorem Chip.setCore_pwr (c : Chip) (n : Nat) (k : Core) : (c.setCore n k).pwr = c.pwr := rfl
@[simp] theorem Chip.setCore_mc (c : Chip) (n : Nat) (k : Core) : (c.setCore n k).mc = c.mc := rfl
@[simp] theorem Chip.setCore_rst (c : Chip) (n : Nat) (k : Core) : (c.setCore n k).rst = c.rst := rfl
@[simp] theorem Chip.setCore_scratch (c : Chip) (n : Nat) (k : Core) : (c.setCore n k).scratch = c.scratch := rfl

@[simp] theorem Chip.setSlot_mem (c : Chip) (l : Loc) (x : Slot) : (c.setSlot l x).mem = c.mem := rfl
@[simp] theorem Chip.setSlot_tide (c : Chip) (l : Loc) (x : Slot) : (c.setSlot l x).tide = c.tide := rfl
@[simp] theorem Chip.setSlot_freeCtr (c : Chip) (l : Loc) (x : Slot) : (c.setSlot l x).freeCtr = c.freeCtr := rfl
@[simp] theorem Chip.setSlot_out (c : Chip) (l : Loc) (x : Slot) : (c.setSlot l x).out = c.out := rfl
@[simp] theorem Chip.setSlot_dieHqs (c : Chip) (l : Loc) (x : Slot) : (c.setSlot l x).dieHqs = c.dieHqs := rfl
@[simp] theorem Chip.setSlot_rsvs (c : Chip) (l : Loc) (x : Slot) : (c.setSlot l x).rsvs = c.rsvs := rfl
@[simp] theorem Chip.setSlot_rmap (c : Chip) (l : Loc) (x : Slot) : (c.setSlot l x).rmap = c.rmap := rfl
@[simp] theorem Chip.setSlot_req (c : Chip) (l : Loc) (x : Slot) : (c.setSlot l x).req = c.req := rfl
@[simp] theorem Chip.setSlot_rcp (c : Chip) (l : Loc) (x : Slot) : (c.setSlot l x).rcp = c.rcp := rfl
@[simp] theorem Chip.setSlot_ports (c : Chip) (l : Loc) (x : Slot) : (c.setSlot l x).ports = c.ports := rfl
@[simp] theorem Chip.setSlot_txu (c : Chip) (l : Loc) (x : Slot) : (c.setSlot l x).txu = c.txu := rfl
@[simp] theorem Chip.setSlot_vid (c : Chip) (l : Loc) (x : Slot) : (c.setSlot l x).vid = c.vid := rfl
@[simp] theorem Chip.setSlot_emb (c : Chip) (l : Loc) (x : Slot) : (c.setSlot l x).emb = c.emb := rfl
@[simp] theorem Chip.setSlot_arbs (c : Chip) (l : Loc) (x : Slot) : (c.setSlot l x).arbs = c.arbs := rfl
@[simp] theorem Chip.setSlot_traffic (c : Chip) (l : Loc) (x : Slot) : (c.setSlot l x).traffic = c.traffic := rfl
@[simp] theorem Chip.setSlot_cfr (c : Chip) (l : Loc) (x : Slot) : (c.setSlot l x).cfr = c.cfr := rfl
@[simp] theorem Chip.setSlot_links (c : Chip) (l : Loc) (x : Slot) : (c.setSlot l x).links = c.links := rfl
@[simp] theorem Chip.setSlot_net (c : Chip) (l : Loc) (x : Slot) : (c.setSlot l x).net = c.net := rfl
@[simp] theorem Chip.setSlot_conf (c : Chip) (l : Loc) (x : Slot) : (c.setSlot l x).conf = c.conf := rfl
@[simp] theorem Chip.setSlot_pwr (c : Chip) (l : Loc) (x : Slot) : (c.setSlot l x).pwr = c.pwr := rfl
@[simp] theorem Chip.setSlot_mc (c : Chip) (l : Loc) (x : Slot) : (c.setSlot l x).mc = c.mc := rfl
@[simp] theorem Chip.setSlot_rst (c : Chip) (l : Loc) (x : Slot) : (c.setSlot l x).rst = c.rst := rfl
@[simp] theorem Chip.setSlot_scratch (c : Chip) (l : Loc) (x : Slot) : (c.setSlot l x).scratch = c.scratch := rfl

@[simp] theorem Chip.setPort_mem (c : Chip) (n : Nat) (p : Port) : (c.setPort n p).mem = c.mem := rfl
@[simp] theorem Chip.setPort_tide (c : Chip) (n : Nat) (p : Port) : (c.setPort n p).tide = c.tide := rfl
@[simp] theorem Chip.setPort_freeCtr (c : Chip) (n : Nat) (p : Port) : (c.setPort n p).freeCtr = c.freeCtr := rfl
@[simp] theorem Chip.setPort_out (c : Chip) (n : Nat) (p : Port) : (c.setPort n p).out = c.out := rfl
@[simp] theorem Chip.setPort_cores (c : Chip) (n : Nat) (p : Port) : (c.setPort n p).cores = c.cores := rfl
@[simp] theorem Chip.setPort_dieHqs (c : Chip) (n : Nat) (p : Port) : (c.setPort n p).dieHqs = c.dieHqs := rfl
@[simp] theorem Chip.setPort_rsvs (c : Chip) (n : Nat) (p : Port) : (c.setPort n p).rsvs = c.rsvs := rfl
@[simp] theorem Chip.setPort_rmap (c : Chip) (n : Nat) (p : Port) : (c.setPort n p).rmap = c.rmap := rfl
@[simp] theorem Chip.setPort_req (c : Chip) (n : Nat) (p : Port) : (c.setPort n p).req = c.req := rfl
@[simp] theorem Chip.setPort_rcp (c : Chip) (n : Nat) (p : Port) : (c.setPort n p).rcp = c.rcp := rfl
@[simp] theorem Chip.setPort_txu (c : Chip) (n : Nat) (p : Port) : (c.setPort n p).txu = c.txu := rfl
@[simp] theorem Chip.setPort_vid (c : Chip) (n : Nat) (p : Port) : (c.setPort n p).vid = c.vid := rfl
@[simp] theorem Chip.setPort_emb (c : Chip) (n : Nat) (p : Port) : (c.setPort n p).emb = c.emb := rfl
@[simp] theorem Chip.setPort_arbs (c : Chip) (n : Nat) (p : Port) : (c.setPort n p).arbs = c.arbs := rfl
@[simp] theorem Chip.setPort_traffic (c : Chip) (n : Nat) (p : Port) : (c.setPort n p).traffic = c.traffic := rfl
@[simp] theorem Chip.setPort_cfr (c : Chip) (n : Nat) (p : Port) : (c.setPort n p).cfr = c.cfr := rfl
@[simp] theorem Chip.setPort_links (c : Chip) (n : Nat) (p : Port) : (c.setPort n p).links = c.links := rfl
@[simp] theorem Chip.setPort_net (c : Chip) (n : Nat) (p : Port) : (c.setPort n p).net = c.net := rfl
@[simp] theorem Chip.setPort_conf (c : Chip) (n : Nat) (p : Port) : (c.setPort n p).conf = c.conf := rfl
@[simp] theorem Chip.setPort_pwr (c : Chip) (n : Nat) (p : Port) : (c.setPort n p).pwr = c.pwr := rfl
@[simp] theorem Chip.setPort_mc (c : Chip) (n : Nat) (p : Port) : (c.setPort n p).mc = c.mc := rfl
@[simp] theorem Chip.setPort_rst (c : Chip) (n : Nat) (p : Port) : (c.setPort n p).rst = c.rst := rfl
@[simp] theorem Chip.setPort_scratch (c : Chip) (n : Nat) (p : Port) : (c.setPort n p).scratch = c.scratch := rfl

@[simp] theorem Chip.setWindow_mem (c : Chip) (n w : Nat) (x : Window) : (c.setWindow n w x).mem = c.mem := rfl
@[simp] theorem Chip.setWindow_tide (c : Chip) (n w : Nat) (x : Window) : (c.setWindow n w x).tide = c.tide := rfl
@[simp] theorem Chip.setWindow_freeCtr (c : Chip) (n w : Nat) (x : Window) : (c.setWindow n w x).freeCtr = c.freeCtr := rfl
@[simp] theorem Chip.setWindow_out (c : Chip) (n w : Nat) (x : Window) : (c.setWindow n w x).out = c.out := rfl
@[simp] theorem Chip.setWindow_cores (c : Chip) (n w : Nat) (x : Window) : (c.setWindow n w x).cores = c.cores := rfl
@[simp] theorem Chip.setWindow_dieHqs (c : Chip) (n w : Nat) (x : Window) : (c.setWindow n w x).dieHqs = c.dieHqs := rfl
@[simp] theorem Chip.setWindow_rsvs (c : Chip) (n w : Nat) (x : Window) : (c.setWindow n w x).rsvs = c.rsvs := rfl
@[simp] theorem Chip.setWindow_rmap (c : Chip) (n w : Nat) (x : Window) : (c.setWindow n w x).rmap = c.rmap := rfl
@[simp] theorem Chip.setWindow_req (c : Chip) (n w : Nat) (x : Window) : (c.setWindow n w x).req = c.req := rfl
@[simp] theorem Chip.setWindow_rcp (c : Chip) (n w : Nat) (x : Window) : (c.setWindow n w x).rcp = c.rcp := rfl
@[simp] theorem Chip.setWindow_txu (c : Chip) (n w : Nat) (x : Window) : (c.setWindow n w x).txu = c.txu := rfl
@[simp] theorem Chip.setWindow_vid (c : Chip) (n w : Nat) (x : Window) : (c.setWindow n w x).vid = c.vid := rfl
@[simp] theorem Chip.setWindow_emb (c : Chip) (n w : Nat) (x : Window) : (c.setWindow n w x).emb = c.emb := rfl
@[simp] theorem Chip.setWindow_arbs (c : Chip) (n w : Nat) (x : Window) : (c.setWindow n w x).arbs = c.arbs := rfl
@[simp] theorem Chip.setWindow_traffic (c : Chip) (n w : Nat) (x : Window) : (c.setWindow n w x).traffic = c.traffic := rfl
@[simp] theorem Chip.setWindow_cfr (c : Chip) (n w : Nat) (x : Window) : (c.setWindow n w x).cfr = c.cfr := rfl
@[simp] theorem Chip.setWindow_links (c : Chip) (n w : Nat) (x : Window) : (c.setWindow n w x).links = c.links := rfl
@[simp] theorem Chip.setWindow_net (c : Chip) (n w : Nat) (x : Window) : (c.setWindow n w x).net = c.net := rfl
@[simp] theorem Chip.setWindow_conf (c : Chip) (n w : Nat) (x : Window) : (c.setWindow n w x).conf = c.conf := rfl
@[simp] theorem Chip.setWindow_pwr (c : Chip) (n w : Nat) (x : Window) : (c.setWindow n w x).pwr = c.pwr := rfl
@[simp] theorem Chip.setWindow_mc (c : Chip) (n w : Nat) (x : Window) : (c.setWindow n w x).mc = c.mc := rfl
@[simp] theorem Chip.setWindow_rst (c : Chip) (n w : Nat) (x : Window) : (c.setWindow n w x).rst = c.rst := rfl
@[simp] theorem Chip.setWindow_scratch (c : Chip) (n w : Nat) (x : Window) : (c.setWindow n w x).scratch = c.scratch := rfl

@[simp] theorem Chip.setLink_mem (c : Chip) (n : Nat) (k : Link) : (c.setLink n k).mem = c.mem := rfl
@[simp] theorem Chip.setLink_tide (c : Chip) (n : Nat) (k : Link) : (c.setLink n k).tide = c.tide := rfl
@[simp] theorem Chip.setLink_freeCtr (c : Chip) (n : Nat) (k : Link) : (c.setLink n k).freeCtr = c.freeCtr := rfl
@[simp] theorem Chip.setLink_out (c : Chip) (n : Nat) (k : Link) : (c.setLink n k).out = c.out := rfl
@[simp] theorem Chip.setLink_cores (c : Chip) (n : Nat) (k : Link) : (c.setLink n k).cores = c.cores := rfl
@[simp] theorem Chip.setLink_dieHqs (c : Chip) (n : Nat) (k : Link) : (c.setLink n k).dieHqs = c.dieHqs := rfl
@[simp] theorem Chip.setLink_rsvs (c : Chip) (n : Nat) (k : Link) : (c.setLink n k).rsvs = c.rsvs := rfl
@[simp] theorem Chip.setLink_rmap (c : Chip) (n : Nat) (k : Link) : (c.setLink n k).rmap = c.rmap := rfl
@[simp] theorem Chip.setLink_req (c : Chip) (n : Nat) (k : Link) : (c.setLink n k).req = c.req := rfl
@[simp] theorem Chip.setLink_rcp (c : Chip) (n : Nat) (k : Link) : (c.setLink n k).rcp = c.rcp := rfl
@[simp] theorem Chip.setLink_ports (c : Chip) (n : Nat) (k : Link) : (c.setLink n k).ports = c.ports := rfl
@[simp] theorem Chip.setLink_txu (c : Chip) (n : Nat) (k : Link) : (c.setLink n k).txu = c.txu := rfl
@[simp] theorem Chip.setLink_vid (c : Chip) (n : Nat) (k : Link) : (c.setLink n k).vid = c.vid := rfl
@[simp] theorem Chip.setLink_emb (c : Chip) (n : Nat) (k : Link) : (c.setLink n k).emb = c.emb := rfl
@[simp] theorem Chip.setLink_arbs (c : Chip) (n : Nat) (k : Link) : (c.setLink n k).arbs = c.arbs := rfl
@[simp] theorem Chip.setLink_traffic (c : Chip) (n : Nat) (k : Link) : (c.setLink n k).traffic = c.traffic := rfl
@[simp] theorem Chip.setLink_cfr (c : Chip) (n : Nat) (k : Link) : (c.setLink n k).cfr = c.cfr := rfl
@[simp] theorem Chip.setLink_net (c : Chip) (n : Nat) (k : Link) : (c.setLink n k).net = c.net := rfl
@[simp] theorem Chip.setLink_conf (c : Chip) (n : Nat) (k : Link) : (c.setLink n k).conf = c.conf := rfl
@[simp] theorem Chip.setLink_pwr (c : Chip) (n : Nat) (k : Link) : (c.setLink n k).pwr = c.pwr := rfl
@[simp] theorem Chip.setLink_mc (c : Chip) (n : Nat) (k : Link) : (c.setLink n k).mc = c.mc := rfl
@[simp] theorem Chip.setLink_rst (c : Chip) (n : Nat) (k : Link) : (c.setLink n k).rst = c.rst := rfl
@[simp] theorem Chip.setLink_scratch (c : Chip) (n : Nat) (k : Link) : (c.setLink n k).scratch = c.scratch := rfl

@[simp] theorem Chip.setDom_mem (c : Chip) (d : Nat) (x : Domain) : (c.setDom d x).mem = c.mem := rfl
@[simp] theorem Chip.setDom_tide (c : Chip) (d : Nat) (x : Domain) : (c.setDom d x).tide = c.tide := rfl
@[simp] theorem Chip.setDom_freeCtr (c : Chip) (d : Nat) (x : Domain) : (c.setDom d x).freeCtr = c.freeCtr := rfl
@[simp] theorem Chip.setDom_out (c : Chip) (d : Nat) (x : Domain) : (c.setDom d x).out = c.out := rfl
@[simp] theorem Chip.setDom_cores (c : Chip) (d : Nat) (x : Domain) : (c.setDom d x).cores = c.cores := rfl
@[simp] theorem Chip.setDom_dieHqs (c : Chip) (d : Nat) (x : Domain) : (c.setDom d x).dieHqs = c.dieHqs := rfl
@[simp] theorem Chip.setDom_rsvs (c : Chip) (d : Nat) (x : Domain) : (c.setDom d x).rsvs = c.rsvs := rfl
@[simp] theorem Chip.setDom_rmap (c : Chip) (d : Nat) (x : Domain) : (c.setDom d x).rmap = c.rmap := rfl
@[simp] theorem Chip.setDom_req (c : Chip) (d : Nat) (x : Domain) : (c.setDom d x).req = c.req := rfl
@[simp] theorem Chip.setDom_rcp (c : Chip) (d : Nat) (x : Domain) : (c.setDom d x).rcp = c.rcp := rfl
@[simp] theorem Chip.setDom_ports (c : Chip) (d : Nat) (x : Domain) : (c.setDom d x).ports = c.ports := rfl
@[simp] theorem Chip.setDom_txu (c : Chip) (d : Nat) (x : Domain) : (c.setDom d x).txu = c.txu := rfl
@[simp] theorem Chip.setDom_vid (c : Chip) (d : Nat) (x : Domain) : (c.setDom d x).vid = c.vid := rfl
@[simp] theorem Chip.setDom_emb (c : Chip) (d : Nat) (x : Domain) : (c.setDom d x).emb = c.emb := rfl
@[simp] theorem Chip.setDom_arbs (c : Chip) (d : Nat) (x : Domain) : (c.setDom d x).arbs = c.arbs := rfl
@[simp] theorem Chip.setDom_traffic (c : Chip) (d : Nat) (x : Domain) : (c.setDom d x).traffic = c.traffic := rfl
@[simp] theorem Chip.setDom_cfr (c : Chip) (d : Nat) (x : Domain) : (c.setDom d x).cfr = c.cfr := rfl
@[simp] theorem Chip.setDom_links (c : Chip) (d : Nat) (x : Domain) : (c.setDom d x).links = c.links := rfl
@[simp] theorem Chip.setDom_net (c : Chip) (d : Nat) (x : Domain) : (c.setDom d x).net = c.net := rfl
@[simp] theorem Chip.setDom_conf (c : Chip) (d : Nat) (x : Domain) : (c.setDom d x).conf = c.conf := rfl
@[simp] theorem Chip.setDom_mc (c : Chip) (d : Nat) (x : Domain) : (c.setDom d x).mc = c.mc := rfl
@[simp] theorem Chip.setDom_rst (c : Chip) (d : Nat) (x : Domain) : (c.setDom d x).rst = c.rst := rfl
@[simp] theorem Chip.setDom_scratch (c : Chip) (d : Nat) (x : Domain) : (c.setDom d x).scratch = c.scratch := rfl

@[simp] theorem Chip.setTable_mem (c : Chip) (t : Nat) (x : Table) : (c.setTable t x).mem = c.mem := rfl
@[simp] theorem Chip.setTable_tide (c : Chip) (t : Nat) (x : Table) : (c.setTable t x).tide = c.tide := rfl
@[simp] theorem Chip.setTable_freeCtr (c : Chip) (t : Nat) (x : Table) : (c.setTable t x).freeCtr = c.freeCtr := rfl
@[simp] theorem Chip.setTable_out (c : Chip) (t : Nat) (x : Table) : (c.setTable t x).out = c.out := rfl
@[simp] theorem Chip.setTable_cores (c : Chip) (t : Nat) (x : Table) : (c.setTable t x).cores = c.cores := rfl
@[simp] theorem Chip.setTable_dieHqs (c : Chip) (t : Nat) (x : Table) : (c.setTable t x).dieHqs = c.dieHqs := rfl
@[simp] theorem Chip.setTable_rsvs (c : Chip) (t : Nat) (x : Table) : (c.setTable t x).rsvs = c.rsvs := rfl
@[simp] theorem Chip.setTable_rmap (c : Chip) (t : Nat) (x : Table) : (c.setTable t x).rmap = c.rmap := rfl
@[simp] theorem Chip.setTable_req (c : Chip) (t : Nat) (x : Table) : (c.setTable t x).req = c.req := rfl
@[simp] theorem Chip.setTable_rcp (c : Chip) (t : Nat) (x : Table) : (c.setTable t x).rcp = c.rcp := rfl
@[simp] theorem Chip.setTable_ports (c : Chip) (t : Nat) (x : Table) : (c.setTable t x).ports = c.ports := rfl
@[simp] theorem Chip.setTable_txu (c : Chip) (t : Nat) (x : Table) : (c.setTable t x).txu = c.txu := rfl
@[simp] theorem Chip.setTable_vid (c : Chip) (t : Nat) (x : Table) : (c.setTable t x).vid = c.vid := rfl
@[simp] theorem Chip.setTable_arbs (c : Chip) (t : Nat) (x : Table) : (c.setTable t x).arbs = c.arbs := rfl
@[simp] theorem Chip.setTable_traffic (c : Chip) (t : Nat) (x : Table) : (c.setTable t x).traffic = c.traffic := rfl
@[simp] theorem Chip.setTable_cfr (c : Chip) (t : Nat) (x : Table) : (c.setTable t x).cfr = c.cfr := rfl
@[simp] theorem Chip.setTable_links (c : Chip) (t : Nat) (x : Table) : (c.setTable t x).links = c.links := rfl
@[simp] theorem Chip.setTable_net (c : Chip) (t : Nat) (x : Table) : (c.setTable t x).net = c.net := rfl
@[simp] theorem Chip.setTable_conf (c : Chip) (t : Nat) (x : Table) : (c.setTable t x).conf = c.conf := rfl
@[simp] theorem Chip.setTable_pwr (c : Chip) (t : Nat) (x : Table) : (c.setTable t x).pwr = c.pwr := rfl
@[simp] theorem Chip.setTable_mc (c : Chip) (t : Nat) (x : Table) : (c.setTable t x).mc = c.mc := rfl
@[simp] theorem Chip.setTable_rst (c : Chip) (t : Nat) (x : Table) : (c.setTable t x).rst = c.rst := rfl
@[simp] theorem Chip.setTable_scratch (c : Chip) (t : Nat) (x : Table) : (c.setTable t x).scratch = c.scratch := rfl

@[simp] theorem Chip.setCtx_mem (c : Chip) (n : Nat) (x : Ctx) : (c.setCtx n x).mem = c.mem := rfl
@[simp] theorem Chip.setCtx_tide (c : Chip) (n : Nat) (x : Ctx) : (c.setCtx n x).tide = c.tide := rfl
@[simp] theorem Chip.setCtx_freeCtr (c : Chip) (n : Nat) (x : Ctx) : (c.setCtx n x).freeCtr = c.freeCtr := rfl
@[simp] theorem Chip.setCtx_out (c : Chip) (n : Nat) (x : Ctx) : (c.setCtx n x).out = c.out := rfl
@[simp] theorem Chip.setCtx_cores (c : Chip) (n : Nat) (x : Ctx) : (c.setCtx n x).cores = c.cores := rfl
@[simp] theorem Chip.setCtx_dieHqs (c : Chip) (n : Nat) (x : Ctx) : (c.setCtx n x).dieHqs = c.dieHqs := rfl
@[simp] theorem Chip.setCtx_rsvs (c : Chip) (n : Nat) (x : Ctx) : (c.setCtx n x).rsvs = c.rsvs := rfl
@[simp] theorem Chip.setCtx_rmap (c : Chip) (n : Nat) (x : Ctx) : (c.setCtx n x).rmap = c.rmap := rfl
@[simp] theorem Chip.setCtx_rcp (c : Chip) (n : Nat) (x : Ctx) : (c.setCtx n x).rcp = c.rcp := rfl
@[simp] theorem Chip.setCtx_ports (c : Chip) (n : Nat) (x : Ctx) : (c.setCtx n x).ports = c.ports := rfl
@[simp] theorem Chip.setCtx_txu (c : Chip) (n : Nat) (x : Ctx) : (c.setCtx n x).txu = c.txu := rfl
@[simp] theorem Chip.setCtx_vid (c : Chip) (n : Nat) (x : Ctx) : (c.setCtx n x).vid = c.vid := rfl
@[simp] theorem Chip.setCtx_emb (c : Chip) (n : Nat) (x : Ctx) : (c.setCtx n x).emb = c.emb := rfl
@[simp] theorem Chip.setCtx_arbs (c : Chip) (n : Nat) (x : Ctx) : (c.setCtx n x).arbs = c.arbs := rfl
@[simp] theorem Chip.setCtx_traffic (c : Chip) (n : Nat) (x : Ctx) : (c.setCtx n x).traffic = c.traffic := rfl
@[simp] theorem Chip.setCtx_cfr (c : Chip) (n : Nat) (x : Ctx) : (c.setCtx n x).cfr = c.cfr := rfl
@[simp] theorem Chip.setCtx_links (c : Chip) (n : Nat) (x : Ctx) : (c.setCtx n x).links = c.links := rfl
@[simp] theorem Chip.setCtx_net (c : Chip) (n : Nat) (x : Ctx) : (c.setCtx n x).net = c.net := rfl
@[simp] theorem Chip.setCtx_conf (c : Chip) (n : Nat) (x : Ctx) : (c.setCtx n x).conf = c.conf := rfl
@[simp] theorem Chip.setCtx_pwr (c : Chip) (n : Nat) (x : Ctx) : (c.setCtx n x).pwr = c.pwr := rfl
@[simp] theorem Chip.setCtx_mc (c : Chip) (n : Nat) (x : Ctx) : (c.setCtx n x).mc = c.mc := rfl
@[simp] theorem Chip.setCtx_rst (c : Chip) (n : Nat) (x : Ctx) : (c.setCtx n x).rst = c.rst := rfl
@[simp] theorem Chip.setCtx_scratch (c : Chip) (n : Nat) (x : Ctx) : (c.setCtx n x).scratch = c.scratch := rfl

@[simp] theorem Chip.emit_mem (c : Chip) (o : Out) : (c.emit o).mem = c.mem := rfl
@[simp] theorem Chip.emit_tide (c : Chip) (o : Out) : (c.emit o).tide = c.tide := rfl
@[simp] theorem Chip.emit_freeCtr (c : Chip) (o : Out) : (c.emit o).freeCtr = c.freeCtr := rfl
@[simp] theorem Chip.emit_cores (c : Chip) (o : Out) : (c.emit o).cores = c.cores := rfl
@[simp] theorem Chip.emit_dieHqs (c : Chip) (o : Out) : (c.emit o).dieHqs = c.dieHqs := rfl
@[simp] theorem Chip.emit_rsvs (c : Chip) (o : Out) : (c.emit o).rsvs = c.rsvs := rfl
@[simp] theorem Chip.emit_rmap (c : Chip) (o : Out) : (c.emit o).rmap = c.rmap := rfl
@[simp] theorem Chip.emit_req (c : Chip) (o : Out) : (c.emit o).req = c.req := rfl
@[simp] theorem Chip.emit_rcp (c : Chip) (o : Out) : (c.emit o).rcp = c.rcp := rfl
@[simp] theorem Chip.emit_ports (c : Chip) (o : Out) : (c.emit o).ports = c.ports := rfl
@[simp] theorem Chip.emit_txu (c : Chip) (o : Out) : (c.emit o).txu = c.txu := rfl
@[simp] theorem Chip.emit_vid (c : Chip) (o : Out) : (c.emit o).vid = c.vid := rfl
@[simp] theorem Chip.emit_emb (c : Chip) (o : Out) : (c.emit o).emb = c.emb := rfl
@[simp] theorem Chip.emit_arbs (c : Chip) (o : Out) : (c.emit o).arbs = c.arbs := rfl
@[simp] theorem Chip.emit_traffic (c : Chip) (o : Out) : (c.emit o).traffic = c.traffic := rfl
@[simp] theorem Chip.emit_cfr (c : Chip) (o : Out) : (c.emit o).cfr = c.cfr := rfl
@[simp] theorem Chip.emit_links (c : Chip) (o : Out) : (c.emit o).links = c.links := rfl
@[simp] theorem Chip.emit_net (c : Chip) (o : Out) : (c.emit o).net = c.net := rfl
@[simp] theorem Chip.emit_conf (c : Chip) (o : Out) : (c.emit o).conf = c.conf := rfl
@[simp] theorem Chip.emit_pwr (c : Chip) (o : Out) : (c.emit o).pwr = c.pwr := rfl
@[simp] theorem Chip.emit_mc (c : Chip) (o : Out) : (c.emit o).mc = c.mc := rfl
@[simp] theorem Chip.emit_rst (c : Chip) (o : Out) : (c.emit o).rst = c.rst := rfl
@[simp] theorem Chip.emit_scratch (c : Chip) (o : Out) : (c.emit o).scratch = c.scratch := rfl

@[simp] theorem Chip.spend_mem (c : Chip) : (c.spend).mem = c.mem := rfl
@[simp] theorem Chip.spend_tide (c : Chip) : (c.spend).tide = c.tide := rfl
@[simp] theorem Chip.spend_out (c : Chip) : (c.spend).out = c.out := rfl
@[simp] theorem Chip.spend_cores (c : Chip) : (c.spend).cores = c.cores := rfl
@[simp] theorem Chip.spend_dieHqs (c : Chip) : (c.spend).dieHqs = c.dieHqs := rfl
@[simp] theorem Chip.spend_rsvs (c : Chip) : (c.spend).rsvs = c.rsvs := rfl
@[simp] theorem Chip.spend_rmap (c : Chip) : (c.spend).rmap = c.rmap := rfl
@[simp] theorem Chip.spend_req (c : Chip) : (c.spend).req = c.req := rfl
@[simp] theorem Chip.spend_rcp (c : Chip) : (c.spend).rcp = c.rcp := rfl
@[simp] theorem Chip.spend_ports (c : Chip) : (c.spend).ports = c.ports := rfl
@[simp] theorem Chip.spend_txu (c : Chip) : (c.spend).txu = c.txu := rfl
@[simp] theorem Chip.spend_vid (c : Chip) : (c.spend).vid = c.vid := rfl
@[simp] theorem Chip.spend_emb (c : Chip) : (c.spend).emb = c.emb := rfl
@[simp] theorem Chip.spend_arbs (c : Chip) : (c.spend).arbs = c.arbs := rfl
@[simp] theorem Chip.spend_traffic (c : Chip) : (c.spend).traffic = c.traffic := rfl
@[simp] theorem Chip.spend_cfr (c : Chip) : (c.spend).cfr = c.cfr := rfl
@[simp] theorem Chip.spend_links (c : Chip) : (c.spend).links = c.links := rfl
@[simp] theorem Chip.spend_net (c : Chip) : (c.spend).net = c.net := rfl
@[simp] theorem Chip.spend_conf (c : Chip) : (c.spend).conf = c.conf := rfl
@[simp] theorem Chip.spend_pwr (c : Chip) : (c.spend).pwr = c.pwr := rfl
@[simp] theorem Chip.spend_mc (c : Chip) : (c.spend).mc = c.mc := rfl
@[simp] theorem Chip.spend_rst (c : Chip) : (c.spend).rst = c.rst := rfl
@[simp] theorem Chip.spend_scratch (c : Chip) : (c.spend).scratch = c.scratch := rfl

@[simp] theorem Chip.setRcp_mem (c : Chip) (r : Rcp) : (c.setRcp r).mem = c.mem := rfl
@[simp] theorem Chip.setRcp_tide (c : Chip) (r : Rcp) : (c.setRcp r).tide = c.tide := rfl
@[simp] theorem Chip.setRcp_freeCtr (c : Chip) (r : Rcp) : (c.setRcp r).freeCtr = c.freeCtr := rfl
@[simp] theorem Chip.setRcp_out (c : Chip) (r : Rcp) : (c.setRcp r).out = c.out := rfl
@[simp] theorem Chip.setRcp_cores (c : Chip) (r : Rcp) : (c.setRcp r).cores = c.cores := rfl
@[simp] theorem Chip.setRcp_dieHqs (c : Chip) (r : Rcp) : (c.setRcp r).dieHqs = c.dieHqs := rfl
@[simp] theorem Chip.setRcp_rsvs (c : Chip) (r : Rcp) : (c.setRcp r).rsvs = c.rsvs := rfl
@[simp] theorem Chip.setRcp_rmap (c : Chip) (r : Rcp) : (c.setRcp r).rmap = c.rmap := rfl
@[simp] theorem Chip.setRcp_req (c : Chip) (r : Rcp) : (c.setRcp r).req = c.req := rfl
@[simp] theorem Chip.setRcp_ports (c : Chip) (r : Rcp) : (c.setRcp r).ports = c.ports := rfl
@[simp] theorem Chip.setRcp_txu (c : Chip) (r : Rcp) : (c.setRcp r).txu = c.txu := rfl
@[simp] theorem Chip.setRcp_vid (c : Chip) (r : Rcp) : (c.setRcp r).vid = c.vid := rfl
@[simp] theorem Chip.setRcp_emb (c : Chip) (r : Rcp) : (c.setRcp r).emb = c.emb := rfl
@[simp] theorem Chip.setRcp_arbs (c : Chip) (r : Rcp) : (c.setRcp r).arbs = c.arbs := rfl
@[simp] theorem Chip.setRcp_traffic (c : Chip) (r : Rcp) : (c.setRcp r).traffic = c.traffic := rfl
@[simp] theorem Chip.setRcp_cfr (c : Chip) (r : Rcp) : (c.setRcp r).cfr = c.cfr := rfl
@[simp] theorem Chip.setRcp_links (c : Chip) (r : Rcp) : (c.setRcp r).links = c.links := rfl
@[simp] theorem Chip.setRcp_net (c : Chip) (r : Rcp) : (c.setRcp r).net = c.net := rfl
@[simp] theorem Chip.setRcp_conf (c : Chip) (r : Rcp) : (c.setRcp r).conf = c.conf := rfl
@[simp] theorem Chip.setRcp_pwr (c : Chip) (r : Rcp) : (c.setRcp r).pwr = c.pwr := rfl
@[simp] theorem Chip.setRcp_mc (c : Chip) (r : Rcp) : (c.setRcp r).mc = c.mc := rfl
@[simp] theorem Chip.setRcp_rst (c : Chip) (r : Rcp) : (c.setRcp r).rst = c.rst := rfl
@[simp] theorem Chip.setRcp_scratch (c : Chip) (r : Rcp) : (c.setRcp r).scratch = c.scratch := rfl

@[simp] theorem Chip.setVoc_mem (c : Chip) (n : Nat) (v : Voc) : (c.setVoc n v).mem = c.mem := rfl
@[simp] theorem Chip.setVoc_tide (c : Chip) (n : Nat) (v : Voc) : (c.setVoc n v).tide = c.tide := rfl
@[simp] theorem Chip.setVoc_freeCtr (c : Chip) (n : Nat) (v : Voc) : (c.setVoc n v).freeCtr = c.freeCtr := rfl
@[simp] theorem Chip.setVoc_out (c : Chip) (n : Nat) (v : Voc) : (c.setVoc n v).out = c.out := rfl
@[simp] theorem Chip.setVoc_cores (c : Chip) (n : Nat) (v : Voc) : (c.setVoc n v).cores = c.cores := rfl
@[simp] theorem Chip.setVoc_dieHqs (c : Chip) (n : Nat) (v : Voc) : (c.setVoc n v).dieHqs = c.dieHqs := rfl
@[simp] theorem Chip.setVoc_rsvs (c : Chip) (n : Nat) (v : Voc) : (c.setVoc n v).rsvs = c.rsvs := rfl
@[simp] theorem Chip.setVoc_rmap (c : Chip) (n : Nat) (v : Voc) : (c.setVoc n v).rmap = c.rmap := rfl
@[simp] theorem Chip.setVoc_req (c : Chip) (n : Nat) (v : Voc) : (c.setVoc n v).req = c.req := rfl
@[simp] theorem Chip.setVoc_rcp (c : Chip) (n : Nat) (v : Voc) : (c.setVoc n v).rcp = c.rcp := rfl
@[simp] theorem Chip.setVoc_ports (c : Chip) (n : Nat) (v : Voc) : (c.setVoc n v).ports = c.ports := rfl
@[simp] theorem Chip.setVoc_vid (c : Chip) (n : Nat) (v : Voc) : (c.setVoc n v).vid = c.vid := rfl
@[simp] theorem Chip.setVoc_emb (c : Chip) (n : Nat) (v : Voc) : (c.setVoc n v).emb = c.emb := rfl
@[simp] theorem Chip.setVoc_arbs (c : Chip) (n : Nat) (v : Voc) : (c.setVoc n v).arbs = c.arbs := rfl
@[simp] theorem Chip.setVoc_traffic (c : Chip) (n : Nat) (v : Voc) : (c.setVoc n v).traffic = c.traffic := rfl
@[simp] theorem Chip.setVoc_cfr (c : Chip) (n : Nat) (v : Voc) : (c.setVoc n v).cfr = c.cfr := rfl
@[simp] theorem Chip.setVoc_links (c : Chip) (n : Nat) (v : Voc) : (c.setVoc n v).links = c.links := rfl
@[simp] theorem Chip.setVoc_net (c : Chip) (n : Nat) (v : Voc) : (c.setVoc n v).net = c.net := rfl
@[simp] theorem Chip.setVoc_conf (c : Chip) (n : Nat) (v : Voc) : (c.setVoc n v).conf = c.conf := rfl
@[simp] theorem Chip.setVoc_pwr (c : Chip) (n : Nat) (v : Voc) : (c.setVoc n v).pwr = c.pwr := rfl
@[simp] theorem Chip.setVoc_mc (c : Chip) (n : Nat) (v : Voc) : (c.setVoc n v).mc = c.mc := rfl
@[simp] theorem Chip.setVoc_rst (c : Chip) (n : Nat) (v : Voc) : (c.setVoc n v).rst = c.rst := rfl
@[simp] theorem Chip.setVoc_scratch (c : Chip) (n : Nat) (v : Voc) : (c.setVoc n v).scratch = c.scratch := rfl

@[simp] theorem Chip.setCmd_mem (c : Chip) (fc e : Nat) (x : EngCmd) : (c.setCmd fc e x).mem = c.mem := rfl
@[simp] theorem Chip.setCmd_tide (c : Chip) (fc e : Nat) (x : EngCmd) : (c.setCmd fc e x).tide = c.tide := rfl
@[simp] theorem Chip.setCmd_freeCtr (c : Chip) (fc e : Nat) (x : EngCmd) : (c.setCmd fc e x).freeCtr = c.freeCtr := rfl
@[simp] theorem Chip.setCmd_out (c : Chip) (fc e : Nat) (x : EngCmd) : (c.setCmd fc e x).out = c.out := rfl
@[simp] theorem Chip.setCmd_dieHqs (c : Chip) (fc e : Nat) (x : EngCmd) : (c.setCmd fc e x).dieHqs = c.dieHqs := rfl
@[simp] theorem Chip.setCmd_rsvs (c : Chip) (fc e : Nat) (x : EngCmd) : (c.setCmd fc e x).rsvs = c.rsvs := rfl
@[simp] theorem Chip.setCmd_rmap (c : Chip) (fc e : Nat) (x : EngCmd) : (c.setCmd fc e x).rmap = c.rmap := rfl
@[simp] theorem Chip.setCmd_req (c : Chip) (fc e : Nat) (x : EngCmd) : (c.setCmd fc e x).req = c.req := rfl
@[simp] theorem Chip.setCmd_rcp (c : Chip) (fc e : Nat) (x : EngCmd) : (c.setCmd fc e x).rcp = c.rcp := rfl
@[simp] theorem Chip.setCmd_ports (c : Chip) (fc e : Nat) (x : EngCmd) : (c.setCmd fc e x).ports = c.ports := rfl
@[simp] theorem Chip.setCmd_txu (c : Chip) (fc e : Nat) (x : EngCmd) : (c.setCmd fc e x).txu = c.txu := rfl
@[simp] theorem Chip.setCmd_vid (c : Chip) (fc e : Nat) (x : EngCmd) : (c.setCmd fc e x).vid = c.vid := rfl
@[simp] theorem Chip.setCmd_emb (c : Chip) (fc e : Nat) (x : EngCmd) : (c.setCmd fc e x).emb = c.emb := rfl
@[simp] theorem Chip.setCmd_arbs (c : Chip) (fc e : Nat) (x : EngCmd) : (c.setCmd fc e x).arbs = c.arbs := rfl
@[simp] theorem Chip.setCmd_traffic (c : Chip) (fc e : Nat) (x : EngCmd) : (c.setCmd fc e x).traffic = c.traffic := rfl
@[simp] theorem Chip.setCmd_cfr (c : Chip) (fc e : Nat) (x : EngCmd) : (c.setCmd fc e x).cfr = c.cfr := rfl
@[simp] theorem Chip.setCmd_links (c : Chip) (fc e : Nat) (x : EngCmd) : (c.setCmd fc e x).links = c.links := rfl
@[simp] theorem Chip.setCmd_net (c : Chip) (fc e : Nat) (x : EngCmd) : (c.setCmd fc e x).net = c.net := rfl
@[simp] theorem Chip.setCmd_conf (c : Chip) (fc e : Nat) (x : EngCmd) : (c.setCmd fc e x).conf = c.conf := rfl
@[simp] theorem Chip.setCmd_pwr (c : Chip) (fc e : Nat) (x : EngCmd) : (c.setCmd fc e x).pwr = c.pwr := rfl
@[simp] theorem Chip.setCmd_mc (c : Chip) (fc e : Nat) (x : EngCmd) : (c.setCmd fc e x).mc = c.mc := rfl
@[simp] theorem Chip.setCmd_rst (c : Chip) (fc e : Nat) (x : EngCmd) : (c.setCmd fc e x).rst = c.rst := rfl
@[simp] theorem Chip.setCmd_scratch (c : Chip) (fc e : Nat) (x : EngCmd) : (c.setCmd fc e x).scratch = c.scratch := rfl

@[simp] theorem Chip.setRcp_rcp (c : Chip) (r : Rcp) : (c.setRcp r).rcp = r := rfl
@[simp] theorem Chip.emit_out (c : Chip) (o : Out) : (c.emit o).out = o :: c.out := rfl
@[simp] theorem Chip.spend_freeCtr (c : Chip) : c.spend.freeCtr = c.freeCtr + 1 := rfl

@[simp] theorem Core.setSlot_storeBuf (k : Core) (i : Nat) (x : Slot) : (k.setSlot i x).storeBuf = k.storeBuf := rfl
@[simp] theorem Core.setSlot_frameQ (k : Core) (i : Nat) (x : Slot) : (k.setSlot i x).frameQ = k.frameQ := rfl
@[simp] theorem Core.setSlot_engines (k : Core) (i : Nat) (x : Slot) : (k.setSlot i x).engines = k.engines := rfl
@[simp] theorem Core.setSlot_streams (k : Core) (i : Nat) (x : Slot) : (k.setSlot i x).streams = k.streams := rfl
@[simp] theorem Core.setSlot_hqs (k : Core) (i : Nat) (x : Slot) : (k.setSlot i x).hqs = k.hqs := rfl
@[simp] theorem Core.setSlot_cycles (k : Core) (i : Nat) (x : Slot) : (k.setSlot i x).cycles = k.cycles := rfl
@[simp] theorem Core.setSlot_cycleFrac (k : Core) (i : Nat) (x : Slot) : (k.setSlot i x).cycleFrac = k.cycleFrac := rfl
@[simp] theorem Core.setSlot_pmc (k : Core) (i : Nat) (x : Slot) : (k.setSlot i x).pmc = k.pmc := rfl
@[simp] theorem Core.setSlot_pmsel (k : Core) (i : Nat) (x : Slot) : (k.setSlot i x).pmsel = k.pmsel := rfl
@[simp] theorem Core.setSlot_pmwrap (k : Core) (i : Nat) (x : Slot) : (k.setSlot i x).pmwrap = k.pmwrap := rfl
@[simp] theorem Core.setSlot_pmie (k : Core) (i : Nat) (x : Slot) : (k.setSlot i x).pmie = k.pmie := rfl
@[simp] theorem Core.setSlot_pmPending (k : Core) (i : Nat) (x : Slot) : (k.setSlot i x).pmPending = k.pmPending := rfl
@[simp] theorem Core.setSlot_stall (k : Core) (i : Nat) (x : Slot) : (k.setSlot i x).stall = k.stall := rfl
@[simp] theorem Core.setSlot_trks (k : Core) (i : Nat) (x : Slot) : (k.setSlot i x).trks = k.trks := rfl
@[simp] theorem Core.setSlot_acc (k : Core) (i : Nat) (x : Slot) : (k.setSlot i x).acc = k.acc := rfl
@[simp] theorem Core.setSlot_smWaiting (k : Core) (i : Nat) (x : Slot) : (k.setSlot i x).smWaiting = k.smWaiting := rfl

@[simp] theorem Core.setEngine_slots (k : Core) (e : Nat) (g : Engine) : (k.setEngine e g).slots = k.slots := rfl
@[simp] theorem Core.setEngine_storeBuf (k : Core) (e : Nat) (g : Engine) : (k.setEngine e g).storeBuf = k.storeBuf := rfl
@[simp] theorem Core.setEngine_frameQ (k : Core) (e : Nat) (g : Engine) : (k.setEngine e g).frameQ = k.frameQ := rfl
@[simp] theorem Core.setEngine_streams (k : Core) (e : Nat) (g : Engine) : (k.setEngine e g).streams = k.streams := rfl
@[simp] theorem Core.setEngine_hqs (k : Core) (e : Nat) (g : Engine) : (k.setEngine e g).hqs = k.hqs := rfl
@[simp] theorem Core.setEngine_cycles (k : Core) (e : Nat) (g : Engine) : (k.setEngine e g).cycles = k.cycles := rfl
@[simp] theorem Core.setEngine_cycleFrac (k : Core) (e : Nat) (g : Engine) : (k.setEngine e g).cycleFrac = k.cycleFrac := rfl
@[simp] theorem Core.setEngine_pmc (k : Core) (e : Nat) (g : Engine) : (k.setEngine e g).pmc = k.pmc := rfl
@[simp] theorem Core.setEngine_pmsel (k : Core) (e : Nat) (g : Engine) : (k.setEngine e g).pmsel = k.pmsel := rfl
@[simp] theorem Core.setEngine_pmwrap (k : Core) (e : Nat) (g : Engine) : (k.setEngine e g).pmwrap = k.pmwrap := rfl
@[simp] theorem Core.setEngine_pmie (k : Core) (e : Nat) (g : Engine) : (k.setEngine e g).pmie = k.pmie := rfl
@[simp] theorem Core.setEngine_pmPending (k : Core) (e : Nat) (g : Engine) : (k.setEngine e g).pmPending = k.pmPending := rfl
@[simp] theorem Core.setEngine_stall (k : Core) (e : Nat) (g : Engine) : (k.setEngine e g).stall = k.stall := rfl
@[simp] theorem Core.setEngine_trks (k : Core) (e : Nat) (g : Engine) : (k.setEngine e g).trks = k.trks := rfl
@[simp] theorem Core.setEngine_acc (k : Core) (e : Nat) (g : Engine) : (k.setEngine e g).acc = k.acc := rfl
@[simp] theorem Core.setEngine_smWaiting (k : Core) (e : Nat) (g : Engine) : (k.setEngine e g).smWaiting = k.smWaiting := rfl

@[simp] theorem Core.setStream_slots (k : Core) (i : Nat) (t : Stream) : (k.setStream i t).slots = k.slots := rfl
@[simp] theorem Core.setStream_storeBuf (k : Core) (i : Nat) (t : Stream) : (k.setStream i t).storeBuf = k.storeBuf := rfl
@[simp] theorem Core.setStream_frameQ (k : Core) (i : Nat) (t : Stream) : (k.setStream i t).frameQ = k.frameQ := rfl
@[simp] theorem Core.setStream_engines (k : Core) (i : Nat) (t : Stream) : (k.setStream i t).engines = k.engines := rfl
@[simp] theorem Core.setStream_hqs (k : Core) (i : Nat) (t : Stream) : (k.setStream i t).hqs = k.hqs := rfl
@[simp] theorem Core.setStream_cycles (k : Core) (i : Nat) (t : Stream) : (k.setStream i t).cycles = k.cycles := rfl
@[simp] theorem Core.setStream_cycleFrac (k : Core) (i : Nat) (t : Stream) : (k.setStream i t).cycleFrac = k.cycleFrac := rfl
@[simp] theorem Core.setStream_pmc (k : Core) (i : Nat) (t : Stream) : (k.setStream i t).pmc = k.pmc := rfl
@[simp] theorem Core.setStream_pmsel (k : Core) (i : Nat) (t : Stream) : (k.setStream i t).pmsel = k.pmsel := rfl
@[simp] theorem Core.setStream_pmwrap (k : Core) (i : Nat) (t : Stream) : (k.setStream i t).pmwrap = k.pmwrap := rfl
@[simp] theorem Core.setStream_pmie (k : Core) (i : Nat) (t : Stream) : (k.setStream i t).pmie = k.pmie := rfl
@[simp] theorem Core.setStream_pmPending (k : Core) (i : Nat) (t : Stream) : (k.setStream i t).pmPending = k.pmPending := rfl
@[simp] theorem Core.setStream_stall (k : Core) (i : Nat) (t : Stream) : (k.setStream i t).stall = k.stall := rfl
@[simp] theorem Core.setStream_trks (k : Core) (i : Nat) (t : Stream) : (k.setStream i t).trks = k.trks := rfl
@[simp] theorem Core.setStream_acc (k : Core) (i : Nat) (t : Stream) : (k.setStream i t).acc = k.acc := rfl
@[simp] theorem Core.setStream_smWaiting (k : Core) (i : Nat) (t : Stream) : (k.setStream i t).smWaiting = k.smWaiting := rfl

/-! The parts that an update of another part leaves, through their accessors. -/

@[simp] theorem Chip.setCore_port_frame (c : Chip) (n : Nat) (k : Core) (i : Nat) : (c.setCore n k).port i = c.port i := rfl
@[simp] theorem Chip.setCore_link_frame (c : Chip) (n : Nat) (k : Core) (i : Nat) : (c.setCore n k).link i = c.link i := rfl
@[simp] theorem Chip.setCore_dom_frame (c : Chip) (n : Nat) (k : Core) (i : Nat) : (c.setCore n k).dom i = c.dom i := rfl
@[simp] theorem Chip.setCore_table_frame (c : Chip) (n : Nat) (k : Core) (i : Nat) : (c.setCore n k).table i = c.table i := rfl
@[simp] theorem Chip.setCore_ctx_frame (c : Chip) (n : Nat) (k : Core) (i : Nat) : (c.setCore n k).ctx i = c.ctx i := rfl
@[simp] theorem Chip.setSlot_port_frame (c : Chip) (l : Loc) (x : Slot) (i : Nat) : (c.setSlot l x).port i = c.port i := rfl
@[simp] theorem Chip.setSlot_link_frame (c : Chip) (l : Loc) (x : Slot) (i : Nat) : (c.setSlot l x).link i = c.link i := rfl
@[simp] theorem Chip.setSlot_dom_frame (c : Chip) (l : Loc) (x : Slot) (i : Nat) : (c.setSlot l x).dom i = c.dom i := rfl
@[simp] theorem Chip.setSlot_table_frame (c : Chip) (l : Loc) (x : Slot) (i : Nat) : (c.setSlot l x).table i = c.table i := rfl
@[simp] theorem Chip.setSlot_ctx_frame (c : Chip) (l : Loc) (x : Slot) (i : Nat) : (c.setSlot l x).ctx i = c.ctx i := rfl
@[simp] theorem Chip.setPort_core_frame (c : Chip) (n : Nat) (p : Port) (i : Nat) : (c.setPort n p).core i = c.core i := rfl
@[simp] theorem Chip.setPort_slot_frame (c : Chip) (n : Nat) (p : Port) (i : Loc) : (c.setPort n p).slot i = c.slot i := rfl
@[simp] theorem Chip.setPort_link_frame (c : Chip) (n : Nat) (p : Port) (i : Nat) : (c.setPort n p).link i = c.link i := rfl
@[simp] theorem Chip.setPort_dom_frame (c : Chip) (n : Nat) (p : Port) (i : Nat) : (c.setPort n p).dom i = c.dom i := rfl
@[simp] theorem Chip.setPort_table_frame (c : Chip) (n : Nat) (p : Port) (i : Nat) : (c.setPort n p).table i = c.table i := rfl
@[simp] theorem Chip.setPort_ctx_frame (c : Chip) (n : Nat) (p : Port) (i : Nat) : (c.setPort n p).ctx i = c.ctx i := rfl
@[simp] theorem Chip.setWindow_core_frame (c : Chip) (n w : Nat) (x : Window) (i : Nat) : (c.setWindow n w x).core i = c.core i := rfl
@[simp] theorem Chip.setWindow_slot_frame (c : Chip) (n w : Nat) (x : Window) (i : Loc) : (c.setWindow n w x).slot i = c.slot i := rfl
@[simp] theorem Chip.setWindow_link_frame (c : Chip) (n w : Nat) (x : Window) (i : Nat) : (c.setWindow n w x).link i = c.link i := rfl
@[simp] theorem Chip.setWindow_dom_frame (c : Chip) (n w : Nat) (x : Window) (i : Nat) : (c.setWindow n w x).dom i = c.dom i := rfl
@[simp] theorem Chip.setWindow_table_frame (c : Chip) (n w : Nat) (x : Window) (i : Nat) : (c.setWindow n w x).table i = c.table i := rfl
@[simp] theorem Chip.setWindow_ctx_frame (c : Chip) (n w : Nat) (x : Window) (i : Nat) : (c.setWindow n w x).ctx i = c.ctx i := rfl
@[simp] theorem Chip.setLink_core_frame (c : Chip) (n : Nat) (k : Link) (i : Nat) : (c.setLink n k).core i = c.core i := rfl
@[simp] theorem Chip.setLink_slot_frame (c : Chip) (n : Nat) (k : Link) (i : Loc) : (c.setLink n k).slot i = c.slot i := rfl
@[simp] theorem Chip.setLink_port_frame (c : Chip) (n : Nat) (k : Link) (i : Nat) : (c.setLink n k).port i = c.port i := rfl
@[simp] theorem Chip.setLink_dom_frame (c : Chip) (n : Nat) (k : Link) (i : Nat) : (c.setLink n k).dom i = c.dom i := rfl
@[simp] theorem Chip.setLink_table_frame (c : Chip) (n : Nat) (k : Link) (i : Nat) : (c.setLink n k).table i = c.table i := rfl
@[simp] theorem Chip.setLink_ctx_frame (c : Chip) (n : Nat) (k : Link) (i : Nat) : (c.setLink n k).ctx i = c.ctx i := rfl
@[simp] theorem Chip.setDom_core_frame (c : Chip) (d : Nat) (x : Domain) (i : Nat) : (c.setDom d x).core i = c.core i := rfl
@[simp] theorem Chip.setDom_slot_frame (c : Chip) (d : Nat) (x : Domain) (i : Loc) : (c.setDom d x).slot i = c.slot i := rfl
@[simp] theorem Chip.setDom_port_frame (c : Chip) (d : Nat) (x : Domain) (i : Nat) : (c.setDom d x).port i = c.port i := rfl
@[simp] theorem Chip.setDom_link_frame (c : Chip) (d : Nat) (x : Domain) (i : Nat) : (c.setDom d x).link i = c.link i := rfl
@[simp] theorem Chip.setDom_table_frame (c : Chip) (d : Nat) (x : Domain) (i : Nat) : (c.setDom d x).table i = c.table i := rfl
@[simp] theorem Chip.setDom_ctx_frame (c : Chip) (d : Nat) (x : Domain) (i : Nat) : (c.setDom d x).ctx i = c.ctx i := rfl
@[simp] theorem Chip.setTable_core_frame (c : Chip) (t : Nat) (x : Table) (i : Nat) : (c.setTable t x).core i = c.core i := rfl
@[simp] theorem Chip.setTable_slot_frame (c : Chip) (t : Nat) (x : Table) (i : Loc) : (c.setTable t x).slot i = c.slot i := rfl
@[simp] theorem Chip.setTable_port_frame (c : Chip) (t : Nat) (x : Table) (i : Nat) : (c.setTable t x).port i = c.port i := rfl
@[simp] theorem Chip.setTable_link_frame (c : Chip) (t : Nat) (x : Table) (i : Nat) : (c.setTable t x).link i = c.link i := rfl
@[simp] theorem Chip.setTable_dom_frame (c : Chip) (t : Nat) (x : Table) (i : Nat) : (c.setTable t x).dom i = c.dom i := rfl
@[simp] theorem Chip.setTable_ctx_frame (c : Chip) (t : Nat) (x : Table) (i : Nat) : (c.setTable t x).ctx i = c.ctx i := rfl
@[simp] theorem Chip.setCtx_core_frame (c : Chip) (n : Nat) (x : Ctx) (i : Nat) : (c.setCtx n x).core i = c.core i := rfl
@[simp] theorem Chip.setCtx_slot_frame (c : Chip) (n : Nat) (x : Ctx) (i : Loc) : (c.setCtx n x).slot i = c.slot i := rfl
@[simp] theorem Chip.setCtx_port_frame (c : Chip) (n : Nat) (x : Ctx) (i : Nat) : (c.setCtx n x).port i = c.port i := rfl
@[simp] theorem Chip.setCtx_link_frame (c : Chip) (n : Nat) (x : Ctx) (i : Nat) : (c.setCtx n x).link i = c.link i := rfl
@[simp] theorem Chip.setCtx_dom_frame (c : Chip) (n : Nat) (x : Ctx) (i : Nat) : (c.setCtx n x).dom i = c.dom i := rfl
@[simp] theorem Chip.setCtx_table_frame (c : Chip) (n : Nat) (x : Ctx) (i : Nat) : (c.setCtx n x).table i = c.table i := rfl
@[simp] theorem Chip.emit_core_frame (c : Chip) (o : Out) (i : Nat) : (c.emit o).core i = c.core i := rfl
@[simp] theorem Chip.emit_slot_frame (c : Chip) (o : Out) (i : Loc) : (c.emit o).slot i = c.slot i := rfl
@[simp] theorem Chip.emit_port_frame (c : Chip) (o : Out) (i : Nat) : (c.emit o).port i = c.port i := rfl
@[simp] theorem Chip.emit_link_frame (c : Chip) (o : Out) (i : Nat) : (c.emit o).link i = c.link i := rfl
@[simp] theorem Chip.emit_dom_frame (c : Chip) (o : Out) (i : Nat) : (c.emit o).dom i = c.dom i := rfl
@[simp] theorem Chip.emit_table_frame (c : Chip) (o : Out) (i : Nat) : (c.emit o).table i = c.table i := rfl
@[simp] theorem Chip.emit_ctx_frame (c : Chip) (o : Out) (i : Nat) : (c.emit o).ctx i = c.ctx i := rfl
@[simp] theorem Chip.spend_core_frame (c : Chip) (i : Nat) : (c.spend).core i = c.core i := rfl
@[simp] theorem Chip.spend_slot_frame (c : Chip) (i : Loc) : (c.spend).slot i = c.slot i := rfl
@[simp] theorem Chip.spend_port_frame (c : Chip) (i : Nat) : (c.spend).port i = c.port i := rfl
@[simp] theorem Chip.spend_link_frame (c : Chip) (i : Nat) : (c.spend).link i = c.link i := rfl
@[simp] theorem Chip.spend_dom_frame (c : Chip) (i : Nat) : (c.spend).dom i = c.dom i := rfl
@[simp] theorem Chip.spend_table_frame (c : Chip) (i : Nat) : (c.spend).table i = c.table i := rfl
@[simp] theorem Chip.spend_ctx_frame (c : Chip) (i : Nat) : (c.spend).ctx i = c.ctx i := rfl
@[simp] theorem Chip.setRcp_core_frame (c : Chip) (r : Rcp) (i : Nat) : (c.setRcp r).core i = c.core i := rfl
@[simp] theorem Chip.setRcp_slot_frame (c : Chip) (r : Rcp) (i : Loc) : (c.setRcp r).slot i = c.slot i := rfl
@[simp] theorem Chip.setRcp_port_frame (c : Chip) (r : Rcp) (i : Nat) : (c.setRcp r).port i = c.port i := rfl
@[simp] theorem Chip.setRcp_link_frame (c : Chip) (r : Rcp) (i : Nat) : (c.setRcp r).link i = c.link i := rfl
@[simp] theorem Chip.setRcp_dom_frame (c : Chip) (r : Rcp) (i : Nat) : (c.setRcp r).dom i = c.dom i := rfl
@[simp] theorem Chip.setRcp_table_frame (c : Chip) (r : Rcp) (i : Nat) : (c.setRcp r).table i = c.table i := rfl
@[simp] theorem Chip.setRcp_ctx_frame (c : Chip) (r : Rcp) (i : Nat) : (c.setRcp r).ctx i = c.ctx i := rfl
@[simp] theorem Chip.setVoc_core_frame (c : Chip) (n : Nat) (v : Voc) (i : Nat) : (c.setVoc n v).core i = c.core i := rfl
@[simp] theorem Chip.setVoc_slot_frame (c : Chip) (n : Nat) (v : Voc) (i : Loc) : (c.setVoc n v).slot i = c.slot i := rfl
@[simp] theorem Chip.setVoc_port_frame (c : Chip) (n : Nat) (v : Voc) (i : Nat) : (c.setVoc n v).port i = c.port i := rfl
@[simp] theorem Chip.setVoc_link_frame (c : Chip) (n : Nat) (v : Voc) (i : Nat) : (c.setVoc n v).link i = c.link i := rfl
@[simp] theorem Chip.setVoc_dom_frame (c : Chip) (n : Nat) (v : Voc) (i : Nat) : (c.setVoc n v).dom i = c.dom i := rfl
@[simp] theorem Chip.setVoc_table_frame (c : Chip) (n : Nat) (v : Voc) (i : Nat) : (c.setVoc n v).table i = c.table i := rfl
@[simp] theorem Chip.setVoc_ctx_frame (c : Chip) (n : Nat) (v : Voc) (i : Nat) : (c.setVoc n v).ctx i = c.ctx i := rfl
@[simp] theorem Chip.setCmd_port_frame (c : Chip) (fc e : Nat) (x : EngCmd) (i : Nat) : (c.setCmd fc e x).port i = c.port i := rfl
@[simp] theorem Chip.setCmd_link_frame (c : Chip) (fc e : Nat) (x : EngCmd) (i : Nat) : (c.setCmd fc e x).link i = c.link i := rfl
@[simp] theorem Chip.setCmd_dom_frame (c : Chip) (fc e : Nat) (x : EngCmd) (i : Nat) : (c.setCmd fc e x).dom i = c.dom i := rfl
@[simp] theorem Chip.setCmd_table_frame (c : Chip) (fc e : Nat) (x : EngCmd) (i : Nat) : (c.setCmd fc e x).table i = c.table i := rfl
@[simp] theorem Chip.setCmd_ctx_frame (c : Chip) (fc e : Nat) (x : EngCmd) (i : Nat) : (c.setCmd fc e x).ctx i = c.ctx i := rfl

end Sys2Proof.Machine
end

