-- ==== Sys2Proof/Laws/Memory.lean ====
section
/-! SUPPORT. Memory: what a read gives after a write, and that every operation on memory keeps its canonical form. -/

namespace Sys2Proof.Machine

/-- A canonical list from an address on is one from any lower address on. -/
theorem Mem.above_mono {m : List Host.Cell} {lo lo2 : Nat} (h : lo2 ≤ lo) (hm : Mem.above lo m = true) : Mem.above lo2 m = true := by
  cases m with
  | nil => rfl
  | cons p t =>
    obtain ⟨a, v⟩ := p
    simp only [Mem.above, Bool.and_eq_true, decide_eq_true_eq] at hm ⊢
    exact ⟨⟨Nat.le_trans h hm.1.1, hm.1.2⟩, hm.2⟩

/-- An address below a canonical list reads 0. -/
theorem Mem.read_below {m : List Host.Cell} {lo a : Nat} (hm : Mem.above lo m = true) (h : a < lo) : Mem.read m a = 0 := by
  cases m with
  | nil => rfl
  | cons p t =>
    obtain ⟨b, v⟩ := p
    simp only [Mem.above, Bool.and_eq_true, decide_eq_true_eq] at hm
    have h1 := hm.1.1
    unfold Mem.read
    rw [if_neg (by omega), if_pos (by omega)]

/-- A store keeps the canonical form. -/
theorem Mem.above_write {m : List Host.Cell} {lo a : Nat} (v : Byte) (hm : Mem.above lo m = true) (h : lo ≤ a) :
    Mem.above lo (Mem.write m a v) = true := by
  induction m generalizing lo with
  | nil =>
    unfold Mem.write
    by_cases hv : v = 0
    · rw [if_pos hv]; rfl
    · rw [if_neg hv]; simp only [Mem.above, h, hv, ne_eq, not_false_eq_true, decide_true, Bool.and_self]
  | cons p t ih =>
    obtain ⟨b, w⟩ := p
    simp only [Mem.above, Bool.and_eq_true, decide_eq_true_eq] at hm
    obtain ⟨⟨h1, h2⟩, h3⟩ := hm
    unfold Mem.write
    by_cases hb : b = a
    · subst hb
      by_cases hv : v = 0
      · simp only [if_true, hv]; exact Mem.above_mono (by omega) h3
      · simp only [if_true, hv, if_false, Mem.above, h, h3, ne_eq, not_false_eq_true, decide_true, Bool.and_self]
    · by_cases hl : a < b
      · have h4 : a + 1 ≤ b := hl
        by_cases hv : v = 0
        · rw [if_neg hb, if_pos hl, if_pos hv]; simp only [Mem.above, h1, h2, h3, ne_eq, not_false_eq_true, decide_true, Bool.and_self]
        · rw [if_neg hb, if_pos hl, if_neg hv]; simp only [Mem.above, h, h4, hv, h2, h3, ne_eq, not_false_eq_true, decide_true, Bool.and_self]
      · rw [if_neg hb, if_neg hl]
        simp only [Mem.above, h1, h2, ih h3 (show b + 1 ≤ a by omega), ne_eq, not_false_eq_true, decide_true, Bool.and_self]

theorem Mem.wf_write {m : List Host.Cell} (a : Nat) (v : Byte) (h : Mem.wf m = true) : Mem.wf (Mem.write m a v) = true :=
  Mem.above_write v h (Nat.zero_le a)

/-- Stores keep the canonical form. -/
theorem Mem.wf_writeAll {m : List Host.Cell} (l : List (Nat × Byte)) (h : Mem.wf m = true) : Mem.wf (Mem.writeAll m l) = true := by
  induction l generalizing m with
  | nil => exact h
  | cons p t ih => exact ih (Mem.wf_write p.1 p.2 h)

/-- A part of a canonical list, in its order, is canonical. -/
theorem Mem.above_sublist {m n : List Host.Cell} (h : n.Sublist m) {lo : Nat} (hm : Mem.above lo m = true) : Mem.above lo n = true := by
  induction h generalizing lo with
  | slnil => rfl
  | cons p _ ih =>
    simp only [Mem.above, Bool.and_eq_true, decide_eq_true_eq] at hm
    exact ih (Mem.above_mono (by omega) hm.2)
  | cons_cons p _ ih =>
    simp only [Mem.above, Bool.and_eq_true, decide_eq_true_eq] at hm ⊢
    exact ⟨hm.1, ih hm.2⟩

theorem Mem.wf_filter {m : List Host.Cell} (p : Host.Cell → Bool) (h : Mem.wf m = true) : Mem.wf (m.filter p) = true :=
  Mem.above_sublist (List.filter_sublist) h

/-- Bytes that are lost leave memory canonical. -/
theorem Mem.wf_zipIdx_filter {m : List Host.Cell} (p : Host.Cell × Nat → Bool) (h : Mem.wf m = true) :
    Mem.wf ((m.zipIdx.filter p).map (fun q => q.1)) = true := by
  apply Mem.above_sublist _ h
  have h1 : ((m.zipIdx.filter p).map (fun q => q.1)).Sublist (m.zipIdx.map (fun q => q.1)) := List.Sublist.map _ List.filter_sublist
  rwa [List.zipIdx_map_fst] at h1

/-- What a read gives after a store. -/
theorem Mem.read_write {m : List Host.Cell} {lo : Nat} (hm : Mem.above lo m = true) (a b : Nat) (v : Byte) :
    Mem.read (Mem.write m a v) b = if b = a then v else Mem.read m b := by
  induction m generalizing lo with
  | nil =>
    unfold Mem.write
    by_cases hb : b = a
    · subst hb
      by_cases hv : v = 0
      · rw [if_pos hv, if_pos rfl, hv]; rfl
      · rw [if_neg hv, if_pos rfl]; unfold Mem.read; rw [if_pos rfl]
    · by_cases hv : v = 0
      · rw [if_pos hv, if_neg hb]
      · rw [if_neg hv, if_neg hb]; unfold Mem.read; rw [if_neg (Ne.symm hb), Mem.read, ite_self]
  | cons p t ih =>
    obtain ⟨j, w⟩ := p
    simp only [Mem.above, Bool.and_eq_true, decide_eq_true_eq] at hm
    obtain ⟨⟨h1, h2⟩, h3⟩ := hm
    unfold Mem.write
    by_cases hj : j = a
    · subst hj
      by_cases hv : v = 0
      · simp only [if_true, hv]
        by_cases hb : b = j
        · subst hb; rw [if_pos rfl]; exact Mem.read_below h3 (Nat.lt_succ_self _)
        · rw [if_neg hb]
          by_cases hl : b < j
          · rw [Mem.read_below h3 (by omega)]; unfold Mem.read; rw [if_neg (by omega), if_pos hl]
          · conv => rhs; unfold Mem.read
            rw [if_neg (by omega), if_neg hl]
      · by_cases hb : b = j
        · subst hb; rw [if_pos rfl, if_neg hv, if_pos rfl]; unfold Mem.read; rw [if_pos rfl]
        · rw [if_pos rfl, if_neg hv, if_neg hb]
          unfold Mem.read
          rw [if_neg (Ne.symm hb), if_neg (Ne.symm hb)]
    · rw [if_neg hj]
      by_cases hl : a < j
      · rw [if_pos hl]
        by_cases hv : v = 0
        · rw [if_pos hv]
          by_cases hb : b = a
          · subst hb; rw [if_pos rfl, hv]; unfold Mem.read; rw [if_neg (by omega), if_pos hl]
          · rw [if_neg hb]
        · rw [if_neg hv]
          by_cases hb : b = a
          · subst hb; simp [Mem.read]
          · rw [if_neg hb]
            conv => lhs; unfold Mem.read
            rw [if_neg (Ne.symm hb)]
            by_cases hl2 : b < a
            · rw [if_pos hl2]; unfold Mem.read; rw [if_neg (by omega), if_pos (by omega)]
            · rw [if_neg hl2]
      · rw [if_neg hl]
        conv => lhs; unfold Mem.read
        rw [ih h3]
        by_cases hb : b = a
        · subst hb; rw [if_neg hj, if_neg hl, if_pos rfl, if_pos rfl]
        · rw [if_neg hb, if_neg hb]; conv => rhs; unfold Mem.read

/-- A store leaves every other address alone. -/
theorem Mem.read_write_other {m : List Host.Cell} (hm : Mem.wf m = true) {a b : Nat} (v : Byte) (h : b ≠ a) :
    Mem.read (Mem.write m a v) b = Mem.read m b := by
  rw [Mem.read_write hm, if_neg h]

/-- Stores leave every address that they do not name alone. -/
theorem Mem.read_writeAll_other {m : List Host.Cell} (hm : Mem.wf m = true) (l : List (Nat × Byte)) {b : Nat} (h : ∀ p ∈ l, p.1 ≠ b) :
    Mem.read (Mem.writeAll m l) b = Mem.read m b := by
  induction l generalizing m with
  | nil => rfl
  | cons p t ih =>
    have h1 := ih (Mem.wf_write p.1 p.2 hm) (fun q hq => h q (List.mem_cons_of_mem _ hq))
    exact h1.trans (Mem.read_write_other hm p.2 (Ne.symm (h p List.mem_cons_self)))

/-! The package's operations on memory. -/

theorem Chip.put_wf {c : Chip} (cells : List (Nat × Byte)) (h : Mem.wf c.mem = true) : Mem.wf (c.put cells).mem = true :=
  Mem.wf_writeAll _ h

theorem Chip.zeroRange_wf {c : Chip} (base n : Nat) (h : Mem.wf c.mem = true) : Mem.wf (c.zeroRange base n).mem = true :=
  Mem.wf_filter _ h

theorem Chip.zeroFill_wf {c : Chip} (h : Mem.wf c.mem = true) : Mem.wf c.zeroFill.mem = true :=
  Mem.wf_zipIdx_filter _ h

theorem Chip.lose_wf {c : Chip} (keepHbm : Bool) (h : Mem.wf c.mem = true) : Mem.wf (c.lose keepHbm).mem = true := by
  cases keepHbm
  · rfl
  · exact Mem.wf_filter _ h

theorem reset_mem_wf : Mem.wf State.reset.chip.mem = true := rfl

/-- Bytes below the Basin control range that no cell of a write names read as before. -/
theorem Chip.put_read_other {c : Chip} (hm : Mem.wf c.mem = true) (cells : List (Nat × Byte)) {b : Nat} (h : ∀ p ∈ cells, p.1 ≠ b) :
    Mem.read (c.put cells).mem b = Mem.read c.mem b :=
  Mem.read_writeAll_other hm _ (fun p hp => h p (List.mem_filter.mp hp).1)

end Sys2Proof.Machine
end

