-- ==== Sys2Proof/Laws/PerInstr.lean ====
section
/-! SUPPORT. Family F, on commands as syntax: no word of the table spells a command (the table gives its rows no bits), and one that acts
on a slot's registers or loads into them is well formed with every operand. -/

namespace Sys2Proof.Laws.F

open Sys2Proof.Machine

/-- What family F states of a command. -/
def Statement (i : Instr) : Prop :=
  (∀ nbits w, decodeTableWord nbits w ≠ some i) ∧ ((Instr.registerOnly i).isSome = true ∨ (Instr.scalarLoad i).isSome = true → i.wf = true)

/-- A command that every operand leaves well formed. -/
theorem of_wf {i : Instr} (h : i.wf = true) : Statement i := ⟨fun _ _ e => (nomatch e), fun _ => h⟩

/-- A command of another kind, whose operands may name a unit that is absent. -/
theorem of_other {i : Instr} (h : Instr.registerOnly i = none) (h2 : Instr.scalarLoad i = none) : Statement i :=
  ⟨fun _ _ e => (nomatch e), fun e => by simp [h, h2] at e⟩

theorem add (l : Loc) (rd ra rb : Reg) : Statement (.add l rd ra rb) := of_wf rfl
theorem sub (l : Loc) (rd ra rb : Reg) : Statement (.sub l rd ra rb) := of_wf rfl
theorem and (l : Loc) (rd ra rb : Reg) : Statement (.and l rd ra rb) := of_wf rfl
theorem or (l : Loc) (rd ra rb : Reg) : Statement (.or l rd ra rb) := of_wf rfl
theorem xor (l : Loc) (rd ra rb : Reg) : Statement (.xor l rd ra rb) := of_wf rfl
theorem sll (l : Loc) (rd ra rb : Reg) : Statement (.sll l rd ra rb) := of_wf rfl
theorem srl (l : Loc) (rd ra rb : Reg) : Statement (.srl l rd ra rb) := of_wf rfl
theorem sra (l : Loc) (rd ra rb : Reg) : Statement (.sra l rd ra rb) := of_wf rfl
theorem slt (l : Loc) (rd ra rb : Reg) : Statement (.slt l rd ra rb) := of_wf rfl
theorem sltu (l : Loc) (rd ra rb : Reg) : Statement (.sltu l rd ra rb) := of_wf rfl
theorem mul (l : Loc) (rd ra rb : Reg) : Statement (.mul l rd ra rb) := of_wf rfl
theorem mulh (l : Loc) (rd ra rb : Reg) : Statement (.mulh l rd ra rb) := of_wf rfl
theorem mulhu (l : Loc) (rd ra rb : Reg) : Statement (.mulhu l rd ra rb) := of_wf rfl
theorem div (l : Loc) (rd ra rb : Reg) : Statement (.div l rd ra rb) := of_wf rfl
theorem divu (l : Loc) (rd ra rb : Reg) : Statement (.divu l rd ra rb) := of_wf rfl
theorem rem (l : Loc) (rd ra rb : Reg) : Statement (.rem l rd ra rb) := of_wf rfl
theorem remu (l : Loc) (rd ra rb : Reg) : Statement (.remu l rd ra rb) := of_wf rfl
theorem min (l : Loc) (rd ra rb : Reg) : Statement (.min l rd ra rb) := of_wf rfl
theorem max (l : Loc) (rd ra rb : Reg) : Statement (.max l rd ra rb) := of_wf rfl
theorem minu (l : Loc) (rd ra rb : Reg) : Statement (.minu l rd ra rb) := of_wf rfl
theorem maxu (l : Loc) (rd ra rb : Reg) : Statement (.maxu l rd ra rb) := of_wf rfl
theorem clz (l : Loc) (rd ra rb : Reg) : Statement (.clz l rd ra rb) := of_wf rfl
theorem ctz (l : Loc) (rd ra rb : Reg) : Statement (.ctz l rd ra rb) := of_wf rfl
theorem popc (l : Loc) (rd ra rb : Reg) : Statement (.popc l rd ra rb) := of_wf rfl
theorem addi (l : Loc) (rd ra : Reg) (imm : BitVec 16) : Statement (.addi l rd ra imm) := of_wf rfl
theorem andi (l : Loc) (rd ra : Reg) (imm : BitVec 16) : Statement (.andi l rd ra imm) := of_wf rfl
theorem ori (l : Loc) (rd ra : Reg) (imm : BitVec 16) : Statement (.ori l rd ra imm) := of_wf rfl
theorem xori (l : Loc) (rd ra : Reg) (imm : BitVec 16) : Statement (.xori l rd ra imm) := of_wf rfl
theorem slti (l : Loc) (rd ra : Reg) (imm : BitVec 16) : Statement (.slti l rd ra imm) := of_wf rfl
theorem sltiu (l : Loc) (rd ra : Reg) (imm : BitVec 16) : Statement (.sltiu l rd ra imm) := of_wf rfl
theorem shi (l : Loc) (rd ra : Reg) (imm : BitVec 16) : Statement (.shi l rd ra imm) := of_wf rfl
theorem lui (l : Loc) (rd : Reg) (imm : BitVec 16) : Statement (.lui l rd imm) := of_wf rfl
theorem lis (l : Loc) (rd ra : Reg) (imm : BitVec 16) : Statement (.lis l rd ra imm) := of_wf rfl
theorem lb (l : Loc) (rd ra : Reg) (imm : BitVec 16) (ecc : Bool) : Statement (.lb l rd ra imm ecc) := of_wf rfl
theorem lbu (l : Loc) (rd ra : Reg) (imm : BitVec 16) (ecc : Bool) : Statement (.lbu l rd ra imm ecc) := of_wf rfl
theorem lh (l : Loc) (rd ra : Reg) (imm : BitVec 16) (ecc : Bool) : Statement (.lh l rd ra imm ecc) := of_wf rfl
theorem lhu (l : Loc) (rd ra : Reg) (imm : BitVec 16) (ecc : Bool) : Statement (.lhu l rd ra imm ecc) := of_wf rfl
theorem lw (l : Loc) (rd ra : Reg) (imm : BitVec 16) (ecc : Bool) : Statement (.lw l rd ra imm ecc) := of_wf rfl
theorem lwu (l : Loc) (rd ra : Reg) (imm : BitVec 16) (ecc : Bool) : Statement (.lwu l rd ra imm ecc) := of_wf rfl
theorem ld (l : Loc) (rd ra : Reg) (imm : BitVec 16) (ecc : Bool) : Statement (.ld l rd ra imm ecc) := of_wf rfl
theorem sb (l : Loc) (rs ra : Reg) (imm : BitVec 16) : Statement (.sb l rs ra imm) := of_wf rfl
theorem sh (l : Loc) (rs ra : Reg) (imm : BitVec 16) : Statement (.sh l rs ra imm) := of_wf rfl
theorem sw (l : Loc) (rs ra : Reg) (imm : BitVec 16) : Statement (.sw l rs ra imm) := of_wf rfl
theorem sd (l : Loc) (rs ra : Reg) (imm : BitVec 16) : Statement (.sd l rs ra imm) := of_wf rfl
theorem beq (l : Loc) (ra rb : Reg) (off : BitVec 16) : Statement (.beq l ra rb off) := of_wf rfl
theorem bne (l : Loc) (ra rb : Reg) (off : BitVec 16) : Statement (.bne l ra rb off) := of_wf rfl
theorem blt (l : Loc) (ra rb : Reg) (off : BitVec 16) : Statement (.blt l ra rb off) := of_wf rfl
theorem bge (l : Loc) (ra rb : Reg) (off : BitVec 16) : Statement (.bge l ra rb off) := of_wf rfl
theorem bltu (l : Loc) (ra rb : Reg) (off : BitVec 16) : Statement (.bltu l ra rb off) := of_wf rfl
theorem bgeu (l : Loc) (ra rb : Reg) (off : BitVec 16) : Statement (.bgeu l ra rb off) := of_wf rfl
theorem jal (l : Loc) (rd : Reg) (off : BitVec 21) : Statement (.jal l rd off) := of_wf rfl
theorem jalr (l : Loc) (rd ra : Reg) (imm : BitVec 16) : Statement (.jalr l rd ra imm) := of_wf rfl
theorem ldrv (l : Loc) (rd ra : Reg) (imm : BitVec 16) (ecc : Bool) : Statement (.ldrv l rd ra imm ecc) := of_wf rfl
theorem stcv (l : Loc) (rd ra rb : Reg) : Statement (.stcv l rd ra rb) := of_wf rfl
theorem fenceL (l : Loc) : Statement (.fenceL l) := of_wf rfl
theorem fenceG (l : Loc) : Statement (.fenceG l) := of_wf rfl
theorem fenceE (l : Loc) (engines : BitVec 6) : Statement (.fenceE l engines) := of_wf rfl
theorem tend (l : Loc) : Statement (.tend l) := of_wf rfl
theorem yield (l : Loc) : Statement (.yield l) := of_wf rfl
theorem trap (l : Loc) (code : BitVec 12) : Statement (.trap l code) := of_wf rfl
theorem eret (l : Loc) : Statement (.eret l) := of_wf rfl
theorem mfs (l : Loc) (rd : Reg) (snum : BitVec 12) : Statement (.mfs l rd snum) := of_wf rfl
theorem mts (l : Loc) (rs : Reg) (snum : BitVec 12) : Statement (.mts l rs snum) := of_wf rfl
theorem strCfgWrite (l : Loc) (stream : BitVec 6) (rs : Reg) : Statement (.strCfgWrite l stream rs) := of_wf rfl
theorem strRingRead (l : Loc) (rd : Reg) (stream : BitVec 6) : Statement (.strRingRead l rd stream) := of_wf rfl
theorem strRingHandover (l : Loc) (stream : BitVec 6) (rs : Reg) : Statement (.strRingHandover l stream rs) := of_wf rfl
theorem enq (l : Loc) (rd ra : Reg) (engine : BitVec 3) (block : Bool) : Statement (.enq l rd ra engine block) := of_wf rfl
theorem pfh (l : Loc) (hint ra : Reg) (imm : BitVec 16) : Statement (.pfh l hint ra imm) := of_wf rfl
theorem hqput (l : Loc) (rd ra : Reg) (nb : Bool) (queue : BitVec 7) : Statement (.hqput l rd ra nb queue) := of_wf rfl
theorem hqget (l : Loc) (rd : Reg) (nb : Bool) (queue : BitVec 7) : Statement (.hqget l rd nb queue) := of_wf rfl
theorem smsg (l : Loc) (ra : Reg) : Statement (.smsg l ra) := of_wf rfl
theorem vld (l : Loc) (vd ra rb : Reg) (mask : BitVec 3) (ty mode : BitVec 4) (ecc : Bool) : Statement (.vld l vd ra rb mask ty mode ecc) := of_wf rfl
theorem vst (l : Loc) (vd ra rb : Reg) (mask : BitVec 3) (ty mode : BitVec 4) : Statement (.vst l vd ra rb mask ty mode) := of_wf rfl
theorem vadd (l : Loc) (vd va vb : Reg) (mask : BitVec 3) (ty : BitVec 4) : Statement (.vadd l vd va vb mask ty) := of_wf rfl
theorem vsub (l : Loc) (vd va vb : Reg) (mask : BitVec 3) (ty : BitVec 4) : Statement (.vsub l vd va vb mask ty) := of_wf rfl
theorem vmul (l : Loc) (vd va vb : Reg) (mask : BitVec 3) (ty : BitVec 4) : Statement (.vmul l vd va vb mask ty) := of_wf rfl
theorem vmulh (l : Loc) (vd va vb : Reg) (mask : BitVec 3) (ty : BitVec 4) : Statement (.vmulh l vd va vb mask ty) := of_wf rfl
theorem vmin (l : Loc) (vd va vb : Reg) (mask : BitVec 3) (ty : BitVec 4) : Statement (.vmin l vd va vb mask ty) := of_wf rfl
theorem vmax (l : Loc) (vd va vb : Reg) (mask : BitVec 3) (ty : BitVec 4) : Statement (.vmax l vd va vb mask ty) := of_wf rfl
theorem vand (l : Loc) (vd va vb : Reg) (mask : BitVec 3) (ty : BitVec 4) : Statement (.vand l vd va vb mask ty) := of_wf rfl
theorem vor (l : Loc) (vd va vb : Reg) (mask : BitVec 3) (ty : BitVec 4) : Statement (.vor l vd va vb mask ty) := of_wf rfl
theorem vxor (l : Loc) (vd va vb : Reg) (mask : BitVec 3) (ty : BitVec 4) : Statement (.vxor l vd va vb mask ty) := of_wf rfl
theorem vsll (l : Loc) (vd va vb : Reg) (mask : BitVec 3) (ty : BitVec 4) : Statement (.vsll l vd va vb mask ty) := of_wf rfl
theorem vsrl (l : Loc) (vd va vb : Reg) (mask : BitVec 3) (ty : BitVec 4) : Statement (.vsrl l vd va vb mask ty) := of_wf rfl
theorem vsra (l : Loc) (vd va vb : Reg) (mask : BitVec 3) (ty : BitVec 4) : Statement (.vsra l vd va vb mask ty) := of_wf rfl
theorem vadds (l : Loc) (vd va vb : Reg) (mask : BitVec 3) (ty : BitVec 4) : Statement (.vadds l vd va vb mask ty) := of_wf rfl
theorem vsubs (l : Loc) (vd va vb : Reg) (mask : BitVec 3) (ty : BitVec 4) : Statement (.vsubs l vd va vb mask ty) := of_wf rfl
theorem vabsd (l : Loc) (vd va vb : Reg) (mask : BitVec 3) (ty : BitVec 4) : Statement (.vabsd l vd va vb mask ty) := of_wf rfl
theorem vsel (l : Loc) (vd va vb : Reg) (mask : BitVec 3) (ty : BitVec 4) : Statement (.vsel l vd va vb mask ty) := of_wf rfl
theorem vfadd (l : Loc) (vd va vb : Reg) (mask : BitVec 3) (ty : BitVec 4) : Statement (.vfadd l vd va vb mask ty) := of_wf rfl
theorem vfsub (l : Loc) (vd va vb : Reg) (mask : BitVec 3) (ty : BitVec 4) : Statement (.vfsub l vd va vb mask ty) := of_wf rfl
theorem vfmul (l : Loc) (vd va vb : Reg) (mask : BitVec 3) (ty : BitVec 4) : Statement (.vfmul l vd va vb mask ty) := of_wf rfl
theorem vfdiv (l : Loc) (vd va vb : Reg) (mask : BitVec 3) (ty : BitVec 4) : Statement (.vfdiv l vd va vb mask ty) := of_wf rfl
theorem vfmin (l : Loc) (vd va vb : Reg) (mask : BitVec 3) (ty : BitVec 4) : Statement (.vfmin l vd va vb mask ty) := of_wf rfl
theorem vfmax (l : Loc) (vd va vb : Reg) (mask : BitVec 3) (ty : BitVec 4) : Statement (.vfmax l vd va vb mask ty) := of_wf rfl
theorem vfma (l : Loc) (vd va vb : Reg) (mask : BitVec 3) (ty : BitVec 4) : Statement (.vfma l vd va vb mask ty) := of_wf rfl
theorem vfsqrt (l : Loc) (vd va vb : Reg) (mask : BitVec 3) (ty : BitVec 4) : Statement (.vfsqrt l vd va vb mask ty) := of_wf rfl
theorem vflog1p (l : Loc) (vd va vb : Reg) (mask : BitVec 3) (ty : BitVec 4) : Statement (.vflog1p l vd va vb mask ty) := of_wf rfl
theorem vfabs (l : Loc) (vd va vb : Reg) (mask : BitVec 3) (ty : BitVec 4) : Statement (.vfabs l vd va vb mask ty) := of_wf rfl
theorem vfneg (l : Loc) (vd va vb : Reg) (mask : BitVec 3) (ty : BitVec 4) : Statement (.vfneg l vd va vb mask ty) := of_wf rfl
theorem vfclamp (l : Loc) (vd va vb : Reg) (mask : BitVec 3) (ty : BitVec 4) : Statement (.vfclamp l vd va vb mask ty) := of_wf rfl
theorem vcmpEq (l : Loc) (vd va vb : Reg) (mask : BitVec 3) (ty : BitVec 4) : Statement (.vcmpEq l vd va vb mask ty) := of_wf rfl
theorem vcmpNe (l : Loc) (vd va vb : Reg) (mask : BitVec 3) (ty : BitVec 4) : Statement (.vcmpNe l vd va vb mask ty) := of_wf rfl
theorem vcmpLt (l : Loc) (vd va vb : Reg) (mask : BitVec 3) (ty : BitVec 4) : Statement (.vcmpLt l vd va vb mask ty) := of_wf rfl
theorem vcmpLe (l : Loc) (vd va vb : Reg) (mask : BitVec 3) (ty : BitVec 4) : Statement (.vcmpLe l vd va vb mask ty) := of_wf rfl
theorem vcmpGt (l : Loc) (vd va vb : Reg) (mask : BitVec 3) (ty : BitVec 4) : Statement (.vcmpGt l vd va vb mask ty) := of_wf rfl
theorem vcmpGe (l : Loc) (vd va vb : Reg) (mask : BitVec 3) (ty : BitVec 4) : Statement (.vcmpGe l vd va vb mask ty) := of_wf rfl
theorem mand (l : Loc) (vd va vb : Reg) (mask : BitVec 3) (ty : BitVec 4) : Statement (.mand l vd va vb mask ty) := of_wf rfl
theorem mor (l : Loc) (vd va vb : Reg) (mask : BitVec 3) (ty : BitVec 4) : Statement (.mor l vd va vb mask ty) := of_wf rfl
theorem mxor (l : Loc) (vd va vb : Reg) (mask : BitVec 3) (ty : BitVec 4) : Statement (.mxor l vd va vb mask ty) := of_wf rfl
theorem mandn (l : Loc) (vd va vb : Reg) (mask : BitVec 3) (ty : BitVec 4) : Statement (.mandn l vd va vb mask ty) := of_wf rfl
theorem mnot (l : Loc) (vd va vb : Reg) (mask : BitVec 3) (ty : BitVec 4) : Statement (.mnot l vd va vb mask ty) := of_wf rfl
theorem mpopc (l : Loc) (vd va vb : Reg) (mask : BitVec 3) (ty : BitVec 4) : Statement (.mpopc l vd va vb mask ty) := of_wf rfl
theorem mfirst (l : Loc) (vd va vb : Reg) (mask : BitVec 3) (ty : BitVec 4) : Statement (.mfirst l vd va vb mask ty) := of_wf rfl
theorem vbcast (l : Loc) (vd va vb : Reg) (mask : BitVec 3) (ty : BitVec 4) : Statement (.vbcast l vd va vb mask ty) := of_wf rfl
theorem vext (l : Loc) (vd va vb : Reg) (mask : BitVec 3) (ty : BitVec 4) : Statement (.vext l vd va vb mask ty) := of_wf rfl
theorem vins (l : Loc) (vd va vb : Reg) (mask : BitVec 3) (ty : BitVec 4) : Statement (.vins l vd va vb mask ty) := of_wf rfl
theorem vcompress (l : Loc) (vd va vb : Reg) (mask : BitVec 3) (ty : BitVec 4) : Statement (.vcompress l vd va vb mask ty) := of_wf rfl
theorem vredsum (l : Loc) (vd va vb : Reg) (mask : BitVec 3) (ty : BitVec 4) : Statement (.vredsum l vd va vb mask ty) := of_wf rfl
theorem vredmin (l : Loc) (vd va vb : Reg) (mask : BitVec 3) (ty : BitVec 4) : Statement (.vredmin l vd va vb mask ty) := of_wf rfl
theorem vredmax (l : Loc) (vd va vb : Reg) (mask : BitVec 3) (ty : BitVec 4) : Statement (.vredmax l vd va vb mask ty) := of_wf rfl
theorem vfredsum (l : Loc) (vd va vb : Reg) (mask : BitVec 3) (ty : BitVec 4) : Statement (.vfredsum l vd va vb mask ty) := of_wf rfl
theorem vcvt (l : Loc) (vd va : Reg) (srcTy : BitVec 4) (mask : BitVec 3) (ty part : BitVec 4) : Statement (.vcvt l vd va srcTy mask ty part) := of_wf rfl
theorem vhist (l : Loc) (ra rb rc : Reg) (ty : BitVec 4) (events : SweepEvents) : Statement (.vhist l ra rb rc ty events) := of_wf rfl
theorem vscan (l : Loc) (ra rb rc : Reg) (ty : BitVec 4) (events : SweepEvents) : Statement (.vscan l ra rb rc ty events) := of_wf rfl
theorem vfill (l : Loc) (ra rb rc : Reg) (ty : BitVec 4) (intr : Option Nat) : Statement (.vfill l ra rb rc ty intr) := of_wf rfl
theorem bsrch (l : Loc) (ra rb rc : Reg) (ty : BitVec 4) (events : SweepEvents) : Statement (.bsrch l ra rb rc ty events) := of_wf rfl
theorem doubleFaultService (l : Loc) : Statement (.doubleFaultService l) := of_wf rfl
theorem pmcWrap (fc : BitVec 6) (counter : BitVec 4) : Statement (.pmcWrap fc counter) := of_wf rfl
theorem pmcWrapInterrupt (fc : BitVec 6) : Statement (.pmcWrapInterrupt fc) := of_wf rfl
theorem kill (ctx : BitVec 17) : Statement (.kill ctx) := of_wf rfl
theorem reservationTimeout (l : Loc) : Statement (.reservationTimeout l) := of_wf rfl
theorem storeBufferDrain (fc : BitVec 6) : Statement (.storeBufferDrain fc) := of_wf rfl
theorem startHandleTake (fc : BitVec 6) (engine : Nat) : Statement (.startHandleTake fc engine) := of_other rfl rfl
theorem engineCommandComplete (fc : BitVec 6) (engine : Nat) : Statement (.engineCommandComplete fc engine) := of_other rfl rfl
theorem doneHandlePut (fc : BitVec 6) (engine : Nat) : Statement (.doneHandlePut fc engine) := of_other rfl rfl
theorem stream (fc : BitVec 6) (ecc : Bool) : Statement (.stream fc ecc) := of_wf rfl
theorem a2a (fc : BitVec 6) (ecc : Bool) : Statement (.a2a fc ecc) := of_wf rfl
theorem bcast (fc : BitVec 6) (ecc : Bool) : Statement (.bcast fc ecc) := of_wf rfl
theorem pelotonMemberComplete (fc : BitVec 6) : Statement (.pelotonMemberComplete fc) := of_wf rfl
theorem layoutCopy (fc : BitVec 6) (ecc : Bool) : Statement (.layoutCopy fc ecc) := of_wf rfl
theorem gather (fc : BitVec 6) (ecc : Bool) : Statement (.gather fc ecc) := of_wf rfl
theorem bag (fc : BitVec 6) (ecc : Bool) : Statement (.bag fc ecc) := of_wf rfl
theorem hash (fc : BitVec 6) (ecc : Bool) : Statement (.hash fc ecc) := of_wf rfl
theorem hjuClear (fc : BitVec 6) (ecc : Bool) : Statement (.hjuClear fc ecc) := of_wf rfl
theorem build (fc : BitVec 6) (ecc : Bool) : Statement (.build fc ecc) := of_wf rfl
theorem probe (fc : BitVec 6) (ecc : Bool) : Statement (.probe fc ecc) := of_wf rfl
theorem partition (fc : BitVec 6) (ecc : Bool) : Statement (.partition fc ecc) := of_wf rfl
theorem scatter (fc : BitVec 6) (ecc : Bool) : Statement (.scatter fc ecc) := of_wf rfl
theorem select (fc : BitVec 6) (ecc : Bool) : Statement (.select fc ecc) := of_wf rfl
theorem gemm (fc : BitVec 6) (ecc : Bool) : Statement (.gemm fc ecc) := of_wf rfl
theorem voxelise (fc : BitVec 6) (ecc : Bool) : Statement (.voxelise fc ecc) := of_wf rfl
theorem rules (fc : BitVec 6) (ecc : Bool) : Statement (.rules fc ecc) := of_wf rfl
theorem conv (fc : BitVec 6) (ecc : Bool) : Statement (.conv fc ecc) := of_wf rfl
theorem bev (fc : BitVec 6) (ecc : Bool) : Statement (.bev fc ecc) := of_wf rfl
theorem labels (fc : BitVec 6) (ecc : Bool) : Statement (.labels fc ecc) := of_wf rfl
theorem intakeWrite (port : BitVec 2) (window : BitVec 6) (payload : Payload) (fullBe : Bool) : Statement (.intakeWrite port window payload fullBe) := of_other rfl rfl
theorem windowAtomicop (port : BitVec 2) (window : Option (BitVec 6)) : Statement (.windowAtomicop port window) := of_wf rfl
theorem admitRequest (ctx : BitVec 17) : Statement (.admitRequest ctx) := of_wf rfl
theorem cwbTimer (port : BitVec 2) (window : BitVec 6) : Statement (.cwbTimer port window) := of_wf rfl
theorem stagePlace : Statement (.stagePlace) := of_wf rfl
theorem stageComplete (ctx : BitVec 17) (stage : BitVec 12) : Statement (.stageComplete ctx stage) := of_wf rfl
theorem deadlineExpiry (ctx : BitVec 17) : Statement (.deadlineExpiry ctx) := of_wf rfl
theorem deliveryBegin (ctx : BitVec 17) (body : Option (List Byte)) : Statement (.deliveryBegin ctx body) := of_wf rfl
theorem completionRecord (port : BitVec 2) (window : BitVec 6) : Statement (.completionRecord port window) := of_wf rfl
theorem irqDelayExpiry (port : BitVec 2) (window : BitVec 6) : Statement (.irqDelayExpiry port window) := of_wf rfl
theorem windowReset (port : BitVec 2) (window : BitVec 6) : Statement (.windowReset port window) := of_wf rfl
theorem ringConfigWrite (port : BitVec 2) (window : BitVec 6) (reg : RingReg) (value : Word) : Statement (.ringConfigWrite port window reg value) := of_wf rfl
theorem pcieReadCompletion (port : BitVec 2) (tag : BitVec 14) (data : List Byte) (error : Option ReadError) : Statement (.pcieReadCompletion port tag data error) := of_other rfl rfl
theorem pcieCompletionTimeout (port : BitVec 2) (tag : BitVec 14) : Statement (.pcieCompletionTimeout port tag) := of_wf rfl
theorem functionLevelReset (port : BitVec 2) : Statement (.functionLevelReset port) := of_wf rfl
theorem perstAssert (port : BitVec 2) : Statement (.perstAssert port) := of_wf rfl
theorem perstRelease (port : BitVec 2) : Statement (.perstRelease port) := of_wf rfl
theorem pcieLinkDown (port : BitVec 2) : Statement (.pcieLinkDown port) := of_wf rfl
theorem busMasterDisable (port : BitVec 2) : Statement (.busMasterDisable port) := of_wf rfl
theorem bar4Write (port : BitVec 2) (offset : BitVec 28) (data : Payload) : Statement (.bar4Write port offset data) := of_other rfl rfl
theorem bar4Read (port : BitVec 2) (offset : BitVec 28) (len : Nat) : Statement (.bar4Read port offset len) := of_other rfl rfl
theorem bar5Access (port : BitVec 2) (offset : BitVec 24) (size : Nat) (op : RegOp) : Statement (.bar5Access port offset size op) := of_wf rfl
theorem registerWrite (path : Path) (offset : BitVec 24) (size : Nat) (op : RegOp) : Statement (.registerWrite path offset size op) := of_wf rfl
theorem quiesce (value : Word) : Statement (.quiesce value) := of_wf rfl
theorem resume (value : Word) : Statement (.resume value) := of_wf rfl
theorem drainTimeoutExpiry : Statement (.drainTimeoutExpiry) := of_wf rfl
theorem verify : Statement (.verify) := of_wf rfl
theorem verifyDone : Statement (.verifyDone) := of_wf rfl
theorem stageRegWrite (len : Bool) (value : Word) : Statement (.stageRegWrite len value) := of_wf rfl
theorem slotCommit (slot : BitVec 2) : Statement (.slotCommit slot) := of_wf rfl
theorem slotClear (slot : BitVec 2) : Statement (.slotClear slot) := of_wf rfl
theorem lockReq : Statement (.lockReq) := of_wf rfl
theorem unlock : Statement (.unlock) := of_wf rfl
theorem smsgMessage (m : Msg) : Statement (.smsgMessage m) := of_wf rfl
theorem smsgDeliver (fc : BitVec 6) : Statement (.smsgDeliver fc) := of_wf rfl
theorem poolIdleOff (fc : BitVec 6) : Statement (.poolIdleOff fc) := of_wf rfl
theorem arbGrant (home : ArbHome) (n : Nat) : Statement (.arbGrant home n) := of_other rfl rfl
theorem tableRegWrite (table : BitVec 6) (reg : TableReg) (value : Word) : Statement (.tableRegWrite table reg value) := of_wf rfl
theorem sliceRd (m : Msg) (ecc : Bool) : Statement (.sliceRd m ecc) := of_wf rfl
theorem sliceData (m : Msg) : Statement (.sliceData m) := of_wf rfl
theorem measEpochEnd : Statement (.measEpochEnd) := of_wf rfl
theorem migrationCommit : Statement (.migrationCommit) := of_wf rfl
theorem vocLoad (slot : BitVec 4) : Statement (.vocLoad slot) := of_wf rfl
theorem vocLoadDone (slot : BitVec 4) : Statement (.vocLoadDone slot) := of_wf rfl
theorem vocClear (slot : BitVec 4) : Statement (.vocClear slot) := of_wf rfl
theorem textJobStart : Statement (.textJobStart) := of_wf rfl
theorem tokenise (lane : BitVec 2) (ecc : Bool) : Statement (.tokenise lane ecc) := of_wf rfl
theorem detokenise (lane : BitVec 2) (ecc : Bool) : Statement (.detokenise lane ecc) := of_wf rfl
theorem decodeShape (ctx : BitVec 17) (stage : BitVec 12) (ecc : Bool) : Statement (.decodeShape ctx stage ecc) := of_wf rfl
theorem decodeUnitStart : Statement (.decodeUnitStart) := of_wf rfl
theorem sampleEmerge (ctx : BitVec 17) (stage : BitVec 12) (sample : Sample) : Statement (.sampleEmerge ctx stage sample) := of_wf rfl
theorem codewordSend (turn : LinkTurn) : Statement (.codewordSend turn) := of_other rfl rfl
theorem codewordReceive (link : Nat) (cw : Codeword) : Statement (.codewordReceive link cw) := of_other rfl rfl
theorem replayTimeout (link : Nat) : Statement (.replayTimeout link) := of_other rfl rfl
theorem lossOfLock (link : Nat) : Statement (.lossOfLock link) := of_other rfl rfl
theorem signalDetect (link : Nat) : Statement (.signalDetect link) := of_other rfl rfl
theorem laneFrame (link : Nat) (lane : BitVec 3) (frame : LaneFrame) : Statement (.laneFrame link lane frame) := of_other rfl rfl
theorem trainingSet (link : Nat) (set : List Byte) : Statement (.trainingSet link set) := of_other rfl rfl
theorem pollTimeout (link : Nat) : Statement (.pollTimeout link) := of_other rfl rfl
theorem eqTimeout (link : Nat) : Statement (.eqTimeout link) := of_other rfl rfl
theorem configTimeout (link : Nat) : Statement (.configTimeout link) := of_other rfl rfl
theorem retrainTimeout (link : Nat) : Statement (.retrainTimeout link) := of_other rfl rfl
theorem linkTest (link : Nat) : Statement (.linkTest link) := of_other rfl rfl
theorem linkTestDone (link : Nat) : Statement (.linkTestDone link) := of_other rfl rfl
theorem linkRetrain (link : Nat) : Statement (.linkRetrain link) := of_other rfl rfl
theorem linkDisable (link : Nat) : Statement (.linkDisable link) := of_other rfl rfl
theorem linkEnable (link : Nat) : Statement (.linkEnable link) := of_other rfl rfl
theorem waypointReinject (m : Msg) : Statement (.waypointReinject m) := of_wf rfl
theorem rd (m : Msg) : Statement (.rd m) := of_wf rfl
theorem wr (m : Msg) : Statement (.wr m) := of_wf rfl
theorem rsvRd (m : Msg) : Statement (.rsvRd m) := of_wf rfl
theorem stc (m : Msg) : Statement (.stc m) := of_wf rfl
theorem pfhMessage (m : Msg) : Statement (.pfhMessage m) := of_wf rfl
theorem rdData (m : Msg) : Statement (.rdData m) := of_wf rfl
theorem wrAck (m : Msg) : Statement (.wrAck m) := of_wf rfl
theorem rsvResult (m : Msg) : Statement (.rsvResult m) := of_wf rfl
theorem smAck (m : Msg) : Statement (.smAck m) := of_wf rfl
theorem refuse (m : Msg) : Statement (.refuse m) := of_wf rfl
theorem remoteTimeout (fc : BitVec 6) (txn : BitVec 10) : Statement (.remoteTimeout fc txn) := of_wf rfl
theorem contrib (m : Msg) : Statement (.contrib m) := of_wf rfl
theorem hist (m : Msg) : Statement (.hist m) := of_wf rfl
theorem join (m : Msg) : Statement (.join m) := of_wf rfl
theorem result (m : Msg) : Statement (.result m) := of_wf rfl
theorem a2aCount (m : Msg) : Statement (.a2aCount m) := of_wf rfl
theorem a2aOffset (m : Msg) : Statement (.a2aOffset m) := of_wf rfl
theorem bulkWr (m : Msg) : Statement (.bulkWr m) := of_wf rfl
theorem bcastData (m : Msg) : Statement (.bcastData m) := of_wf rfl
theorem mregRd (m : Msg) : Statement (.mregRd m) := of_wf rfl
theorem mregWr (m : Msg) : Statement (.mregWr m) := of_wf rfl
theorem mregData (m : Msg) : Statement (.mregData m) := of_wf rfl
theorem epochReport (link : Nat) (report : Report) : Statement (.epochReport link report) := of_other rfl rfl
theorem epochFreeze (plan : EpochPlan) : Statement (.epochFreeze plan) := of_wf rfl
theorem drainQuiet : Statement (.drainQuiet) := of_wf rfl
theorem epochDrained (pkg : BitVec 12) : Statement (.epochDrained pkg) := of_wf rfl
theorem epochCommit (epoch : BitVec 32) (tide : Word) : Statement (.epochCommit epoch tide) := of_wf rfl
theorem epochResume : Statement (.epochResume) := of_wf rfl
theorem collectExpiry : Statement (.collectExpiry) := of_wf rfl
theorem freezeLimitExpiry (pkg : BitVec 12) : Statement (.freezeLimitExpiry pkg) := of_wf rfl
theorem coordinatorFailover : Statement (.coordinatorFailover) := of_wf rfl
theorem netCmdEpoch : Statement (.netCmdEpoch) := of_wf rfl
theorem pwrReqRun (domain : Nat) : Statement (.pwrReqRun domain) := of_other rfl rfl
theorem pwrReqFreewheel (domain : Nat) : Statement (.pwrReqFreewheel domain) := of_other rfl rfl
theorem pwrReqOff (domain : Nat) : Statement (.pwrReqOff domain) := of_other rfl rfl
theorem powerTransitionBegin (domain : Nat) : Statement (.powerTransitionBegin domain) := of_other rfl rfl
theorem powerTransitionDone (domain : Nat) : Statement (.powerTransitionDone domain) := of_other rfl rfl
theorem selftestDone (fc : BitVec 6) (pass : Bool) : Statement (.selftestDone fc pass) := of_wf rfl
theorem fwIdleExpiry (fc : BitVec 6) : Statement (.fwIdleExpiry fc) := of_wf rfl
theorem offIdleExpiry (fc : BitVec 6) : Statement (.offIdleExpiry fc) := of_wf rfl
theorem freqChangeDone (fc : BitVec 6) : Statement (.freqChangeDone fc) := of_wf rfl
theorem thermalSample (temps : List Int) : Statement (.thermalSample temps) := of_other rfl rfl
theorem powerCapSample (watts : BitVec 16) : Statement (.powerCapSample watts) := of_wf rfl
theorem thermtrip (sensor : Nat) : Statement (.thermtrip sensor) := of_other rfl rfl
theorem sensorSampleTemp (temps : List Int) : Statement (.sensorSampleTemp temps) := of_other rfl rfl
theorem sensorSampleRail (volts : List Nat) (currents : List Nat) : Statement (.sensorSampleRail volts currents) := of_other rfl rfl
theorem railPoll (readings : List (Nat × Nat)) : Statement (.railPoll readings) := of_other rfl rfl
theorem railFault (rail : Nat) (statusWord : BitVec 16) : Statement (.railFault rail statusWord) := of_other rfl rfl
theorem logCopy : Statement (.logCopy) := of_wf rfl
theorem logRd (seq : Word) : Statement (.logRd seq) := of_wf rfl
theorem logRdDone : Statement (.logRdDone) := of_wf rfl
theorem mcStart : Statement (.mcStart) := of_wf rfl
theorem mgmtRegRead (offset : Word) (payload : List Byte) : Statement (.mgmtRegRead offset payload) := of_wf rfl
theorem mgmtRegWrite (offset : Word) (payload : List Byte) : Statement (.mgmtRegWrite offset payload) := of_wf rfl
theorem mgmtHbmWrite (offset : Word) (payload : List Byte) : Statement (.mgmtHbmWrite offset payload) := of_wf rfl
theorem i3cSummaryRead (count : Nat) : Statement (.i3cSummaryRead count) := of_wf rfl
theorem i3cSetPointer (pointer : Byte) : Statement (.i3cSetPointer pointer) := of_wf rfl
theorem i3cThrottle : Statement (.i3cThrottle) := of_wf rfl
theorem i3cMcRestart : Statement (.i3cMcRestart) := of_wf rfl
theorem smbusBlockRead : Statement (.smbusBlockRead) := of_wf rfl
theorem jtagInstruction (instruction : JtagOp) : Statement (.jtagInstruction instruction) := of_wf rfl
theorem fwInstall : Statement (.fwInstall) := of_wf rfl
theorem fwInstallDone : Statement (.fwInstallDone) := of_wf rfl
theorem fwActivate : Statement (.fwActivate) := of_wf rfl
theorem fwCommit : Statement (.fwCommit) := of_wf rfl
theorem fwRevert : Statement (.fwRevert) := of_wf rfl
theorem cfgApply : Statement (.cfgApply) := of_wf rfl
theorem cfgApplyDone (nonce : Word) : Statement (.cfgApplyDone nonce) := of_wf rfl
theorem porRise (bringupN : Bool) : Statement (.porRise bringupN) := of_wf rfl
theorem porFall : Statement (.porFall) := of_wf rfl
theorem railPowerGood (rail : Nat) : Statement (.railPowerGood rail) := of_other rfl rfl
theorem railEnableTimeout (rail : Nat) : Statement (.railEnableTimeout rail) := of_other rfl rfl
theorem hbmTrainingDone : Statement (.hbmTrainingDone) := of_wf rfl
theorem hbmZeroFillDone : Statement (.hbmZeroFillDone) := of_wf rfl
theorem warmRestart : Statement (.warmRestart) := of_wf rfl
theorem refclk25Loss : Statement (.refclk25Loss) := of_wf rfl
theorem sparlineRefclkLoss (clockB : Bool) : Statement (.sparlineRefclkLoss clockB) := of_wf rfl
theorem stalledDescriptorDeadline (port : BitVec 2) (window : BitVec 6) : Statement (.stalledDescriptorDeadline port window) := of_wf rfl
theorem slotCommitDone : Statement (.slotCommitDone) := of_wf rfl
theorem illegalWord (l : Loc) (word : BitVec 32) : Statement (.illegalWord l word) := of_wf rfl
theorem msixVectorUnmask (port : BitVec 2) (vector : BitVec 11) (addr : Word) (data : BitVec 32) : Statement (.msixVectorUnmask port vector addr data) := of_wf rfl
theorem pcieLinkUp (port : BitVec 2) (rate : BitVec 4) (mode : PortMode) : Statement (.pcieLinkUp port rate mode) := of_other rfl rfl
theorem mgmtSessionOpen (keySlot : BitVec 2) (authentic : Bool) (reason : Byte) : Statement (.mgmtSessionOpen keySlot authentic reason) := of_wf rfl
theorem mcWatchdog : Statement (.mcWatchdog) := of_wf rfl
theorem fwCommitDone : Statement (.fwCommitDone) := of_wf rfl
theorem aonIoSupplyLoss : Statement (.aonIoSupplyLoss) := of_wf rfl

end Sys2Proof.Laws.F
end

