-- ==== Sys2Proof/Laws/Recipe.lean ====
section
/-! SUPPORT. The Recipe Slots and their areas: every operation on the Recipe block keeps the five areas apart. -/

namespace Sys2Proof.Machine

/-- COMMIT's exchange permutes the five areas. -/
theorem Rcp.exchange_areas (r : Rcp) (n : Nat) : (r.exchange n).areas.Perm r.areas := by
  unfold Rcp.exchange
  split
  · exact (List.Perm.cons _ (List.perm_append_comm (l₁ := [r.area1, r.area2, r.area3]) (l₂ := [r.area0]))).trans
      (List.perm_middle (l₁ := [r.stageArea]) (a := r.area0) (l₂ := [r.area1, r.area2, r.area3]) |>.trans
        (List.Perm.cons _ (List.perm_append_comm (l₁ := [r.stageArea]) (l₂ := [r.area1, r.area2, r.area3]))))
  · split
    · refine List.Perm.cons _ ?_
      exact (List.Perm.cons _ (List.perm_append_comm (l₁ := [r.area2, r.area3]) (l₂ := [r.area1]))).trans
        (List.perm_middle (l₁ := [r.stageArea]) (a := r.area1) (l₂ := [r.area2, r.area3]) |>.trans
          (List.Perm.cons _ (List.perm_append_comm (l₁ := [r.stageArea]) (l₂ := [r.area2, r.area3]))))
    · split
      · refine List.Perm.cons _ (List.Perm.cons _ ?_)
        exact (List.Perm.cons _ (List.perm_append_comm (l₁ := [r.area3]) (l₂ := [r.area2]))).trans
          (List.perm_middle (l₁ := [r.stageArea]) (a := r.area2) (l₂ := [r.area3]) |>.trans
            (List.Perm.cons _ (List.perm_append_comm (l₁ := [r.stageArea]) (l₂ := [r.area3]))))
      · exact List.Perm.cons _ (List.Perm.cons _ (List.Perm.cons _ (List.Perm.swap _ _ _)))

/-- Areas that are a permutation of areas kept apart are kept apart. -/
theorem Rcp.areasOk_of_perm {r q : Rcp} (h : q.areas.Perm r.areas) (hr : r.areasOk) : q.areasOk :=
  ⟨h.nodup_iff.mpr hr.1, fun a ha => hr.2 a (h.mem_iff.mp ha)⟩

theorem Rcp.exchange_areasOk {r : Rcp} (n : Nat) (h : r.areasOk) : (r.exchange n).areasOk := Rcp.areasOk_of_perm (r.exchange_areas n) h

@[simp] theorem Rcp.setSlot_areas (r : Rcp) (n : Nat) (x : RcpSlot) : (r.setSlot n x).areas = r.areas := rfl

theorem Rcp.endCommit_areasOk {r : Rcp} (n : Nat) (h : r.areasOk) : (r.endCommit n).areasOk := Rcp.exchange_areasOk n h

theorem Rcp.startCommit_areas (r : Rcp) (n : Nat) : (r.startCommit n).areas = r.areas := by
  unfold Rcp.startCommit
  split
  · rfl
  · split <;> rfl

theorem Rcp.clear_areas (r : Rcp) (n : Nat) : (r.clear n).areas = r.areas := by
  unfold Rcp.clear
  split <;> rfl

theorem Rcp.stageWrite_areas (r : Rcp) (len : Bool) (v : Word) : (r.stageWrite len v).areas = r.areas := by
  unfold Rcp.stageWrite
  split
  · rfl
  · split <;> rfl

@[simp] theorem Rcp.slot_setSlot (r : Rcp) (n : Nat) (x : RcpSlot) : (r.setSlot n x).slot n = x := by
  simp [Rcp.slot, Rcp.setSlot]

theorem Rcp.slot_setSlot_other (r : Rcp) {n m : Nat} (x : RcpSlot) (h : m ≠ n) : (r.setSlot n x).slot m = r.slot m := by
  simp [Rcp.slot, Rcp.setSlot, SMap.get_set_other _ _ _ h]

theorem Rcp.reset_areasOk : Rcp.reset.areasOk := by
  refine ⟨by decide, by decide⟩

end Sys2Proof.Machine
end

