-- ==== Sys2Proof/Laws/Scalar.lean ====
section
/-! SUPPORT. What the shared operations of the slot instructions do: issue, the two arithmetic forms, and a stall. -/

namespace Sys2Proof.Machine

/-- An R-format operation that issues writes its result and goes on. -/
theorem Chip.alu_retires {s : State} {i : Instr} {l : Loc} {rd ra rb : Reg} (f : Word → Word → Word) (h : s.chip.Issues l)
    (he : exec i s = s.run (fun c => c.alu l rd ra rb f)) :
    Retires s i l ((s.chip.slot l).setX rd (f ((s.chip.slot l).xr ra) ((s.chip.slot l).xr rb))) (s.chip.nextPc l) := by
  refine Retires.of_run he ?_
  unfold Chip.alu
  rw [Chip.issue_of h]
  unfold Chip.retire Chip.nextPc
  rw [Slot.setX_pc]
  exact Chip.retireAt_retired _ _ _ _ _

/-- An I-format operation that issues writes its result and goes on. -/
theorem Chip.aluI_retires {s : State} {i : Instr} {l : Loc} {rd ra : Reg} (f : Word → Word) (h : s.chip.Issues l)
    (he : exec i s = s.run (fun c => c.aluI l rd ra f)) :
    Retires s i l ((s.chip.slot l).setX rd (f ((s.chip.slot l).xr ra))) (s.chip.nextPc l) := by
  refine Retires.of_run he ?_
  unfold Chip.aluI
  rw [Chip.issue_of h]
  unfold Chip.retire Chip.nextPc
  rw [Slot.setX_pc]
  exact Chip.retireAt_retired _ _ _ _ _

/-- Everything that issuing can do: the instruction acts, its word cannot be fetched, or the slot does not run. -/
theorem Chip.issue_cases (c : Chip) (l : Loc) (f : Slot → Chip) :
    c.issue l f = f (c.slot l) ∨ c.issue l f = c.exc l xFetch (c.slot l).pc (c.slot l).pc ∨ c.issue l f = c := by
  unfold Chip.issue
  dsimp only
  split
  · split
    · exact Or.inl rfl
    · exact Or.inr (Or.inl rfl)
  · exact Or.inr (Or.inr rfl)

/-- A stall changes the cores alone. -/
theorem Chip.stallSlot_rest (c : Chip) (l : Loc) (why : Cause) : { c.stallSlot l why with cores := c.cores } = c := by
  unfold Chip.stallSlot
  dsimp only
  split <;> rfl

/-- A stall leaves memory as it is. -/
theorem Chip.stallSlot_mem (c : Chip) (l : Loc) (why : Cause) : (c.stallSlot l why).mem = c.mem := by
  have h := congrArg Chip.mem (c.stallSlot_rest l why)
  exact h

/-- A stalled slot waits on the cause and is otherwise as it was; a new wait for a tracker is no SMSG's. -/
theorem Chip.stallSlot_slot (c : Chip) (l : Loc) (why : Cause) : (c.stallSlot l why).slot l = { c.slot l with
    wait := some why, smsg := (c.slot l).smsg && (why ≠ .trackerFull || (c.slot l).wait = some why) } := by
  unfold Chip.stallSlot
  dsimp only
  split
  · next h =>
    generalize c.slot l = x at h
    cases x
    simp_all
  · next h =>
    rw [Chip.slot_setCore_count, Core.count_slot]
    refine (Chip.slot_setSlot _ _ _).trans ?_
    simp [h]

/-- An engine's stall changes the cores alone. -/
theorem Chip.stallEngine_rest (c : Chip) (fc e : Nat) (why : Cause) : { c.stallEngine fc e why with cores := c.cores } = c := by
  unfold Chip.stallEngine
  dsimp only
  split <;> rfl

/-- Retiring changes the cores alone. -/
theorem Chip.retireAt_rest (c : Chip) (l : Loc) (x : Slot) (pc : Word) (v : Bool) : { c.retireAt l x pc v with cores := c.cores } = c := rfl

end Sys2Proof.Machine
end

