-- ==== Sys2Proof/Laws/Traffic.lean ====
section
/-! SUPPORT. What an access to memory of this package, a transaction of a port, and the loss of a voxel hash can do. -/

namespace Sys2Proof.Machine

/-! Accesses that wait at an arbiter. -/

/-- An access that comes to an arbiter changes what waits there and the order of arrivals alone. -/
theorem Chip.queueAt_rest (c : Chip) (a : Nat) (w : Waiting) : { c.queueAt a w with traffic := c.traffic } = c := rfl

/-- The access waits behind the others of its arbiter. -/
theorem Chip.queueAt_waiting (c : Chip) (a : Nat) (w : Waiting) :
    SMap.get [] (c.queueAt a w).traffic.waiting a = SMap.get [] c.traffic.waiting a ++ [{ w with arrival := c.traffic.arrivals }] := by
  simp [Chip.queueAt]

/-- The accesses at the other arbiters stay as they are. -/
theorem Chip.queueAt_waiting_other (c : Chip) {a b : Nat} (w : Waiting) (h : b ≠ a) :
    SMap.get [] (c.queueAt a w).traffic.waiting b = SMap.get [] c.traffic.waiting b := by
  simp [Chip.queueAt, SMap.get_set, h]

/-- Waking a Pool changes the power state alone. -/
theorem Chip.wakePool_rest (c : Chip) (o : Nat) : { c.wakePool o with pwr := c.pwr } = c := by
  unfold Chip.wakePool
  split
  · rfl
  · dsimp only
    split <;> rfl

/-- Everything that an access to this package can do: it waits at the arbiter of its slice, or it wakes a Pool. -/
theorem Chip.memAccess_cases (c : Chip) (requester cls : Nat) (tag : Option Word) (o : Nat) :
    (o < storeEnd ∧ c.memAccess requester cls tag o =
      c.queueAt (96 + sliceOf o) { emptyAt := tag, cls := cls, arrival := 0, requester := requester, off := o }) ∨
    (storeEnd ≤ o ∧ c.memAccess requester cls tag o = c.wakePool o) := by
  unfold Chip.memAccess
  split
  · next h => exact Or.inl ⟨h, rfl⟩
  · next h => exact Or.inr ⟨Nat.le_of_not_lt h, rfl⟩

/-- An access to this package changes its traffic and power states alone. -/
theorem Chip.memAccess_rest (c : Chip) (requester cls : Nat) (tag : Option Word) (o : Nat) :
    { c.memAccess requester cls tag o with traffic := c.traffic, pwr := c.pwr } = c := by
  obtain ⟨-, h⟩ | ⟨-, h⟩ := c.memAccess_cases requester cls tag o <;> rw [h]
  · rfl
  · have h1 := c.wakePool_rest o
    have h2 : { { c.wakePool o with pwr := c.pwr } with traffic := c.traffic, pwr := c.pwr } = c := by rw [h1]
    exact h2

/-- A core's access to this package changes the traffic, the power states and its own core alone. -/
theorem Chip.here_rest (c : Chip) (fc : Nat) (who : Holder) (write : Bool) (tag : Option Word) (o : Nat) :
    { c.here fc who write tag o with traffic := c.traffic, pwr := c.pwr, cores := c.cores } = c := by
  unfold Chip.here
  split
  · have h1 := c.wakePool_rest o
    have h2 : { { c.wakePool o with pwr := c.pwr } with traffic := c.traffic, pwr := c.pwr, cores := c.cores } = c := by rw [h1]
    exact h2
  · dsimp only
    generalize hd : c.setCore fc _ = d
    have h1 := d.memAccess_rest (requesterOf fc who) (if write = true then 1 else 0) tag o
    have h2 : { { d.memAccess (requesterOf fc who) (if write = true then 1 else 0) tag o with traffic := d.traffic, pwr := d.pwr } with
      traffic := c.traffic, pwr := c.pwr, cores := c.cores } = { d with traffic := c.traffic, pwr := c.pwr, cores := c.cores } := by rw [h1]
    subst hd
    exact h2

/-- A core's access to this package leaves every byte of memory as it is. -/
theorem Chip.here_mem (c : Chip) (fc : Nat) (who : Holder) (write : Bool) (tag : Option Word) (o : Nat) :
    (c.here fc who write tag o).mem = c.mem := by
  have h := congrArg Chip.mem (c.here_rest fc who write tag o)
  exact h

/-- Accesses one after another leave every byte of memory as it is. -/
theorem Chip.heres_mem (c : Chip) (fc : Nat) (who : Holder) (write : Bool) (tag : Option Word) (l : List Nat) :
    (c.heres fc who write tag l).mem = c.mem := by
  unfold Chip.heres
  induction l generalizing c with
  | nil => rfl
  | cons o t ih => exact (ih (c.here fc who write tag o)).trans (c.here_mem fc who write tag o)

/-- Waking a Pool leaves the cores as they are. -/
theorem Chip.wakePool_cores (c : Chip) (o : Nat) : (c.wakePool o).cores = c.cores := by
  have h := congrArg Chip.cores (c.wakePool_rest o)
  exact h

/-- An access to this package leaves the cores as they are. -/
theorem Chip.memAccess_cores (c : Chip) (requester cls : Nat) (tag : Option Word) (o : Nat) : (c.memAccess requester cls tag o).cores = c.cores := by
  have h := congrArg Chip.cores (c.memAccess_rest requester cls tag o)
  exact h

/-- A core's access to this package leaves every slot as it is. -/
theorem Chip.here_slot (c : Chip) (fc : Nat) (who : Holder) (write : Bool) (tag : Option Word) (o : Nat) (l : Loc) :
    (c.here fc who write tag o).slot l = c.slot l := by
  unfold Chip.here Chip.slot Chip.core
  split
  · rw [Chip.wakePool_cores]
  · dsimp only
    rw [Chip.memAccess_cores]
    by_cases h : l.fc.toNat = fc
    · subst h
      unfold Chip.setCore
      dsimp only
      rw [SMap.get_set_same]
      split
      · rw [Core.count_slot, Core.count_slot]
      · rw [Core.count_slot]
    · unfold Chip.setCore
      dsimp only
      rw [SMap.get_set_other _ _ _ h]

/-! Ports. -/

/-- Posted writes only leave the package. -/
theorem Chip.busWrites_rest (c : Chip) (port addr : Nat) (data : List Byte) (ro ns : Bool) : { c.busWrites port addr data ro ns with out := c.out } = c := rfl

/-- Everything that a read request can do: 256 are outstanding and it waits, or it goes out under the lowest free tag (R396). -/
theorem Chip.busAsk_cases (c : Chip) (reader : BusReader) (ctx port addr len : Nat) :
    (256 ≤ (c.port port).reads.length ∧ c.busAsk reader ctx port addr len = none) ∨
    ((c.port port).reads.length < 256 ∧ ∃ d, c.busAsk reader ctx port addr len = some d ∧ { d with ports := c.ports, out := c.out } = c ∧
      (d.port port).reads = (c.port port).reads ++
        [{ tag := (c.port port).freeTag, addr := addr, len := len, done := 0, ctx := ctx, reader := reader }] ∧
      d.out = .busRead port (c.port port).freeTag addr len :: c.out) := by
  unfold Chip.busAsk
  dsimp only
  split
  · next h => exact Or.inl ⟨h, rfl⟩
  · next h =>
    refine Or.inr ⟨Nat.lt_of_not_le h, _, rfl, rfl, ?_, rfl⟩
    rw [Chip.emit_port_frame, Chip.port_setPort]

/-! A voxel hash whose command KILL stops (R352). -/

/-- Bytes outside the hash stay, and memory stays canonical. -/
theorem Chip.spoilHash_mem (c : Chip) (ctx : Nat) (h : Mem.wf c.mem = true) :
    Mem.wf (c.spoilHash ctx).mem = true ∧ ∀ b, b ∉ c.killedHash ctx → Mem.read (c.spoilHash ctx).mem b = Mem.read c.mem b := by
  refine ⟨Chip.put_wf _ h, fun b hb => Chip.put_read_other h _ (fun p hp e => hb ?_)⟩
  obtain ⟨q, hq, rfl⟩ := List.mem_map.mp hp
  subst e
  exact (List.mem_zipIdx' hq).2 ▸ List.getElem_mem _

end Sys2Proof.Machine
end

