-- ==== Sys2Proof/Tests/Slice0.lean ====
section
/-! SUPPORT. Tests on fixed values: the refusal of ill-formed commands, a witness for the hypotheses of each statement, and results worked out by hand
from the spec. -/

namespace Sys2Proof.Tests

open Sys2Proof.Machine

set_option Elab.async false

/-! States to test on. -/

/-- Slot 0 of core 0. -/
def here : Loc := { fc := 0, slot := 0 }

/-- A Request in use, of the first Recipe area. -/
def request : Ctx :=
  { desc := List.replicate 64 0, port := 0, window := 0, arrival := 0, area := 0, digest := [], tag := 0, stages := [], drops := 0, ended := none,
    delivering := false, recordBytes := 0, seq := 0, cut := false, gone := false }

/-- A slot that runs a task at the start of the Recipe Store, with a handler beside it and its stack in the Self Pool. -/
def slotA : Slot :=
  { Slot.reset with task := some { ctx := 0, stage := 0 }, pc := 0x34C0000000, xvec := 0x34C0000100, xsp := 0x10100001000 }

/-- A package that runs, with Request 0 in use, its MC running, and every port's link up. -/
def live : Chip :=
  { Chip.reset with
    rst := { Rst.reset with por := true, ready := true, phase := .discovered, hbmReady := true, hbmTrained := true, unnumbered := false, bringupMode := false }
    mc := { Mc.reset with running := true }
    req := { ReqTable.reset with control := 0x00004E2000000008, quiesced := false, ctxs := [(0, request)] }
    ports := [(0, { Port.reset with linkUp := true })] }

/-- The package with core 0 as given. -/
def withCore (k : Core) : Chip := { live with cores := [(0, k)] }

/-- The package with slot 0 of core 0 as given. -/
def withSlot (x : Slot) : Chip := withCore { Core.reset with slots := [(0, x)] }

/-- A state of the package with no command waiting. -/
def on (c : Chip) : State := { pending := [], chip := c }

/-- The registers x1 and x2 of a slot set. -/
def regs (a b : Word) : Slot := { slotA with x := [(1, a), (2, b)] }

/-- The package after a command, where it answers one. -/
def after (i : Instr) (c : Chip) : Option Chip :=
  match exec i (on c) with
  | .next t => some t.chip
  | _ => none

/-- A register of slot 0 after a command. -/
def xAfter (i : Instr) (c : Chip) (r : Reg) : Option Word := (after i c).map (fun d => (d.slot here).xr r)

theorem issues (x : Slot) (h : x.task.isSome = true ∧ x.stopped = false ∧ x.pend = none ∧ live.fetchable x.pc = true) : (withSlot x).Issues here :=
  ⟨h.1, h.2.1, h.2.2.1, rfl, h.2.2.2⟩

theorem test_witness_StepRunsFrontCommand : ({ (on live) with pending := [.verify, .resume 0] }).pending = .verify :: [.resume 0] := rfl
theorem test_witness_EmptyQueueLetsTidePass : (on live).pending = [] ∧ live.rst.por = true := by decide
theorem test_step_front : step { (on live) with pending := [.quiesce 0] } = exec (.quiesce 0) (on live) := rfl

theorem test_witness_ScalarRegisterOperations : (withSlot (regs 5 7)).Issues here := issues _ (by decide)
theorem test_add_wraps : xAfter (.add here 3 1 2) (withSlot (regs (BitVec.allOnes 64) 2)) 3 = some 1 := by decide +kernel

/-! Ill-formed commands: one for each check. -/

theorem test_wf_engines : (Instr.startHandleTake 0 6).wf = false ∧ (Instr.engineCommandComplete 0 6).wf = false ∧ (Instr.doneHandlePut 0 6).wf = false ∧
    (Instr.startHandleTake 63 5).wf = true ∧ (Instr.engineCommandComplete 63 5).wf = true ∧ (Instr.doneHandlePut 63 5).wf = true := by decide
theorem test_wf_payloads : (Instr.intakeWrite 0 0 ⟨List.replicate 4097 0, false⟩ true).wf = false ∧ (Instr.intakeWrite 0 0 ⟨List.replicate 4096 0, false⟩ true).wf = true ∧
    (Instr.pcieReadCompletion 0 0 (List.replicate 4097 0) none).wf = false ∧ (Instr.pcieReadCompletion 0 0 (List.replicate 4096 0) none).wf = true := by
  decide +kernel
theorem test_wf_bar4 : (Instr.bar4Write 0 0 ⟨List.replicate 4097 0, false⟩).wf = false ∧ (Instr.bar4Write 0 0xFFFFFFF ⟨[0, 0], false⟩).wf = false ∧
    (Instr.bar4Write 0 0xFFFFFFE ⟨[0, 0], false⟩).wf = true ∧ (Instr.bar4Read 0 0 0).wf = false ∧ (Instr.bar4Read 0 0 4097).wf = false ∧
    (Instr.bar4Read 0 0xFFFFFFF 2).wf = false ∧ (Instr.bar4Read 0 0xFFFFFFE 2).wf = true := by decide +kernel
theorem test_wf_arbiter : (Instr.arbGrant .channel 96).wf = false ∧ (Instr.arbGrant .channel 95).wf = true ∧ (Instr.arbGrant .slice 32).wf = false ∧
    (Instr.arbGrant .slice 31).wf = true := by decide

/-- A codeword of five slots. -/
def word5 : Codeword := { corrected := some 15, kind := 0, cwNum := 0, slots := List.replicate 5 (List.replicate 128 0) }
/-- A lane frame. -/
def frameA : LaneFrame := { marker := some true, lane := 0, link := 0, fkind := 1, eqReq := 0, skewOk := true }

theorem test_wf_links : [Instr.codewordSend ⟨24, 0, 0⟩, .codewordReceive 24 word5, .replayTimeout 24, .lossOfLock 24, .signalDetect 24, .laneFrame 24 0 frameA,
    .trainingSet 24 (List.replicate 128 0), .pollTimeout 24, .eqTimeout 24, .configTimeout 24, .retrainTimeout 24, .linkTest 24, .linkTestDone 24,
    .linkRetrain 24, .linkDisable 24, .linkEnable 24, .epochReport 24 (.request 0)].all (fun i => i.wf = false) = true := by decide +kernel
theorem test_wf_links_ok : [Instr.codewordSend ⟨23, 0, 0⟩, .codewordReceive 23 word5, .replayTimeout 23, .lossOfLock 23, .signalDetect 23, .laneFrame 23 0 frameA,
    .trainingSet 23 (List.replicate 128 0), .pollTimeout 23, .eqTimeout 23, .configTimeout 23, .retrainTimeout 23, .linkTest 23, .linkTestDone 23,
    .linkRetrain 23, .linkDisable 23, .linkEnable 23, .epochReport 23 (.request 0)].all (fun i => i.wf) = true := by decide +kernel
theorem test_wf_codeword : (Instr.codewordReceive 0 { word5 with slots := List.replicate 4 (List.replicate 128 0) }).wf = false ∧
    (Instr.codewordReceive 0 { word5 with slots := List.replicate 5 (List.replicate 127 0) }).wf = false ∧
    (Instr.codewordReceive 0 { word5 with corrected := some 16 }).wf = false ∧ (Instr.trainingSet 0 (List.replicate 127 0)).wf = false := by decide +kernel
theorem test_wf_domains : [Instr.pwrReqRun 236, .pwrReqFreewheel 236, .pwrReqOff 236, .powerTransitionBegin 236, .powerTransitionDone 236].all
    (fun i => i.wf = false) = true ∧ [Instr.pwrReqRun 235, .pwrReqFreewheel 235, .pwrReqOff 235, .powerTransitionBegin 235, .powerTransitionDone 235].all
    (fun i => i.wf) = true := by decide
theorem test_wf_sensors : (Instr.thermalSample (List.replicate 47 0)).wf = false ∧ (Instr.thermtrip 48).wf = false ∧ (Instr.thermtrip 47).wf = true ∧
    (Instr.sensorSampleTemp (List.replicate 49 0)).wf = false ∧ (Instr.sensorSampleTemp (List.replicate 48 32768)).wf = false ∧
    (Instr.sensorSampleTemp (List.replicate 48 (-32768))).wf = true ∧ (Instr.sensorSampleRail (List.replicate 23 0) (List.replicate 16 0)).wf = false ∧
    (Instr.sensorSampleRail (List.replicate 24 65536) (List.replicate 16 0)).wf = false ∧
    (Instr.sensorSampleRail (List.replicate 24 0) (List.replicate 15 0)).wf = false ∧
    (Instr.sensorSampleRail (List.replicate 24 0) (List.replicate 16 4294967296)).wf = false := by decide +kernel
theorem test_wf_rails : (Instr.railPoll (List.replicate 7 (0, 0))).wf = false ∧ (Instr.railPoll (List.replicate 8 (65536, 0))).wf = false ∧
    (Instr.railPoll (List.replicate 8 (0, 4294967296))).wf = false ∧ (Instr.railPoll (List.replicate 8 (65535, 0))).wf = true ∧
    (Instr.railFault 8 0).wf = false ∧ (Instr.railPowerGood 8).wf = false ∧ (Instr.railEnableTimeout 8).wf = false ∧ (Instr.railFault 7 0).wf = true := by
  decide +kernel
theorem test_wf_portLink : (Instr.pcieLinkUp 0 0 ⟨0, 0⟩).wf = false ∧ (Instr.pcieLinkUp 0 7 ⟨0, 0⟩).wf = false ∧ (Instr.pcieLinkUp 0 6 ⟨5, 0⟩).wf = false ∧
    (Instr.pcieLinkUp 0 6 ⟨4, 6⟩).wf = false ∧ (Instr.pcieLinkUp 0 6 ⟨4, 5⟩).wf = true := by decide
theorem test_noSuchUnit : exec (.codewordSend ⟨24, 0, 0⟩) (on live) = .fault .noSuchUnit := rfl
theorem test_witness_WellFormedCommandsComplete : (Instr.codewordSend ⟨23, 0, 0⟩).wf = true ∧ (Instr.codewordSend ⟨24, 0, 0⟩).wf = false ∧
    (after (.yield here) live).isSome = true := by decide +kernel

/-! Scalar instructions: witnesses and results worked out by hand from Table 5. -/

theorem test_witness_MultiplyDivideAndBitCounts : (withSlot (regs 0 0)).Issues here ∧ (withSlot (regs 0x8000000000000000 (BitVec.allOnes 64))).Issues here :=
  ⟨issues _ (by decide), issues _ (by decide)⟩
theorem test_sub_wraps : xAfter (.sub here 3 1 2) (withSlot (regs 0 1)) 3 = some 0xFFFFFFFFFFFFFFFF := by decide +kernel
theorem test_sll_low_six : xAfter (.sll here 3 1 2) (withSlot (regs 3 65)) 3 = some 6 := by decide +kernel
theorem test_sra_sign : xAfter (.sra here 3 1 2) (withSlot (regs 0x8000000000000000 63)) 3 = some 0xFFFFFFFFFFFFFFFF := by decide +kernel
theorem test_srl_zero : xAfter (.srl here 3 1 2) (withSlot (regs 0x8000000000000000 63)) 3 = some 1 := by decide +kernel
theorem test_slt_signed : xAfter (.slt here 3 1 2) (withSlot (regs 0xFFFFFFFFFFFFFFFF 0)) 3 = some 1 := by decide +kernel
theorem test_sltu_unsigned : xAfter (.sltu here 3 1 2) (withSlot (regs 0xFFFFFFFFFFFFFFFF 0)) 3 = some 0 := by decide +kernel
theorem test_mulh_signed : xAfter (.mulh here 3 1 2) (withSlot (regs 0xFFFFFFFFFFFFFFFF 2)) 3 = some 0xFFFFFFFFFFFFFFFF := by decide +kernel
theorem test_mulhu_unsigned : xAfter (.mulhu here 3 1 2) (withSlot (regs 0xFFFFFFFFFFFFFFFF 2)) 3 = some 1 := by decide +kernel
theorem test_div_by_zero : xAfter (.div here 3 1 2) (withSlot (regs 9 0)) 3 = some 0xFFFFFFFFFFFFFFFF := by decide +kernel
theorem test_div_overflow : xAfter (.div here 3 1 2) (withSlot (regs 0x8000000000000000 0xFFFFFFFFFFFFFFFF)) 3 = some 0x8000000000000000 := by decide +kernel
theorem test_rem_by_zero : xAfter (.rem here 3 1 2) (withSlot (regs 9 0)) 3 = some 9 := by decide +kernel
theorem test_rem_sign : xAfter (.rem here 3 1 2) (withSlot (regs 0xFFFFFFFFFFFFFFF9 2)) 3 = some 0xFFFFFFFFFFFFFFFF := by decide +kernel
theorem test_clz_zero : xAfter (.clz here 3 1 0) (withSlot (regs 0 0)) 3 = some 64 := by decide +kernel
theorem test_ctz : xAfter (.ctz here 3 1 0) (withSlot (regs 0x50 0)) 3 = some 4 := by decide +kernel
theorem test_x0_discards : xAfter (.add here 0 1 2) (withSlot (regs 5 7)) 0 = some 0 := by decide +kernel

/-- SHI's four codes at the edges of the immediate's range. -/
theorem test_witness_ScalarImmediateOperations : (withSlot (regs 5 7)).Issues here ∧ (0x3FFF#16).toNat / 2 ^ 14 = 0 ∧ (0x4000#16).toNat / 2 ^ 14 = 1 ∧
    (0x7FFF#16).toNat / 2 ^ 14 = 1 ∧ (0x8000#16).toNat / 2 ^ 14 = 2 ∧ (0xC000#16).toNat / 2 ^ 14 = 3 ∧ (0xFFFF#16).toNat / 2 ^ 14 = 3 :=
  ⟨issues _ (by decide), by decide⟩
theorem test_lui_sign : xAfter (.lui here 3 0x8000) (withSlot slotA) 3 = some 0xFFFFFFFF80000000 := by decide +kernel
theorem test_lis : xAfter (.lis here 3 1 0x5678) (withSlot (regs 0x1234 0)) 3 = some 0x12345678 := by decide +kernel
theorem test_andi_zero_extends : xAfter (.andi here 3 1 0xFFFF) (withSlot (regs 0xFFFFFFFFFFFFFFFF 0)) 3 = some 0xFFFF := by decide +kernel
theorem test_witness_HardwiredRegisters : (31 : Reg) ≠ 0 ∧ (1 : Reg) ≠ 0 ∧ (7 : BitVec 3) ≠ 0 ∧ (1 : BitVec 3) ≠ 0 := by decide

/-! Loads, stores, branches and jumps. -/

/-- A package with bytes at 0x1000 and with x1 pointing there. -/
def loads : Chip := { withSlot (regs 0x1000 0) with mem := [(0x1000, 0x80), (0x1001, 0xFF), (0x1007, 0x12)] }
/-- What an address of HBM reaches. -/
def hbm (o : Nat) : Target := { pkg := none, off := o, row := .hbm, ty := 0, wp := false }

theorem test_witness_ScalarLoads : loads.Issues here ∧ (∀ n ∈ [1, 2, 4, 8], loads.access (some 0) 0x1000 n false = some (hbm 0x1000) ∧
    (loads.core 0).strictWaits 0 = false ∧ loads.sbOverlap 0 0 (hbm 0x1000).key n = []) ∧ gaKind 0x1000 ≠ 2 ∧ loads.strictAt 0 0x1000 = false ∧
    loads.homeWait (hbm 0x1000) = none ∧ (hbm 0x1000).row ≠ .basin ∧ (loads.core 0).mayReach 0 0x1000 = true := ⟨issues _ (by decide), by decide +kernel⟩
theorem test_lb_sign : xAfter (.lb here 3 1 0 false) loads 3 = some 0xFFFFFFFFFFFFFF80 := by decide +kernel
theorem test_lhu : xAfter (.lhu here 3 1 0 false) loads 3 = some 0xFF80 := by decide +kernel
theorem test_ld_little_endian : xAfter (.ld here 3 1 0 false) loads 3 = some 0x120000000000FF80 := by decide +kernel
theorem test_load_last_of_hbm : xAfter (.ld here 3 1 0 false) { withSlot (regs 0x34BFFFFFF8 0) with mem := [(0x34BFFFFFF8, 7)] } 3 = some 7 := by
  decide +kernel

/-- A buffered store of 8 bytes at 0x1000. -/
def entry : SbEntry := { slot := 0, addr := 0x1000, size := 8, data := 0x0807060504030201, strict := false, sent := false, trk := 0, ctx := 0 }
/-- Fifteen stores wait in core 0's buffer. -/
def stores : Chip := withCore { Core.reset with slots := [(0, regs 0x1000 0xAB)], storeBuf := List.replicate 15 entry }

theorem test_witness_StoresAndTheStoreBuffer : stores.Issues here ∧ (∀ n ∈ [1, 2, 4, 8], stores.access (some 0) 0x1000 n true = some (hbm 0x1000)) ∧
    stores.strictAt 0 0x1000 = false ∧ (stores.core 0).strictWaits 0 = false ∧ (stores.core 0).storeBuf.length < 16 :=
  ⟨⟨rfl, rfl, rfl, rfl, by decide +kernel⟩, by decide +kernel⟩
/-- A package whose HBM from 0x1000 to 0x1FFF is a Device Strict region, with a pointer into it. -/
def strict (a : Word) (q : List SbEntry) : Chip :=
  { withCore { Core.reset with slots := [(0, regs a 0xAB)], storeBuf := q } with rmap := [(0, 0x1000), (1, 0x1000021)] }
theorem test_witness_stores_stop : (stores.core 0).storeBuf.length + (stores.core 0).frameQ.length < 16 ∧
    16 ≤ ((strict 0x1000 (List.replicate 16 entry)).core 0).storeBuf.length ∧ ((strict 0x1000 [{ entry with strict := true }]).core 0).strictWaits 0 = true ∧
    (strict 0x1001 []).strictAt 0 0x1001 = true ∧ ((strict 0x1000 []).access (some 0) 0x1000 8 true).map (fun t => t.ty) = some 2 ∧
    stores.access (some 0) 0x34C0000000 8 true = none ∧ stores.strictAt 0 0x34C0000000 = false := by decide +kernel
theorem test_store_strict : (after (.sh here 2 1 0) (strict 0x1001 [])).map (fun d => ((d.slot here).xcause, (d.slot here).xaddr)) = some (2, 0x1001) := by
  decide +kernel
theorem test_witness_storeBufferDrain : (on stores).memOk ∧ (stores.core 0).storeBuf = entry :: List.replicate 14 entry ∧
    stores.access (some 0) entry.addr entry.size true = some (hbm 0x1000) ∧ (hbm 0x1000).off + entry.size ≤ basinBase ∧
    stores.homeWait (hbm 0x1000) = none ∧ entry.strict = false ∧ (stores.core 0).mayReach 0 (hbm 0x1000).off = true := ⟨rfl, by decide +kernel⟩
theorem test_store_buffered : (after (.sb here 2 1 0) stores).map (fun d => ((d.core 0).storeBuf.length, d.mem)) = some (16, []) := by decide +kernel
theorem test_drain : (after (.storeBufferDrain 0) stores).map (fun d => (Mem.read d.mem 0x1000, Mem.read d.mem 0x1007)) = some (1, 8) := by decide +kernel

/-- Each branch taken to a word that can be fetched and to one that cannot, and not taken; jumps to both. -/
theorem test_witness_BranchesAndJumps : (withSlot (regs 5 5)).Issues here ∧ (withSlot (regs 0xFFFFFFFFFFFFFFFF 1)).Issues here ∧
    live.fetchable (0x34C0000000 + 4 * (1#16).signExtend 64) = true ∧ live.fetchable (0x34C0000000 + 4 * (0xFFFF#16).signExtend 64) = false ∧
    (0xFFFFFFFFFFFFFFFF#64).toInt < (1#64).toInt ∧ ¬ (0xFFFFFFFFFFFFFFFF#64).toNat < (1#64).toNat ∧
    live.fetchable (0x34C0000000 + 4 * (0xFFFFF#21).signExtend 64) = true ∧ live.fetchable (0x34C0000000 + 4 * (0x1FFFFF#21).signExtend 64) = false ∧
    live.fetchable ((0x34C0000007 + (0#16).signExtend 64) &&& ~~~(3 : Word)) = true ∧ live.fetchable ((5 + (0#16).signExtend 64) &&& ~~~(3 : Word)) = false :=
  ⟨issues _ (by decide), issues _ (by decide), by decide +kernel⟩
theorem test_beq_taken : (after (.beq here 1 2 2) (withSlot (regs 5 5))).map (fun d => (d.slot here).pc) = some 0x34C0000008 := by decide +kernel
theorem test_bltu_not_taken : (after (.bltu here 1 2 2) (withSlot (regs 0xFFFFFFFFFFFFFFFF 1))).map (fun d => (d.slot here).pc) = some 0x34C0000004 := by
  decide +kernel
theorem test_jalr_reads_ra_first : (after (.jalr here 1 1 4) (withSlot (regs 0x34C0000013 0))).map (fun d => ((d.slot here).pc, (d.slot here).xr 1)) =
    some (0x34C0000014, 0x34C0000004) := by decide +kernel
theorem test_witness_RegisterInstructionsAndLoadsFrame : Instr.registerOnly (.add here 3 1 2) = some here ∧ Instr.scalarLoad (.lb here 3 1 0 true) = some here ∧
    (after (.add here 3 1 2) (withSlot (regs 5 7))).isSome = true ∧ (after (.lb here 3 1 0 true) loads).isSome = true := by decide +kernel

/-! Exceptions, the handler and its return. -/

theorem test_witness_IllegalWordsAndTrapsEnterTheHandler : (withSlot { slotA with xstatus := 0xE01 }).Issues here ∧
    (withSlot { slotA with xstatus := 0xE01 }).Enterable here ∧ (withSlot { slotA with xsp := 0x10100100000 }).Enterable here ∧
    (withSlot { slotA with xsp := 0x10100000080 }).Enterable here ∧ legalWord 0 = false ∧ 13 ≤ (13#4).toNat ∧ 13 ≤ (15#4).toNat :=
  ⟨issues _ (by decide), ⟨by decide, by decide +kernel⟩, ⟨by decide, by decide +kernel⟩, ⟨by decide, by decide +kernel⟩, by decide +kernel⟩
theorem test_trap : (after (.trap here 5) (withSlot slotA)).map (fun d => ((d.slot here).xcause, (d.slot here).xepc, (d.slot here).pc, (d.slot here).xstatus,
    (d.core 0).storeBuf.length)) = some (0x504, 0x34C0000004, 0x34C0000100, 0x100, 16) := by decide +kernel
theorem test_illegal_word : (after (.illegalWord here 0) (withSlot slotA)).map (fun d => ((d.slot here).xcause, (d.slot here).xepc)) =
    some (1, 0x34C0000000) := by decide +kernel
theorem test_witness_ExceptionWithoutHandlerEndsTheRequest : (withSlot { slotA with xvec := 3 }).Issues here ∧
    ((withSlot { slotA with xvec := 3 }).slot here).handler = 0 ∧ ((withSlot slotA).slot here).task = some { ctx := 0, stage := 0 } ∧
    (withSlot slotA).ctx 0 = some request ∧ request.ended = none ∧ request.delivering = false := ⟨issues _ (by decide), by decide⟩
theorem test_witness_DoubleFaultFillsTheRecord : (withSlot { slotA with xsp := 0x10100000000 }).Issues here ∧
    (withSlot { slotA with xsp := 0x10100000000 }).frameOk 0 (0x10100000000 - 128) = false ∧
    (withSlot { slotA with xstatus := 0xF01 }).frameOk 0 (0x10100001000 - 128) = true ∧ depthOf 0xF01 = 15 ∧ legalWord 0 = false ∧
    ((withSlot slotA).slot here).handler ≠ 0 := ⟨issues _ (by decide), by decide +kernel⟩
theorem test_double_fault : (after (.illegalWord here 0) (withSlot { slotA with xstatus := 0xF01 })).map (fun d =>
    ((d.slot here).doubleFault, SMap.get 0 d.cfr (cfrKey here 0))) = some (true, 0x8000000000020F01) := by decide +kernel

/-- A frame of slot 0 at its Pool's offset 0xF80, its return address in the Recipe Store. -/
def framed : Chip :=
  { withSlot { slotA with xsp := 0x10100000F80, xstatus := 0x100 } with
    mem := [(0x10000000F80, 0x10), (0x10000000F83, 0xC0), (0x10000000F84, 0x34), (0x10000000F98, 0x03)] }

theorem test_witness_EretRestoresTheFrame : framed.Issues here ∧ depthOf (framed.slot here).xstatus ≠ 0 ∧
    framed.frameOk 0 (framed.slot here).xsp = true ∧ bit (framed.frameRead here 0x10100000F80 3) 2 = false ∧
    framed.fetchable (framed.frameRead here 0x10100000F80 0 &&& ~~~(3 : Word)) = true ∧ depthOf ((withSlot slotA).slot here).xstatus = 0 ∧
    (withSlot slotA).Enterable here := ⟨issues _ (by decide), by decide, by decide +kernel, by decide +kernel, by decide +kernel, by decide, by decide, by decide +kernel⟩
theorem test_eret : (after (.eret here) framed).map (fun d => ((d.slot here).pc, (d.slot here).xstatus, (d.slot here).xsp)) =
    some (0x34C0000010, 3, 0x10100001000) := by decide +kernel

/-! Reservations, fences and the core state registers. -/

/-- Core 0 at cycle 4,097, its slot 0 holding a reservation from cycle 0 on the granule of 0x1000. -/
def holds : Chip :=
  (withCore { Core.reset with cycles := 4096, slots := [(0, { regs 0x1000 9 with rsv := some 0x1000, rsvAt := 0 })] }).reserveHome 0 (slotHolder here) 0x1000

theorem test_witness_Reservations : holds.Issues here ∧ (on holds).memOk ∧ (holds.core 0).sbHolds 0 = false ∧ (hbm 0x1000).row = .hbm ∧ (hbm 0x1000).ty < 2 ∧
    (hbm 0x1000).pkg = none ∧ holds.homeWait (hbm 0x1000) = none ∧ holds.access (some 0) 0x1000 8 false = some (hbm 0x1000) ∧
    holds.access (some 0) 0x1000 8 true = some (hbm 0x1000) ∧ holds.rsvMatches 0 (holds.slot here) (hbm 0x1000) = true ∧
    (holds.core 0).rsvOver (holds.slot here) = false ∧ holds.reservedHome holds.self (slotHolder here) 0x1000 = true ∧
    holds.rsvMatches 0 (regs 0x1000 9) (hbm 0x1000) = false ∧ holds.rsvMatches 0 (holds.slot here) (hbm 0x1100) = false :=
  ⟨⟨rfl, rfl, rfl, rfl, by decide +kernel⟩, rfl, by decide +kernel⟩
theorem test_stcv : (after (.stcv here 3 1 2) holds).map (fun d => (Mem.read d.mem 0x1000, (d.slot here).xr 3, (d.slot here).rsv)) = some (9, 0, none) := by
  decide +kernel
theorem test_stcv_without : (after (.stcv here 3 1 2) (withSlot (regs 0x1000 9))).map (fun d => (d.mem, (d.slot here).xr 3)) = some ([], 1) := by decide +kernel
theorem test_witness_reservationTimeout : (holds.slot here).rsv ≠ none ∧ (holds.slot here).rsvAt.toNat + 4096 < (4097 : Word).toNat := by decide +kernel

/-- A transaction of slot 0 without answer. -/
def waits : Trk := { id := 0, holder := .slot 0, kind := .read, addr := 0, size := 8, pkg := 1, ctx := 0, stream := none }
/-- A command in an engine's queue. -/
def command (bytes : List Byte) : EngCmd :=
  { seq := 0, slot := 0, ctx := 0, bytes := bytes ++ List.replicate (64 - bytes.length) 0, phase := .queued, handle := none, start := [], seen := none, prog := 0, sub := [], killed := false }
/-- Core 0 with slot 0 running and one engine as given. -/
def engineCore (e : Nat) (q : List EngCmd) : Core := { Core.reset with slots := [(0, slotA)], engines := [(e, { Engine.reset with queue := q })] }

theorem test_witness_FencesYieldAndTend : (withSlot slotA).Issues here ∧ (¬ ∃ e ∈ ((withSlot slotA).core 0).storeBuf, e.slot = 0) ∧
    (¬ ∃ t ∈ ((withSlot slotA).core 0).trks, t.holder = Holder.slot 0) ∧ (∃ e ∈ (stores.core 0).storeBuf, e.slot = 0) ∧
    (∃ t ∈ ((withCore { Core.reset with slots := [(0, slotA)], trks := [waits] }).core 0).trks, t.holder = Holder.slot 0) ∧
    (∀ e, e < 6 → ∀ y ∈ (((withSlot slotA).core 0).engine e).queue, y.slot ≠ 0) ∧
    (0x20#6).getLsbD 5 = true ∧ (∃ y ∈ (((withCore (engineCore 5 [command []])).core 0).engine 5).queue, y.slot = 0) ∧
    (withSlot slotA).ctx 0 = some request := by
  refine ⟨issues _ (by decide), ?_⟩
  decide +kernel
theorem test_fenceE_names_engine : (after (.fenceE here 0x20) (withCore (engineCore 5 [command []]))).map (fun d => (d.slot here).wait) =
    some (some .fenceWait) := by decide +kernel
theorem test_fenceE_other_engine : (after (.fenceE here 0x1F) (withCore (engineCore 5 [command []]))).map (fun d => (d.slot here).pc) =
    some 0x34C0000004 := by decide +kernel
theorem test_tend : (after (.tend here) (withSlot slotA)).map (fun d => ((d.slot here).task, (d.ctx 0).map (fun x => x.stageState 0))) =
    some (none, some .reported) := by decide +kernel

/-- A ring stream of three slots of 32 bytes, its output side as given. -/
def ring (out : Bool) (filled : Nat) : Stream :=
  { Stream.reset with cfg := (if out then 0x100000000000 else 0) + 0x20000 + 0x1800 + 0x200 + 1, filled := filled }
/-- Slot 0 and stream 63 of core 0. -/
def ringCore (t : Stream) : Chip := withCore { Core.reset with slots := [(0, regs 3 0)], streams := [(63, t)] }

theorem test_witness_CoreStateAndStreamRegisters : (ringCore (ring false 0)).Issues here ∧ (0x001#12).toNat = 0x001 ∧ (0x10F#12).toNat = 0x100 + 15 ∧
    (0x20C#12).toNat = 0x200 + 12 ∧ 0x500 ≤ (0x500#12).toNat ∧ (0x01F#12).toNat < 0x020 ∧ 0x480 ≤ (0x480#12).toNat ∧ (0x3FF#12).toNat < 0x400 ∧
    (0x11F#12).toNat = 0x110 + 15 ∧ (0x121#12).toNat = 0x121 ∧ ((ringCore (ring false 0)).core 0).streamBusy 63 = false ∧
    ((withCore (engineCore 0 [command [0, 0, 63]])).core 0).streamBusy 63 = true ∧ (ring false 1).mode = 1 ∧ (ring false 1).out = false ∧
    0 < (ring false 1).filled ∧ (ring false 0).filled = 0 ∧ (ring true 3).out = true ∧ (ring true 3).filled = (ring true 3).slots ∧
    (ring true 2).mode = 1 := by
  refine ⟨⟨rfl, rfl, rfl, rfl, by decide +kernel⟩, ?_⟩
  decide +kernel
/-- A ping-pong stream whose lower half is full, its output side as given. -/
def pingpong (out : Bool) : Stream := { Stream.reset with cfg := (if out then 0x100000000000 else 0) + 0x400 + 1, half0 := true }
theorem test_witness_streams_of_each_mode : (pingpong false).mode = 2 ∧ (pingpong true).out = true ∧ Stream.reset.mode = 0 ∧ (ring true 2).filled ≠ (ring true 2).slots ∧
    (withCore { engineCore 0 [command [0, 0, 63]] with streams := [(63, ring false 1)] }).Issues here :=
  ⟨by decide, by decide, by decide, by decide, rfl, rfl, rfl, rfl, by decide +kernel⟩
theorem test_witness_registers_of_a_task : holds.Issues here ∧ (holds.slot here).task = some { ctx := 0, stage := 0 } ∧ holds.ctx 0 = some request ∧
    (holds.slot here).rsv = some 0x1000 ∧ (holds.access (some 0) 0x1000 1 false).map (fun t => t.pkg) = some none ∧
    (∀ i, i < 16 → ∀ p ∈ (holds.core 0).pmsel, p.1 = i → p.2 ≠ 2) :=
  ⟨⟨rfl, rfl, rfl, rfl, by decide +kernel⟩, by decide +kernel⟩
theorem test_witness_register_ranges : (0x004#12).toNat = 4 ∧ (0x00F#12).toNat < 0x010 ∧ (0x01A#12).toNat = 0x01A ∧ (0x026#12).toNat = 0x026 ∧
    (0x033#12).toNat = 0x033 ∧ (0x042#12).toNat = 0x042 ∧ (0x122#12).toNat = 0x122 ∧ (0x20D#12).toNat = 0x20D ∧ (0xFFF#12).toNat = 0xFFF ∧
    (0x47E#12).toNat = 0x400 + 2 * 63 ∧ (0x47F#12).toNat = 0x401 + 2 * 63 := by decide
theorem test_mfs_rsv : xAfter (.mfs here 3 0x041) holds 3 = some 0x8000000000001000 := by decide +kernel
theorem test_mfs_slot : xAfter (.mfs here 3 0x001) (withSlot slotA) 3 = some 0 := by decide +kernel
theorem test_mts_fpflags : (after (.mts here 1 0x040) (withSlot { regs 3 0 with fpflags := 6 })).map (fun d => (d.slot here).fpflags) = some 4 := by decide +kernel
theorem test_ring_handover : (after (.strRingHandover here 63 1) (ringCore (ring false 2))).map (fun d => ((d.core 0).stream 63).filled) = some 0 := by
  decide +kernel

/-! Queues, messages, vectors and sweeps. -/

/-- Slot 0 with x1 at the start of the Self Pool, and an engine's queue. -/
def enqs (n : Nat) : Chip :=
  withCore { engineCore 5 ((List.range n).map (fun i => { command [] with seq := BitVec.ofNat 32 i })) with slots := [(0, regs 0x10100000000 0)] }

theorem test_witness_EnqueueCopiesTheCommand : (enqs 15).Issues here ∧ (5 : BitVec 3).toNat < 6 ∧ (0x10100000000 : Word).toNat % 64 = 0 ∧
    (enqs 15).inOwnPool 0 0x10100000000 64 = true ∧ (enqs 15).inOwnPool 0 0x101000FFFC0 64 = true ∧ ((enqs 15).core 0).fenceLDone 0 = true ∧
    (((enqs 15).core 0).engine 5).queue.length < 16 ∧ 16 ≤ (((enqs 16).core 0).engine 5).queue.length :=
  ⟨⟨rfl, rfl, rfl, rfl, by decide +kernel⟩, by decide +kernel⟩
theorem test_enq_full : xAfter (.enq here 3 1 5 false) (enqs 16) 3 = some 0xFFFFFFFFFFFFFFFF := by decide +kernel
/-- Queue 63 of core 0, or queue 127 of its die, with handles in it. -/
def queued (n : Nat) : Chip :=
  { withCore { Core.reset with slots := [(0, regs 0xFFFFFFFFFFFFFFFF 0)], hqs := [(63, List.replicate n { val := 7, ctx := some 0 })] } with
    dieHqs := [(63, List.replicate (2 * n) { val := 8, ctx := none })] }
theorem test_witness_QueuesMessagesAndPrefetch : (queued 31).Issues here ∧ ((queued 31).core 0).fenceLDone 0 = true ∧ ((queued 31).hq 0 63).length < 32 ∧
    ((queued 31).hq 0 127).length < 64 ∧ 32 ≤ ((queued 32).hq 0 63).length ∧ 64 ≤ ((queued 32).hq 0 127).length ∧
    (queued 1).hq 0 63 = { val := 7, ctx := some 0 } :: [] ∧ (queued 0).hq 0 63 = [] := by
  refine ⟨⟨rfl, rfl, rfl, rfl, by decide +kernel⟩, ?_⟩
  decide +kernel
theorem test_hqput_63_bits : (after (.hqput here 3 1 true 63) (queued 0)).map (fun d => (d.hq 0 63).map (fun h => h.val)) = some [0x7FFFFFFFFFFFFFFF] := by
  decide +kernel
theorem test_hqget_empty : xAfter (.hqget here 3 true 63) (queued 0) 3 = some 0xFFFFFFFFFFFFFFFF := by decide +kernel

/-- A Short Message buffer in the Self Pool whose destination is the Pool of core 1. -/
def message : Chip := { withSlot (regs 0x10100000000 0) with mem := [(0x10000000002, 0x10), (0x10000000005, 0x01)] }
/-- What the start of core 1's Pool is. -/
def pool1 : Target := { pkg := none, off := 0x10000100000, row := .pool, ty := 3, wp := false }
theorem test_witness_smsg : message.Issues here ∧ message.inOwnPool 0 0x10100000000 64 = true ∧ (message.core 0).fenceLDone 0 = true ∧
    message.smTarget 0 (BitVec.ofNat 64 (fieldB (message.bytes (message.localOff (some 0) 0x10100000000) 64) 0 8)) = some pool1 ∧
    (message.core 0).smInFlight < 16 ∧ (message.core 0).slotTrackers 1 = true := ⟨issues _ (by decide), by decide +kernel⟩

/-- Vector registers v1 and v2 of slot 0, all lanes active under m0. -/
def vregs (a b : VReg) : Chip := { withSlot { regs 0x1000 0x10 with v := [(1, a), (2, b)], m := [(1, 0xF)] } with mem := [(0x1000, 1), (0x1010, 2)] }

theorem test_witness_VectorLoadAndStore : (vregs 0 0).Issues here ∧ (on (vregs 0 0)).memOk ∧ ((vregs 0 0).core 0).strictWaits 0 = false ∧
    ((vregs 0 0).core 0).sbHolds 0 = false ∧ (0x1000 : Word).toNat % tyBytes 7 = 0 ∧ (∀ m ∈ [0, 1, 2, 3], vmemLegal true 7 m = true ∧
      ∀ i ∈ activeElems 7 (((vregs 0 0).slot here).mr 1), ∃ t ∈ (vregs 0 0).access (some 0) (elemAddr ((vregs 0 0).slot here) 7 m 1 2 i) (tyBytes 7) false,
        t.ty ≠ 2 ∧ t.pkg = none ∧ (vregs 0 0).homeWait t = none) ∧
    (∀ m ∈ [0, 1, 2], vmemLegal false 7 m = true ∧
      ∀ i ∈ activeElems 7 (((vregs 0 0).slot here).mr 1), ∃ t ∈ (vregs 0 0).access (some 0) (elemAddr ((vregs 0 0).slot here) 7 m 1 2 i) (tyBytes 7) true,
        t.ty ≠ 2 ∧ t.pkg = none ∧ (vregs 0 0).homeWait t = none) := by
  refine ⟨issues _ (by decide), rfl, ?_⟩
  decide +kernel

theorem test_witness_VectorIntegersAndCompares : (vregs 0 0).Issues here ∧ (0#4).toNat ≤ 8 ∧ (8#4).toNat ≤ 8 ∧ (1#4).toNat ≠ 0 ∧
    1 ≤ (1#4).toNat ∧ (12#4).toNat ≤ 12 ∧ (9#4).toNat ≤ 12 := ⟨issues _ (by decide), by decide⟩
theorem test_vadds_saturates : (after (.vadds here 3 1 2 0 1) (vregs 0x7F80 0x01FF)).map (fun d => (d.slot here).vr 3) = some 0x7F80 := by decide +kernel
theorem test_vadd_wraps_lanes : (after (.vadd here 3 1 2 0 2) (vregs 0xFFFF 0x0101)).map (fun d => (d.slot here).vr 3) = some 0x0000 := by decide +kernel
theorem test_vadd_masked : (after (.vadd here 1 1 2 1 2) (vregs 0x0505050505 0x0101010101)).map (fun d => (d.slot here).vr 1) = some 0x0506060606 := by
  decide +kernel
theorem test_vsel_takes_vb : (after (.vsel here 3 1 2 1 2) (vregs 0x0505050505 0x0101010101)).map (fun d => (d.slot here).vr 3) = some 0x0105050505 := by
  decide +kernel
theorem test_vcmpLt_signed : (after (.vcmpLt here 2 1 2 0 1) (vregs 0xFF 0x00)).map (fun d => ((d.slot here).mr 2).toNat % 4) = some 1 := by decide +kernel
theorem test_witness_VectorFloatsAndConverts : (vregs 0 0).Issues here ∧ (tyFmt 9).isSome = true ∧ (tyFmt 10).isSome = true ∧ (tyFmt 11).isSome = true ∧
    (tyFmt 12).isSome = true ∧ vcvtLegal 11 7 0 = true ∧ vcvtLegal 10 11 1 = true := ⟨issues _ (by decide), by decide⟩
theorem test_vfadd_one_and_one : (after (.vfadd here 3 1 2 0 11) (vregs 0x3F800000 0x3F800000)).map (fun d => ((d.slot here).vr 3).toNat % 2 ^ 32) =
    some 0x40000000 := by decide +kernel
theorem test_vfdiv_by_zero : (after (.vfdiv here 3 1 2 0 11) (vregs 0x3F800000 0)).map (fun d => ((d.slot here).vr 3).toNat % 2 ^ 32) = some 0x7F800000 := by
  decide +kernel
theorem test_witness_MasksMovesAndReductions : (vregs 5 0).Issues here ∧ (12#4).toNat ≤ 12 ∧ laneOn (tyBits 1) 1 0 = true ∧
    (∀ j, j < tyCount 12 → laneOn (tyBits 12) 0 j = false) ∧ activeElems 8 (0 : MReg) = [] ∧ activeElems 8 (BitVec.allOnes 128) ≠ [] ∧
    (tyFmt 11).isSome = true := by
  refine ⟨issues _ (by decide), ?_⟩
  decide +kernel
theorem test_mfirst_none : xAfter (.mfirst here 3 2 0 0 2) (vregs 0 0) 3 = some 0xFFFFFFFFFFFFFFFF := by decide +kernel
theorem test_vredsum : xAfter (.vredsum here 3 1 0 0 1) (vregs 0xFF 0) 3 = some 0xFFFFFFFFFFFFFFFF := by decide +kernel
theorem test_vext_signed : xAfter (.vext here 3 1 0 0 1) (vregs 0x80 0) 3 = some 0xFFFFFFFFFFFFFF80 := by decide +kernel

/-- Slot 0 with a sweep of n elements at 0x1000 and its third register at the Self Pool. -/
def sweep (n : Word) (rc : Word) : Chip := withSlot { slotA with x := [(1, 0x1000), (2, n), (3, rc)], bsrchBase := 0x2000, bsrchEdges := 1 }

theorem test_witness_Sweeps : (sweep 0 0).Issues here ∧ (sweep 1 0x10100000000).Issues here ∧ (on (sweep 0 0)).memOk ∧ ((sweep 0 0).core 0).strictWaits 0 = false ∧
    ((sweep 0 0).core 0).sbHolds 0 = false ∧ ((sweep 0 0).slot here).xr 2 = 0 ∧ ((sweep 1 0).slot here).xr 2 = 1 ∧
    (∀ f ∈ [0, 1, 2, 3], sweepLegal 7 f 1 2 3 = true) ∧ (sweep 1 0x10100000000).inOwnPool 0 0x10100000000 8192 = true ∧
    (sweep 1 0x10100000000).inOwnPool 0 0x101000FE000 8192 = true ∧
    (∀ w ∈ [false, true], (sweep 1 0).access (some 0) 0x1000 (tyBytes 7) w = some (hbm 0x1000)) ∧
    (sweep 1 0).access (some 0) (effAddr 0x10100000000 (BitVec.ofNat 64 (4 * 0))) 4 true =
      some { pkg := none, off := 0x10000000000, row := .selfPool, ty := 3, wp := false } ∧
    ((sweep 1 0).slot here).bsrchEdges = 1 ∧ (sweep 1 0).access (some 0) (effAddr 0x2000 0) (tyBytes 7) false = some (hbm 0x2000) ∧
    (sweep 1 0).homeWait (hbm 0x2000) = none := by
  refine ⟨issues _ (by decide), issues _ (by decide), rfl, ?_⟩
  decide +kernel
theorem test_vfill : (after (.vfill here 1 2 3 6 none) (sweep 1 0x01020304)).map (fun d => (Mem.read d.mem 0x1000, Mem.read d.mem 0x1003, (d.slot here).xr 1,
    (d.slot here).xr 2)) = some (4, 1, 0x1004, 0) := by decide +kernel
theorem test_vhist : (after (.vhist here 1 2 3 7 ⟨none, none⟩) (sweep 1 0x10100000000)).map (fun d => d.mem.length) = some 1 := by decide +kernel

/-! Core events. -/

theorem test_witness_CoreEventsAndKill : countedEvent 1 = true ∧ countedEvent 0x34 = true ∧
    ((withCore { Core.reset with slots := [(0, slotA), (1, { slotA with xstatus := 3 })], pmPending := [15] }).core 0 |>.slot 1).takesPmc = true ∧
    (∀ j, j < 1 → (((withCore { Core.reset with slots := [(0, slotA), (1, { slotA with xstatus := 3 })] }).core 0).slot j).takesPmc = false) ∧
    ({ slotA with xstatus := 3 } : Slot).interruptible = true ∧ live.fcRuns 0 = true ∧ live.ctx 0 = some request ∧ live.collsOf 0 = [] ∧
    (some (0x20#8, 0#32)).isSome = true := by decide +kernel
theorem test_witness_pmcWrapInterrupt :
    (withCore { Core.reset with slots := [(0, slotA), (1, { slotA with xstatus := 3 })], pmPending := [15] }).Enterable { fc := 0, slot := 1 } :=
  ⟨by decide, by decide +kernel⟩
theorem test_witness_doubleFaultService : ((withSlot { slotA with stopped := true, doubleFault := true }).slot here).doubleFault = true ∧
    ((withSlot { slotA with stopped := true, doubleFault := true }).slot here).ctxNum = 0 ∧ live.mc.running = true ∧ live.mc.hasRoom = true := by decide
theorem test_double_fault_service : (after (.doubleFaultService here) (withSlot { slotA with stopped := true, doubleFault := true })).map (fun d =>
    ((d.ctx 0).bind (fun x => x.ended.map (fun e => e.1)), (d.slot here).doubleFault)) = some (some 0x13, false) := by decide +kernel

/-! Engines. -/

/-- Core 0 with one command in one engine. -/
def engineRuns (e : Nat) (x : EngCmd) : Chip := withCore (engineCore e [x])
/-- A command that waits for a start handle in queue 5 and gives its handle to queue 6. -/
def starts : EngCmd := command [1, 3, 0, 0, 6, 5]

theorem test_witness_EngineCommandLifecycle : ((engineRuns 5 starts).core 0 |>.engine 5).current = some starts ∧ starts.startEn = true ∧ starts.phase = .queued ∧
    (engineRuns 5 starts).fcRuns 0 = true ∧ (engineRuns 5 starts).hq 0 (starts.field 5 1 % 128) = [] ∧
    ({ withCore { engineCore 5 [starts] with hqs := [(5, [{ val := 9, ctx := none }])] } with tide := 0 }).hq 0 (starts.field 5 1 % 128) = { val := 9, ctx := none } :: [] ∧
    (engineCore 5 [{ starts with phase := .worked }]).engineOutstanding 5 = false ∧ starts.killed = false ∧ starts.doneEn = true ∧ (command [1]).doneEn = false ∧
    (engineRuns 5 { starts with phase := .complete }).hqRoom 0 (starts.field 4 1 % 128) = true := by decide +kernel
theorem test_start_handle : (after (.startHandleTake 0 5) (withCore { engineCore 5 [starts] with hqs := [(5, [{ val := 9, ctx := none }])] })).map (fun d =>
    (((d.core 0).engine 5).queue.map (fun x => (x.phase, x.handle)), d.hq 0 5)) = some ([(.started, some 9)], []) := by decide +kernel
/-- A Peloton whose one member is core 0. -/
def peloton : EngCmd := { command ([1] ++ List.replicate 0x2B 0 ++ [2, 0, 64]) with sub := [1, poolBase] }
theorem test_witness_pelotonMemberComplete : ((engineRuns 0 peloton).core 0 |>.engine 0).current = some peloton ∧ (engineRuns 0 peloton).fcRuns 0 = true ∧
    peloton.field 0 1 = 1 ∧ peloton.bit 0x2C 1 = true ∧ peloton.sub = 1 :: [poolBase] ∧ [poolBase][1 - 1]? = some poolBase ∧
    (engineRuns 0 peloton).hqRoom ((poolBase - poolBase) / poolSize) (peloton.field 0x2E 1 % 128) = true := by decide +kernel

/-- A command with fields set: byte offset, bytes, value. -/
def fields (l : List (Nat × Nat × Nat)) : EngCmd := command (l.foldl (fun b p => putB b p.1 (leBytes p.2.1 p.2.2)) (List.replicate 64 0))
/-- The start of the Self Pool. -/
def sp : Nat := 0x10100000000
/-- A command in an engine of core 0, whose Pool holds two matrix descriptors, a table header of zeros and a sweep block, with table 0 replicated. -/
def work (e : Nat) (x : EngCmd) : Chip :=
  { engineRuns e x with
    mem := [(0x10000000008, 1), (0x10000000009, 2), (0x1000000000C, 1), (0x10000000010, 1), (0x10000000048, 5), (0x10000000049, 2),
            (0x1000000004C, 1), (0x10000000050, 1), (0x10000000091, 0x10), (0x10000000094, 1), (0x10000000095, 1), (0x10000000099, 0x60), (0x10000000158, 2)]
    emb := { Emb.reset with tables := [(0, { Table.reset with cfg := 0xC000000010000040, rows := 4, base := 0x100000 })] } }
/-- Whether an engine works on a command with an OPCODE, its computation meets no fault, its result is as asked, and its writes fit. -/
def does (e : Nat) (opcode : Option Nat) (x : EngCmd) (body : Rd EngOut) (p : EngOut → Bool) : Bool :=
  let c := work e x
  decide (((c.core 0).engine e).current = some x) && !(x.startEn && x.phase = .queued) && c.fcRuns 0 && opcode.all (fun n => x.field 0 1 = n) &&
    (match body.result (c.reader 0 e x) with
     | .ok (out, _) => p out && decide (c.Fits 0 e x out)
     | .error _ => false)
/-- The command is then done. -/
def done (out : EngOut) : Bool := out.stop.isNone
/-- The command goes on with its next part. -/
def more (out : EngOut) : Bool := out.stop = some .again

/-- Commands for each engine. -/
def lceX : EngCmd := fields [(0, 1, 1), (0x20, 8, sp), (0x28, 8, sp + 64), (0x30, 2, 1)]
def gemmX : EngCmd := fields [(0, 1, 1), (0x10, 8, sp), (0x18, 8, sp), (0x20, 8, sp + 64)]
def bevX : EngCmd := fields [(0, 1, 5), (0x28, 8, 9 * 2 ^ 42 + 1 + 2 ^ 32), (0x30, 2, 1), (0x32, 2, 1)]
def sweepX : EngCmd := fields [(0, 1, 2), (0x10, 8, sp + 0x100), (0x18, 8, sp + 0x80), (0x20, 8, 0x2000), (0x28, 8, 0x3000), (0x38, 8, 0x5000)]
def rowsX (op : Nat) : EngCmd := fields [(0, 1, op), (0x18, 4, 1), (0x28, 4, 1), (0x38, 8, sp + 0x80), (0x20, 8, 0x2000)]
def selectX : EngCmd := fields [(0, 1, 1), (0x1C, 1, 2), (0x18, 4, 3), (0x30, 4, 2), (0x20, 8, 0x2000)]
def streamX : EngCmd := fields [(0, 1, 1), (2, 1, 63), (0x20, 8, 0x2000), (0x28, 4, 1)]

/-- A Matrix Tile command as it starts: it sees the memory it starts on. -/
def sees (c : Chip) (x : EngCmd) : EngCmd := { x with seen := some (x.seen.getD c.mem) }
/-- The same of the Matrix Tile. -/
def tiles (opcode : Nat) (x : EngCmd) (body : EngCmd → Rd EngOut) (p : EngOut → Bool) : Bool :=
  let c := work 5 x
  let y := sees c x
  decide (((c.core 0).engine 5).current = some x) && !(x.startEn && x.phase = .queued) && c.fcRuns 0 && x.field 0 1 = opcode &&
    (match (body y).result (c.reader 0 5 y) with
     | .ok (out, _) => p out && decide (c.Fits 0 5 y out)
     | .error _ => false)

theorem test_witness_EngineCommandsDoTheirWork : does 4 none lceX (lceBody 0 lceX) done = true ∧
    does 0 (some 3) (fields [(0, 1, 3)]) (bcastBody (fields [(0, 1, 3)])) done = true ∧ tiles 1 gemmX (gemmBody 0) done = true ∧
    tiles 3 (fields [(0, 1, 3), (0x10, 8, sp + 0x80)]) (rulesBody 0) done = true ∧ tiles 4 (fields [(0, 1, 4)]) (convBody 0) done = true ∧
    tiles 5 bevX bevBody done = true ∧ tiles 6 (fields [(0, 1, 6)]) labelsBody done = true := by decide +kernel
theorem test_witness_hashJoin_work : does 2 (some 2) (rowsX 2) (clearBody 0 (rowsX 2)) done = true ∧ does 2 (some 1) (rowsX 1) (hashBody (rowsX 1)) done = true ∧
    does 2 (some 3) (rowsX 3) (buildBody 0 (rowsX 3)) done = true ∧ does 2 (some 4) (rowsX 4) (probeBody 0 (rowsX 4)) done = true ∧
    does 2 (some 5) (rowsX 5) (partitionBody (rowsX 5)) done = true ∧ does 2 (some 6) (rowsX 6) (scatterBody 0 (rowsX 6)) more = true ∧
    (rowsX 1).sub = [] ∧ (rowsX 1).inCount ≠ 0 := by decide +kernel
theorem test_witness_stream_work : streamX.chained = false ∧ streamX.field 0x28 4 ≠ 0 ∧ streamX.bit 0x2C 1 = false ∧
    does 0 (some 1) streamX (streamDirect 0 streamX false) done = true ∧ (((work 0 streamX).core 0).stream 63).mode = 0 := by decide +kernel
theorem test_witness_a2a_work : does 0 (some 2) (rowsX 2) (a2aHead 0 (rowsX 2)) more = true ∧
    (planOf ({ rowsX 2 with sub := [1, 0, 1, 0] } : EngCmd).sub.tail).any (fun p => p.2.1 < 2) = true ∧
    does 0 (some 2) { rowsX 2 with sub := [1, 0, 1, 0] } (a2aRows 0 { rowsX 2 with sub := [1, 0, 1, 0] }) more = true := by decide +kernel
/-- The second part of a command of two parts: the package after the first part, and the command in it. -/
def second (e : Nat) (x : EngCmd) (first : Rd EngOut) (body : EngCmd → Rd EngOut) (p : EngCmd → Bool) : Bool :=
  let c := work e x
  match first.result (c.reader 0 e x) with
  | .ok (out, reads) =>
    let w := out.effect (c.written 0 e x out reads)
    (match ((w.core 0).engine e).current with
     | some y => p y && decide (y.seq = x.seq) && (match (body y).result (w.reader 0 e y) with
       | .ok (out2, _) => out2.stop.isNone && !(w.core 0).engineOutstanding e && decide (w.Fits 0 e y out2)
       | .error _ => false)
     | none => false)
  | .error _ => false
theorem test_witness_EngineCommandsOfTwoParts : does 1 (some 1) (rowsX 1) (gatherBody 0 (rowsX 1)) more = true ∧
    second 1 (rowsX 1) (gatherBody 0 (rowsX 1)) maskBody (fun y => y.sub ≠ []) = true ∧ does 1 (some 2) (rowsX 2) (bagBody 0 (rowsX 2)) more = true ∧
    second 1 (rowsX 2) (bagBody 0 (rowsX 2)) maskBody (fun y => y.sub ≠ []) = true ∧
    does 3 (some 1) selectX (selectBounded 0 selectX) more = true ∧
    second 3 selectX (selectBounded 0 selectX) (fun y => recordBody y y.rowLen) (fun y => y.sub = [2]) = true ∧ selectX.collective = false := by decide +kernel
/-- A part of a VOXELISE on the command as its engine holds it: what it computes, and the package after it. -/
def voxPart (b : Chip) (body : EngCmd → Rd EngOut) (p : EngCmd → EngOut → Bool) : Option Chip :=
  match ((b.core 0).engine 5).current with
  | some z =>
    (match (body (sees b z)).result (b.reader 0 5 (sees b z)) with
     | .ok (out, reads) =>
       if p z out && decide (z.seq = sweepX.seq) && decide (b.Fits 0 5 (sees b z) out) && !(b.core 0).engineOutstanding 5 then
         some (out.effect (b.written 0 5 (sees b z) out reads))
       else none
     | .error _ => none)
  | none => none
theorem test_witness_voxelise_work : (((voxPart (work 5 sweepX) (voxClear 0) (fun z o => z = sweepX && more o)).bind (fun b =>
    voxPart b (voxeliseBody 0) (fun z o => z.sub = [0] && more o))).bind (fun b =>
    voxPart b sweepTail (fun z o => z.sub ≠ [] && z.sub ≠ [0] && done o))).isSome = true := by decide +kernel
theorem test_witness_EngineEdges : (on (work 2 (rowsX 1))).memOk ∧ (rowsX 1).inCount = 1 ∧ live.ctx (rowsX 1).ctx = some request ∧
    (fields [(0, 1, 0)]).field 0 1 = 0 ∧ 7 ≤ (fields [(0, 1, 7)]).field 0 1 ∧ (fields [(0, 1, 1)]).inCount = 0 ∧
    ((work 2 (fields [(0, 1, 7)])).core 0 |>.engine 2).current = some (fields [(0, 1, 7)]) := by
  refine ⟨rfl, ?_⟩
  decide +kernel
/-- An engine command that its core works on, and whose engine is idle but for it. -/
def worksOn (e : Nat) (opcode : Option Nat) (x : EngCmd) (p : Chip → EngCmd → Bool) : Bool :=
  let c := work e x
  decide (((c.core 0).engine e).current = some x) && !(x.startEn && x.phase = .queued) && c.fcRuns 0 && opcode.all (fun n => x.field 0 1 = n) &&
    decide (x.prog = 0) && decide (x.sub = []) && p c x
theorem test_witness_edges_of_nothing :
    worksOn 0 (some 1) (fields [(0, 1, 1)]) (fun _ x => !x.chained && !x.bit 0x2C 0 && x.field 0x28 4 = 0 && !x.bit 0x2C 1) = true ∧
    worksOn 2 (some 1) (fields [(0, 1, 1)]) (fun _ x => x.inCount = 0) = true ∧ worksOn 2 (some 3) (fields [(0, 1, 3)]) (fun _ x => x.inCount = 0) = true ∧
    worksOn 1 (some 1) (fields [(0, 1, 1)]) (fun c x => x.field 0x18 4 = 0 && c.pkgCount % c.groupSize = 0) = true ∧
    worksOn 1 (some 2) (fields [(0, 1, 2)]) (fun c x => x.field 0x18 4 = 0 && c.pkgCount % c.groupSize = 0) = true ∧
    worksOn 5 (some 4) (fields [(0, 1, 4)]) (fun _ x => bits (x.addr 0x38) 31 0 = 0) = true ∧
    worksOn 5 (some 6) (fields [(0, 1, 6)]) (fun _ x => x.field 0x28 4 = 0) = true := by decide +kernel
theorem test_witness_edges_that_end : worksOn 2 none (fields [(0, 1, 0)]) (fun _ _ => true) = true ∧ worksOn 5 none (fields [(0, 1, 255)]) (fun _ _ => true) = true ∧
    worksOn 4 none lceX (fun _ _ => true) = true ∧ (work 4 lceX).ctx lceX.ctx = some request ∧ request.ended = none ∧ request.delivering = false := by decide +kernel
theorem test_witness_hash_lines : (work 2 (rowsX 1)).LineAt 0 (effAddr ((rowsX 1).addr 0x10) (BitVec.ofNat 64 ((rowsX 1).field 0x1E 1))) (rowsX 1).keyLen false 0 ∧
    (work 2 (rowsX 1)).LineAt 0 ((rowsX 1).addr 0x20) 8 true 0x2000 :=
  ⟨⟨hbm 0, by decide +kernel⟩, ⟨hbm 0x2000, by decide +kernel⟩⟩
theorem test_opcode_unknown : (after (.hash 0 false) (work 2 (fields [(0, 1, 7)]))).map (fun d => (d.ctx 0).map (fun x => x.ended)) =
    some (some (some (0x14, 0x00A000F0))) := by decide +kernel
theorem test_gemm_one_by_one : (after (.gemm 0 false) (work 5 gemmX)).map (fun d => ((d.core 0).engine 5).queue.map (fun x => x.phase)) =
    some [.worked] := by decide +kernel

/-! Requests, ports, registers and Recipes. -/

/-- Port 0 with one window as given. -/
def withWindow (n : Nat) (x : Window) : Chip := { live with ports := [(0, { Port.reset with linkUp := true, windows := [(n, x)] })] }
/-- An enabled window with 63 bytes waiting and LIMIT 1. -/
def intakeW : Window := { Window.reset with ctrl := 0x100000001, partialBytes := List.replicate 63 0 }

theorem test_witness_IntakeAndWindows : ((withWindow 63 intakeW).port 0).linkUp = true ∧ ((withWindow 63 intakeW).window 0 63) = intakeW ∧
    intakeW.partialBytes.length < 64 ∧ intakeW.err = false ∧ bit intakeW.ctrl 0 = true ∧ intakeW.occupancyWith [0#8].length ≤ intakeW.limit ∧
    intakeW.limit < intakeW.occupancyWith [0#8, 0#8].length ∧ bit Window.reset.ctrl 0 = false ∧ Window.reset.active = 0 ∧
    0 < ({ Window.reset with active := 1 } : Window).active ∧ live.blackout = false ∧
    (5 : Nat) ∈ ({ Port.reset with pba := [5] } : Port).pba ∧ Port.reset.busMaster = true := by decide +kernel
theorem test_intake_64th_byte : (after (.intakeWrite 0 63 ⟨[7], false⟩ true) (withWindow 63 intakeW)).map (fun d =>
    ((d.window 0 63).queue.length, (d.window 0 63).partialBytes, (d.window 0 63).accepted)) = some (1, [], 1) := by decide +kernel
theorem test_intake_over_limit : (after (.intakeWrite 0 63 ⟨[7, 7], false⟩ true) (withWindow 63 intakeW)).map (fun d =>
    ((d.window 0 63).err, (d.window 0 63).overrun, (d.port 0).err)) = some (true, 1, 1) := by decide +kernel

/-- A descriptor that passes every check, and one whose deadline has passed. -/
def descA (deadline : Nat) : List Byte := putB (putB (List.replicate 64 0) 0x09 [0xFF, 1]) 0x10 (leBytes 8 deadline ++ leBytes 8 0 ++ leBytes 4 1)
/-- A package with the lock held, Recipe Slot 0 ready with an image of two stages in a chain, and a descriptor in window 0. -/
def admits (deadline : Nat) : Chip :=
  { withWindow 0 { Window.reset with ctrl := 1, queue := [{ bytes := descA deadline, arrival := 5 }] } with
    tide := 10
    req := { ReqTable.reset with control := 0x00004E2000000008, quiesced := false }
    rcp := { Rcp.reset with locked := true, slots := [(0, { RcpSlot.reset with ready := true })] }
    mem := [(0x34C0000006, 2), (0x34C0000010, 0x80), (0x34C0000018, 1), (0x34C0000021, 0x10), (0x34C0000088, 3), (0x34C0000102, 1), (0x34C0001004, 1)] }

theorem test_witness_AdmissionAndCredits : bit (admits 0).req.control 0 = false ∧ (admits 0).turnQueue = some (0, 0) ∧
    ((admits 0).window 0 0).queue = { bytes := descA 0, arrival := 5 } :: [] ∧ (admits 0).checks (descA 0) = none ∧
    (admits 10).checks (descA 10) = some (0x16, 1) ∧ (admits 11).checks (descA 11) = none ∧ live.checks (List.replicate 64 0) = some (0x12, 1) ∧
    (admits 0).req.ctxs.length < 131072 ∧ (admits 0).ctx 131071 = none ∧ (admits 0).req.stallHead = none := by decide +kernel
theorem test_witness_contexts_full : 131072 ≤ (List.replicate 131072 (0, request)).length := Nat.le_of_eq List.length_replicate.symm
theorem test_witness_cwbTimer : 0 < ({ Window.reset with cwbCount := 1, cwbAddr := 8 } : Window).cwbCount ∧ (8 : Word).toNat / 8 ≠ 0 ∧
    (live.port 0).busMaster = true := by decide
theorem test_admit : (after (.admitRequest 7) (admits 0)).map (fun d => ((d.ctx 7).map (fun x => (x.stageState 0, x.stageState 1)), (d.window 0 0).taken)) =
    some (some (.ready, .waiting), 1) := by decide +kernel
theorem test_admit_late : (after (.admitRequest 7) (admits 10)).map (fun d => (d.ctx 7, (d.window 0 0).cplQ)) =
    some (none, [.descriptor (descA 10) 5 0x16 1]) := by decide +kernel

/-- Request 0 in use with stage 0 in the placement queue, and core 0 with a task in slot 0. -/
def places : Chip :=
  { admits 0 with cores := [(0, { Core.reset with slots := [(0, slotA)] })]
                  req := { ReqTable.reset with ctxs := [(0, { request with stages := [(0, .reported)] })], placeQ := [(0, 0)] } }
theorem test_witness_StagesStartAndComplete : places.req.placeQ.find? (fun q => !places.stageWaits q) = some (0, 0) ∧
    places.ctx 0 = some { request with stages := [(0, .reported)] } ∧ places.bestCore (places.maskOf (0, 0)) = some 1 ∧
    ({ request with stages := [(0, .reported)] } : Ctx).stageState 0 = .reported := by decide +kernel
theorem test_stage_complete : (after (.stageComplete 0 0) places).map (fun d => (d.ctx 0).map (fun x => (x.stageState 0, x.stageState 1))) =
    some (some (.completed, .ready)) := by decide +kernel

theorem test_witness_DeadlinesAndQuiesce : ({ request with desc := descA 10 } : Ctx).ended = none ∧ fieldB (descA 10) 0x10 8 ≠ 0 ∧
    fieldB (descA 10) 0x10 8 ≤ (admits 10).tide.toNat ∧ live.blackout = false ∧ bits (0 : Word) 3 2 = 0 ∧ bits (4 : Word) 3 2 = 1 ∧
    live.ctx 0 = some request ∧ request.ended = none ∧ request.delivering = false ∧ bits (0x0000000100000009 : Word) 63 32 ≠ 0 ∧
    bit (0x0000000100000009 : Word) 0 = true ∧ 2 ≤ bits (0x0000000100000009 : Word) 3 2 := by decide +kernel
theorem test_abort_quiesce : (after (.quiesce 4) live).map (fun d => ((d.ctx 0).map (fun x => x.ended), bit d.req.control 0)) =
    some (some (some (0x20, 0)), true) := by decide +kernel

/-- Request 0 with both stages completed, and its window as given. -/
def delivers (w : Window) (x : Ctx) : Chip :=
  { admits 0 with ports := [(0, { Port.reset with linkUp := true, windows := [(0, w)] })]
                  req := { ReqTable.reset with ctxs := [(0, { x with stages := [(0, .completed), (1, .completed)] })] } }
theorem test_witness_DeliveryAndCompletion : (∀ t, t < (delivers Window.reset request).stageCount 0 →
      ({ request with stages := [(0, .completed), (1, .completed)] } : Ctx).stageState t = .completed) ∧
    roundUp 4096 64 ≤ Window.reset.recSize ∧ Window.reset.recSize < roundUp 4097 64 ∧
    ((Window.reset.recordSkip 32 + roundUp 32 64 : Nat) : Int) ≤ ringRoom Window.reset.recSize 0 0 ∧
    ringRoom Window.reset.recSize 4096 0 < (64 : Int) ∧ ((0 : Nat) + 1 : Int) ≤ Window.reset.cplRoom ∧ (0 : Nat) ∉ Window.reset.waiting ∧
    (1 : Int) ≤ ({ Window.reset with cplTail := 15 } : Window).cplRoom ∧
    [CplItem.request 0].find? (delivers Window.reset { request with ended := some (0x16, 0) }).cplReady = some (.request 0) ∧
    bit (0x8000000100000000 : Word) 63 = true ∧ bits (0x8000000100000000 : Word) 47 32 ≠ 0 := by decide +kernel
theorem test_delivery : (after (.deliveryBegin 0 (some [1])) (delivers Window.reset request)).map (fun d => ((d.window 0 0).recTail, (d.ctx 0).map (fun x => x.recordBytes))) =
    some (64, some 33) := by decide +kernel
theorem test_completion : (after (.completionRecord 0 0) (delivers { Window.reset with cplQ := [.request 0], active := 1 }
    { request with ended := some (0x16, 0) })).map (fun d => (d.ctx 0, (d.window 0 0).cplTail, (d.window 0 0).active)) = some (none, 1, 0) := by decide +kernel

theorem test_witness_PortsAreCutOff : (live.port 0).linkUp = true ∧ live.ctx 0 = some request ∧ live.hubOn = true ∧ live.rst.ready = true ∧
    (live.port 1).perst = false ∧ (live.port 1).linkUp = false ∧ live.mc.recovery = false := by decide
theorem test_link_down : (after (.pcieLinkDown 0) (withWindow 0 { Window.reset with cplQ := [.descriptor [] 0 0 0, .request 0] })).map (fun d =>
    ((d.port 0).discarded, (d.window 0 0).cplQ, (d.ctx 0).map (fun x => x.cut))) = some (1, [.request 0], some true) := by decide +kernel

/-- Engine 1 of core 0 has asked for 64 bytes at bus address 0x100 of port 0. -/
def asks : Chip := { withCore { Core.reset with engines := [(1, { Engine.reset with queue := [command [1]], asked := [busKey 0 0x100] })] } with
    ports := [(0, { Port.reset with linkUp := true, reads := [{ tag := 5, addr := 0x100, len := 64, done := 0, ctx := 0, reader := .engine 0 1 0 }] })] }
/-- A port whose aperture lies at an address and that sees a package. -/
def aper (base fab : Word) (access : BitVec 3) : Chip := { live with ports := [(0, { Port.reset with linkUp := true, aper := base, fabWin := fab, access := access })] }
theorem test_witness_PortReadsAndBars : ((asks.port 0).readOf (5#14).toNat).map (fun r => (r.reader, r.len, r.done)) = some (.engine 0 1 (command [1]).seq, 64, 0) ∧ ((asks.core 0).engine 1).current = some (command [1]) ∧
    asks.ctx (command [1]).ctx = some request ∧ (∀ o ∈ [0, 0x34BFFFFFFE], (aper 0 0 7).hbmWaits o = false ∧ (aper 0 0 7).hbmTakes o 2 = true) ∧
    (aper 0x34C0000000 0 7).hbmTakes 0x34C0000000 2 = false ∧ (aper 0x34C0000000 0 7).hbmWaits 0x34C0000000 = false ∧
    (aper 0x34C0000000 0 7).hbmTakes 0x3600000000 2 = false ∧ (0#3).getLsbD 1 = false ∧ (7#3).getLsbD 2 = true ∧
    regAligned 0xFFFFF8 8 = true ∧ regAligned 4 4 = true ∧ bits (0 : Word) 11 0 = live.self ∧ live.inGeom (bits (0xFFF : Word) 11 0) = false := by decide +kernel
theorem test_witness_readCompletions : (asks.port 0).linkUp = true ∧ (leBytes 64 0).length ≤ 64 - 0 ∧ request.ended = none ∧ request.delivering = false ∧
    (5 : Nat) ∈ (asks.port 0).reads.map (fun a => a.tag) ∧ (aper 0 0 7).hbmTakes 0xFFFFFFF 1 = true ∧ 0xFFFFFFF + 1 ≤ 2 ^ 28 := by decide +kernel
theorem test_bar4_write : (after (.bar4Write 0 4 ⟨[1, 0, 3], false⟩) (aper 0 0 7)).map (fun d => d.mem) = some [(4, 1), (6, 3)] := by decide +kernel
theorem test_bar4_store_refused : (after (.bar4Write 0 4 ⟨[1], false⟩) (aper 0x34C0000000 0 7)).map (fun d => (d.mem, (d.port 0).err)) = some ([], 8) := by decide +kernel

/-- A message of a type to this package. -/
def mail (o : Nat) (data : List Byte) : Msg :=
  { mtype := 0x41, src := 1, dest := 0, addr := BitVec.ofNat 64 o, lockTag := 0, txn := 1, len := 8, cause := 0, position := 0, final := 0, ctx := 0, data := data }
theorem test_witness_RegisterWrites : (live.port 0).access.getLsbD 0 = true ∧ live.rst.por = true ∧ live.rst.held = false ∧ (0xFFF8#24).toNat % 8 = 0 ∧
    (0x18#24).toNat < 0x20 ∧ 0x30 ≤ (0x30#24).toNat ∧ (0xFFF8#24).toNat < 0x10000 ∧ regAligned 4 8 = false ∧ regAligned 2 4 = false ∧
    regAligned 0 2 = false ∧ bits (mail 0x20 []).addr 49 0 % 8 = 0 ∧ bits (mail 0x24 []).addr 49 0 % 8 ≠ 0 ∧
    (1 : Nat) ∈ ({ Net.reset with live := [0, 1] } : Net).live ∧ (mail 0x20 (leBytes 8 5)).data = leBytes 8 (5 : Word).toNat := by decide +kernel
theorem test_witness_registerReads : (live.port 0).linkUp = true ∧ (0xFFF8#24).toNat < 0x10000 ∧ (0x7FF0#24).toNat % 16 = 0 ∧ (0x7FF8#24).toNat % 16 = 8 ∧
    (0x7FF8#24).toNat < 0x8000 ∧ regAligned (0x50000 + 0x10000 * 0 + (0x2#24).toNat) 4 = false ∧ (aper 0 0 6).ports.all (fun p => !p.2.access.getLsbD 0) = true ∧
    ((aper 0 0 6).port 0).linkUp = true := by decide
theorem test_witness_mregReceives : live.Receives (mail 0x20 []) ∧ live.Receives { mail 0x20 [] with txn := 4 } := ⟨by unfold Chip.Receives; decide, by unfold Chip.Receives; decide⟩
theorem test_scratch_half : (after (.registerWrite (.bar0 0) 0x24 4 (.write 7)) live).map (fun d => regRead d 0x20) = some 0x700000000 := by decide +kernel

/-- The Recipe block with the staging registers and status as given. -/
def staged (from_ len : Word) (st : StageStatus) : Chip :=
  { live with rcp := { Rcp.reset with stageAddr := from_, stageLen := len, stageStatus := st, imageLen := len.toNat } }
theorem test_witness_RecipeVerify : (on (staged 0 512 .idle)).memOk ∧ (staged 0 512 .idle).blackout = false ∧ (staged 0 512 .idle).rcp.busy = none ∧
    (staged 0 512 .idle).rcp.stageStatus ≠ .verifying ∧ (staged 0 512 .idle).rcp.stageArea < 5 ∧ 512 ≤ (512 : Word).toNat ∧
    (0x40000000 : Word).toNat ≤ 2 ^ 30 ∧ (0x3480000000 : Word).toNat + (0x40000000 : Word).toNat ≤ storeBase ∧ (511 : Word).toNat < 512 ∧
    2 ^ 30 < (0x40000001 : Word).toNat ∧ storeBase < (0x3480001000 : Word).toNat + (0x40000000 : Word).toNat ∧
    (staged 0 512 .verifying).rcp.stageStatus = .verifying ∧ (staged 0 512 .verifying).mc.running = true ∧
    (staged 0 512 .verifying).signatureOk 4 256 [] = false := by
  refine ⟨rfl, ?_⟩
  decide +kernel
theorem test_verify_short : (after .verify (staged 0 511 .idle)).map (fun d => d.rcp.stageStatus) = some .badFormat := by decide +kernel
theorem test_witness_RecipeSlotsAndLock : live.rcp.busy = none ∧ live.rcp.locked = false ∧ (staged 0 512 .valid).rcp.stageStatus = .valid ∧
    live.rcp.stageStatus ≠ .valid ∧ (admits 0).rcp.locked = true ∧ Chip.reset.rst.bringupMode = true ∧ live.rst.bringupMode = false ∧
    live.req.quiesced = false ∧ ReqTable.reset.quiesced = true ∧ ({ Rcp.reset with busy := some (.commit 3) } : Rcp).busy = some (.commit 3) ∧
    ({ Rcp.reset with busy := some (.commit 3) } : Rcp).queue = [] := by decide +kernel
theorem test_commit_exchanges : (after .slotCommitDone { staged 0 512 .valid with rcp := { Rcp.reset with busy := some (.commit 3), stageStatus := .valid } }).map
    (fun d => (d.rcp.area3, d.rcp.stageArea, (d.rcp.slot 3).ready)) = some (4, 3, true) := by decide +kernel
theorem test_unlock_not_quiesced : (after .unlock (admits 0)).map (fun d => (d.rcp.locked, d.rcp.lastResult)) = some (true, 5) := by decide +kernel

/-- A key and a signature under it, made so that both multipliers are small: with s the digest z and r twice z, R lies at abscissa r and Q is half of
R less the base point. -/
def keyQ : List Byte :=
  4 :: beBytes 48 0xdffc3a55efe24a7ec3b0fb85fe932c0a4bc64523da3bc75ad853f835ca5e68748fe28a32032aa1fde1e1ac24f160b2eb ++
    beBytes 48 0x1ba8dcd788bdf9d9dea8715da26355091f958b3f04468843928e2f257a0192fea2f5a0d1b3c0e2e3c201581cea69ee26
/-- The SHA-384 digest of the image below, from another implementation. -/
def digestZ : List Byte := beBytes 48 0x76318715f7f661b35a71ac57b18813ed76d72f5b4a795ba50bccef823161ca111cf1fe19cb356b8bd1f370ad2fd438a6
/-- An image of 768 bytes: magic, version 1, one CORE stage at 0x80 that every core 0 may take, and a trailer with key slot 0 and the signature. -/
def image : List Host.Cell :=
  [(0x35C0000000, 0x52), (0x35C0000001, 0x43), (0x35C0000002, 0x50), (0x35C0000003, 0x31), (0x35C0000004, 1), (0x35C0000006, 1), (0x35C0000010, 0x80),
   (0x35C0000088, 1)]
/-- The bytes of the signature. -/
def signature : List Byte :=
  beBytes 48 0xec630e2befecc366b4e358af631027daedae5eb694f2b74a1799df0462c3942239e3fc33966ad717a3e6e15a5fa8714c ++ digestZ
/-- The package as VERIFY works on the image. -/
def verifies : Chip :=
  { staged 0 1024 .verifying with
    mem := Mem.writeAll image (cellsAt 0x35C0000308 signature)
    mc := { Mc.reset with running := true, cfg := { ConfigStore.reset with recipeKeys := [(0, keyQ)] } } }

theorem test_sha384 : sha384 (verifies.bytes 0x35C0000000 768) = digestZ := by decide +kernel
theorem test_witness_signatureOk : verifies.signatureOk 4 768 digestZ = true := by decide +kernel
theorem test_witness_formatOk : verifies.formatOk 4 768 = true ∧ { verifies with mem := verifies.mem.drop 1 }.formatOk 4 768 = false := by decide +kernel

/-! Tables, arbiters, messages and collectives. -/

/-- The package with the lock held, whose tag is 0. -/
def tagged : Chip := { live with rcp := { Rcp.reset with locked := true } }
/-- Table 0: I8, 64 columns, not replicated, 4 rows at 1 MiB. -/
def tableA : Table := { Table.reset with cfg := 0x8000000010000040, rows := 4, base := 0x100000 }
/-- The embedding block with table 0. -/
def embA : Emb := { Emb.reset with ctrl := 0x0001000000000000, tables := [(0, tableA)] }
theorem test_witness_EmbeddingTables : (on live).memOk ∧ live.blackout = false ∧ live.locked = false ∧ tagged.locked = true ∧
    ({ live with emb := embA } : Chip).measuring = true ∧
    (∀ o ∈ ({ live with emb := embA } : Chip).placeOffsets 0 (95, 1) (tableA.slice 1), o < basinBase) := by
  refine ⟨rfl, ?_⟩
  decide +kernel
/-- A row on its way to slot 1 of channel 95. -/
def moving : Chip := { live with emb := { embA with moves := [{ table := 0, row := 0, channel := 95, place := 1 }] }
                                 mem := [(0x100000, 9)] }
theorem test_table_write_purges : (after (.tableRegWrite 0 .salt 5) { live with emb := { embA with poison := [(0, 1), (1, 1)] } }).map (fun d =>
    (d.emb.poison, (d.table 0).salt)) = some ([(1, 1)], 5) := by decide +kernel
theorem test_migration : (after .migrationCommit moving).map (fun d => (d.rowPlace 0 0, (d.table 0).version)) = some ((95, 1), 1) := by decide +kernel

/-- A slice read of row 0 of table 0. -/
def sliceMsg : Msg := { mail 0 (leBytes 8 0) with mtype := 0x50 }
/-- The package that keeps table 0, with row 0 on the Poison List or not. -/
def keeps (poison hot : List (Nat × Nat)) : Chip := { tagged with emb := { embA with poison := poison, hot := hot } }
theorem test_witness_SliceReads : tagged.tagOk sliceMsg = true ∧ sliceMsg.len = 8 ∧
    (∀ o ∈ (keeps [] []).placeOffsets 0 ((keeps [] []).rowPlace 0 0) (tableA.slice 1), rowOf o = some .hbm ∧ 1 ≤ 1 ∧ o + 1 ≤ storeBase ∧
      (keeps [] []).homeWait { pkg := none, off := o, row := .hbm, ty := 0, wp := false } = none) ∧
    (keeps [] []).poisoned 0 0 = false ∧ (keeps [(0, 0)] []).poisoned 0 0 = true ∧
    (keeps [] [(0, 0)]).hotRow 0 0 (channelDie ((keeps [] []).rowPlace 0 0).1) = true ∧ (keeps [] []).hotRow 0 0 0 = false ∧
    ({ sliceMsg with cause := 1 } : Msg).cause = 1 ∧ (keeps [] []).emb.poison.length < 1024 := by decide +kernel
theorem test_witness_receives : tagged.Receives sliceMsg := by unfold Chip.Receives; decide
/-- Engine 1 of core 63 waits for the slice of row 0 that a message brings. -/
def awaits : Chip := { keeps [] [] with cores := [(63, { Core.reset with engines := [(1, { Engine.reset with queue := [command [1]], asked := [sliceKey 0 0 0 0] })] })] }
theorem test_witness_sliceData : awaits.conf.merges.find? (fun e => e.answered { sliceMsg with mtype := 0x51, src := 0 }) = none ∧
    (∀ f, f < 64 → f ≠ 63 → ((awaits.core f).engine 1).current = none) ∧ ((awaits.core 63).engine 1).current = some (command [1]) ∧
    (command [1]).ctx = sliceMsg.ctx.toNat % 2 ^ 17 ∧ ((awaits.core 63).engine 1).asked = [sliceKey 0 0 0 0] ∧
    sliceKey 0 0 0 0 = sliceKey 0 sliceMsg.position.toNat (awaits.rank 0 % awaits.groupSize) (sliceKey 0 0 0 0 % 2 ^ 21) ∧
    sliceMsg.position.toNat < 2 ^ 40 := by decide +kernel

/-- An access that waits. -/
def access1 (tag : Option Word) (cls : Nat) : Waiting := { emptyAt := tag, cls := cls, arrival := 0, requester := 2049, off := 0x100 }
/-- A package where accesses wait at arbiters 0, 97 and 127, and another mode and history of 127. -/
def awaited (l : List Waiting) (b : Arbiter) : Chip :=
  { live with arbs := [(127, b)], traffic := { Traffic.reset with waiting := [(0, l), (97, l), (127, l)] } }
/-- A history of tagged grants alone. -/
def taggedOnly : Arbiter := { Arbiter.reset with recent := List.replicate 63 (0, true) }
theorem test_witness_ArbiterGrants : ArbHome.slice.index 31 = 127 ∧ bits Arbiter.reset.ctl 33 32 ≠ 1 ∧ bits (0x108101020 : Word) 33 32 = 1 ∧
    (awaited [access1 (some 5) 0] Arbiter.reset).waitingAt 127 = [access1 (some 5) 0] ∧
    (∀ y ∈ [access1 (some 5) 0, access1 (some 6) 0], y.emptyAt.isSome = true → y ≠ access1 (some 5) 0 → tagBefore (access1 (some 5) 0) y = true) ∧
    [access1 (some 5) 0].filter (fun y => y.emptyAt.isNone) = [] ∧ ([access1 none 2].filter (fun y => y.emptyAt.isNone)) ≠ [] ∧
    (taggedOnly.recent.filter (fun k => !k.2)).length + (63 - taggedOnly.recent.length) < taggedOnly.floor ∧
    (∀ k, k ≤ 2 → k ∈ ({ Arbiter.reset with ctl := 0x108101020 } : Arbiter).due → ∃ y ∈ [access1 none 0, access1 none 1, access1 none 2], y.cls = k) := by
  decide +kernel
theorem test_arb_earliest : (after (.arbGrant .channel 0) (awaited [access1 (some 6) 0, access1 (some 5) 1] Arbiter.reset)).map (fun d =>
    ((d.arb 0).last, d.waitingAt 0)) = some (some (access1 (some 5) 1), [access1 (some 6) 0]) := by decide +kernel
theorem test_slice_miss : (after (.arbGrant .slice 1) (awaited [access1 none 0] Arbiter.reset)).map (fun d => ((d.linesOf 1), (d.waitingAt 0).length)) =
    some ([4], 2) := by decide +kernel

/-- A write of 64 bytes at an offset by package 1. -/
def writeMsg (o : Nat) : Msg := { mail o (List.replicate 64 7) with mtype := 0x12, len := 64 }
theorem test_witness_RequestsAndMessagesArrive : (on tagged).memOk ∧ tagged.tagOk (writeMsg 0) = true ∧ live.tagOk (writeMsg 0) = false ∧
    (∀ o ∈ [0, 0x34BFFFFFC0], 1 ≤ 64 ∧ o + 64 ≤ storeBase ∧ tagged.homeWait (hbm o) = none) ∧ tagged.conf.a2a = [] ∧
    (tagged.reserveHome 1 (msgHolder (writeMsg 0)) 0).reservedHome 1 (msgHolder (writeMsg 0)) 0 = true ∧
    tagged.reservedHome 1 (msgHolder (writeMsg 0)) 0 = false ∧
    (tagged.setDom (128 + sliceOf 0) { Domain.reset with state := .off }).homeWait (hbm 0) = some .lateBasin := by
  refine ⟨rfl, ?_⟩
  decide +kernel
theorem test_witness_taggedWrite : tagged.tagOk { writeMsg 0 with position := 1 } = true ∧ (0x34BFFFFFFF : Nat) < storeBase ∧
    (tagged.setDom (128 + sliceOf 0) { Domain.reset with state := .off }).tagOk (writeMsg 0) = true := by decide +kernel
theorem test_witness_requestReceives : tagged.Receives (writeMsg 0) := by unfold Chip.Receives; decide
theorem test_wr : (after (.wr (writeMsg 0x40)) tagged).map (fun d => (d.mem.length, Mem.read d.mem 0x7F, Mem.read d.mem 0x80)) = some (64, 7, 0) := by decide +kernel
/-- A Short Message to core 63's Pool, which notifies or not. -/
def shortMsg (b : Nat) : Msg := { mail (poolBase + 63 * poolSize + 0xFFFC0) (List.replicate 12 0 ++ [BitVec.ofNat 8 b, 48] ++ List.replicate 50 1) with mtype := 0x30, len := 64 }
theorem test_witness_shortMessages : poolBase ≤ bits (shortMsg 0).addr 49 0 ∧ bits (shortMsg 0).addr 49 0 + 64 ≤ poolBase + 64 * poolSize ∧
    tagged.tagOk (shortMsg 0) = true ∧ Msg.notify (shortMsg 0) = false ∧ Msg.notify (shortMsg 128) = true ∧ (shortMsg 0).src.toNat ≠ tagged.self ∧
    (bits (shortMsg 0).addr 49 0 - poolBase) / poolSize = 63 ∧
    ({ tagged with cores := [(63, { Core.reset with smWaiting := [shortMsg 128] })] } : Chip).hqRoom 63 (fieldB (shortMsg 128).data 0x0C 1 % 128) = true := by
  decide +kernel
theorem test_smsg_deliver : (after (.smsgDeliver 63) { tagged with cores := [(63, { Core.reset with smWaiting := [shortMsg 128] })] }).map (fun d =>
    ((d.core 63).smWaiting, (d.hq 63 0).length)) = some ([], 1) := by decide +kernel

/-- A tracker of core 0 towards package 1, and an answer to it. -/
def trkA (k : TrkKind) (h : Holder) : Trk := { id := 1, holder := h, kind := k, addr := 0, size := 8, pkg := 1, ctx := 0, stream := none }
/-- Core 0 waits with slot 0 on that tracker. -/
def answered (k : TrkKind) (h : Holder) (dst : LoadDst) : Chip :=
  withCore { Core.reset with slots := [(0, { slotA with pend := some { dst := dst, want := [(1, 0)], got := [] } })], trks := [trkA k h] }
theorem test_witness_AnswersReachTheirIssuers : (0 : Nat) = (mail 0 []).txn.toNat / 1024 ∧
    (answered .read (.slot 0) (.scalar 3 8 false)).trkOf (mail 0 []) = some (trkA .read (.slot 0)) ∧
    (answered .storeCond (.slot 0) (.storeCond 3)).trkOf (mail 0 []) = some (trkA .storeCond (.slot 0)) ∧
    (trkA .read (.slot 0)).holder ≠ .gone ∧ live.ctx (trkA .read (.slot 0)).ctx = some request ∧ (mail 0 []).position = 0 ∧
    ({ mail 0 [] with cause := 1, len := 0 } : Msg).len ≠ 8 ∧ (trkA .read (.slot 0)).pkg ≠ live.self ∧
    ((answered .read (.slot 0) (.scalar 3 8 false)).core 0).trks.find? (fun u => u.id = 1 && u.pkg ≠ live.self) = some (trkA .read (.slot 0)) := by
  decide +kernel
theorem test_rdData : (after (.rdData (mail 0 (leBytes 8 0x1122))) (answered .read (.slot 0) (.scalar 3 8 false))).map (fun d =>
    ((d.slot here).xr 3, (d.slot here).pc, (d.core 0).trks)) = some (0x1122, 0x34C0000004, []) := by decide +kernel
theorem test_remote_timeout : (after (.remoteTimeout 0 1) (answered .read (.slot 0) (.scalar 3 8 false))).map (fun d => (d.ctx 0).map (fun x => x.ended)) =
    some (some (some (0x15, 1))) := by decide +kernel

/-- A reduction under way at this root, and one that has ended. -/
def rootA (hist : Bool) : Root :=
  { hist := hist, name := 9, count := 3, joins := [{ part := 0, pkg := 0, count := 3, fields := [] }], absent := 0, chunks := [], pass := 0, leaves := 0,
    lists := [], ended := none }
/-- The package with a collective. -/
def gathers (r : List Root) : Chip := { tagged with conf := { Conf.reset with roots := r } }
/-- Core 63's engine holds a command that has joined collective 9 at package 1. -/
def joinedCore (e : Nat) (x : EngCmd) : Chip := { tagged with cores := [(63, { Core.reset with engines := [(e, { Engine.reset with queue := [x] })] })] }
/-- A command that has joined it. -/
def joiner : EngCmd := { command [6] with sub := [1, 1, 9] }
/-- An all-to-all command whose offset has not come. -/
def a2aX : EngCmd := { command ([2] ++ List.replicate 0x35 0 ++ [9]) with sub := [1, 1, 0, 0] }
theorem test_witness_CollectiveMessages : (gathers [rootA false]).conf.roots.find? (fun q => q.hist = false ∧ q.name = 9) = some (rootA false) ∧
    (gathers [rootA true]).conf.roots.find? (fun q => q.hist = true ∧ q.name = 9) = some (rootA true) ∧ (rootA false).ended = none ∧
    (rootA false).allSeen = false ∧ (rootA true).allSeen = false ∧ (rootA true).ended = none ∧ bits (mail 9 []).position 20 16 ≠ 31 ∧
    (chunkOf { mail 9 [] with mtype := 0x22 }).chunk / 1024 = 0 ∧ (chunkOf { mail 9 [] with mtype := 0x22, txn := 1024 }).chunk / 1024 ≠ 0 ∧
    ({ rootA true with pass := 1 } : Root).allSeen = false ∧ bits ({ mail 9 [] with position := 0x1F0000 } : Msg).position 20 16 = 31 ∧
    ({ rootA true with pass := 1 } : Root).lists.length + 1 < (rootA true).count ∧ tagged.conf.roots = [] ∧ tagged.conf.a2a = [] ∧
    2 ≤ (joinerOf (mail 9 (leBytes 2 1 ++ leBytes 2 1 ++ leBytes 4 2))).count ∧
    (joinerOf (mail 9 (leBytes 2 1 ++ leBytes 2 1 ++ leBytes 4 2))).part < (joinerOf (mail 9 (leBytes 2 1 ++ leBytes 2 1 ++ leBytes 4 2))).count ∧
    2 ≤ fieldB (leBytes 2 1 ++ leBytes 2 2) 2 2 ∧ (joinedCore 2 joiner).joined 63 2 1 9 = some joiner ∧ (joinedCore 3 joiner).joined 63 3 1 9 = some joiner ∧
    (∀ f, f < 64 → f ≠ 63 → (joinedCore 2 joiner).joined f 2 1 9 = none) ∧ (joinedCore 0 a2aX).a2aCmds 9 = [(63, a2aX)] ∧
    a2aX.field 0x32 2 = fieldB (leBytes 2 0) 0 2 ∧ tagged.tagOk (mail 9 []) = true ∧ live.tagOk (mail 9 []) = false := by decide +kernel

/-! The Text Unit and Video Intake. -/

/-- A text job on lane 0, and Request 0 with a job block of zeros but its operation. -/
def jobA : TextJob := { ctx := 0, stage := 0, lane := some 0, prog := 0, sent := false, got := [], asked := [] }
/-- The package with that job; the stage table lies at 0x80, so the job block lies at 0xC0. -/
def texts (op : Byte) (j : TextJob) : Chip :=
  { live with mem := [(0x34C0000010, 0x80), (0x34C00000C0, op), (0x34C00000C9, 0x10)], txu := { Txu.reset with jobs := [j], vocs := [(0, { Voc.reset with state := 2, image := List.replicate 64 0 })] } }
/-- Whether a job's work meets no fault and keeps to this package. -/
def textOk (c : Chip) (body : Voc → Ctx → List Byte → Nat → Rd TextOut) : Bool :=
  match (body (c.txu.voc (fieldB request.desc 0x09 1)) request (c.stageArgs 0 0) 0).value (c.unitReader jobA.got) with
  | .ok o => (o.outs ++ o.record).all (fun w => !w.isRemote)
  | .error _ => false
theorem test_witness_TextUnit : live.blackout = false ∧ live.locked = false ∧ tagged.locked = true ∧ (live.txu.voc 15).state ≠ 1 ∧
    ({ Voc.reset with state := 1 } : Voc).state = 1 ∧ live.vocFormat Voc.reset = false ∧
    (texts 1 { jobA with lane := none }).txu.jobs.find? (fun q => q.lane.isNone) = some { jobA with lane := none } ∧
    (texts 1 { jobA with lane := none }).laneFree 0 = true ∧ (texts 1 jobA).laneFree 0 = false ∧ (texts 1 jobA).laneFree 3 = true ∧
    (texts 1 jobA).txu.jobs.find? (fun q => q.lane = some 0) = some jobA ∧ (texts 1 jobA).ctx jobA.ctx = some request ∧
    fieldB ((texts 1 jobA).stageArgs 0 0) 0 1 = 1 ∧ fieldB ((texts 2 jobA).stageArgs 0 0) 0 1 = 2 ∧ jobA.sent = false ∧
    (texts 1 jobA).unitQuiet .text 0 = true ∧ textOk (texts 1 jobA) tokenise = true := by decide +kernel
theorem test_voc_range : (after (.vocLoad 0) { live with txu := { Txu.reset with vocs := [(0, { Voc.reset with base := 0x34C0000000 })] } }).map (fun d =>
    (d.txu.voc 0).state) = some 3 := by decide +kernel
theorem test_release_stop : (release366 false [] [[0x62#8]] [[0x61#8], [0x62#8, 0x63#8]]).stop = some 0 := by decide +kernel

/-- A vocabulary image of 256 empty tokens at 0x8000. -/
def vocab : Chip :=
  { live with mem := [(0x8000, 0x54), (0x8001, 0x58), (0x8002, 0x56), (0x8003, 0x31), (0x8009, 1), (0x8019, 0x10)]
              txu := { Txu.reset with vocs := [(0, { Voc.reset with base := 0x8000, state := 1 })] } }
theorem test_witness_vocFormat : vocab.vocFormat (vocab.txu.voc 0) = true := by decide +kernel
/-- A job that detokenises 0x460 bytes of zeros at 0x4000. -/
def detoks : Chip :=
  { texts 2 jobA with mem := [(0x3001, 0x40), (0x3008, 0x60), (0x3009, 4), (0x34C0000010, 0x80), (0x34C00000C0, 2), (0x34C00000C1, 1), (0x34C00000C8, 1),
                              (0x34C00000D1, 0x30)] }
theorem test_witness_detokenise : textOk detoks detokenise = true := by decide +kernel

/-- A video job, and a unit of two frames without error. -/
def jobV : VidJob :=
  { ctx := 0, stage := 0, parsed := false, input := [], frames := 0, units := 0, ended := 0, bad := 0, skipped := 0, written := [], sending := [], sent := false,
    got := [], asked := [] }
/-- A unit of a coded size. -/
def unitV (w : Nat) (hold : Option (Nat × Nat)) : DecUnit :=
  { ctx := 0, stage := 0, index := 0, first := 0, hold := hold, shaped := 0,
    info := { width := w, height := w, winX := 0, winY := 0, outW := 2, outH := 2, depth := 8, mono := true, matrix := 2, fullRange := false, pictures := [0, 1],
              error := none } }
/-- The package with a video job whose samples go to Pool 0. -/
def videos (j : VidJob) (u : List DecUnit) : Chip :=
  { live with mem := [(0x34C0000010, 0x80), (0x34C00000C0, 1), (0x34C00000CC, 2), (0x34C00000DD, 1), (0x34C00000FF, 1)]
              vid := { Vid.reset with contexts := 1, jobs := [j], units := u } }
/-- Whether a computation meets no fault and its result is as asked. -/
def gives {α : Type} (b : Except Stop α) (p : α → Bool) : Bool := match b with | .ok a => p a | .error _ => false

/-- The header parse is a free value of the model: whether it names a unit is open, so that one of the two clauses on it applies. -/
theorem test_witness_VideoIntake : (videos jobV []).vidJob 0 0 = some jobV ∧ (videos jobV []).ctx 0 = some request ∧
    fieldB ((videos jobV []).stageArgs 0 0) 0 1 = 1 ∧ fieldB ((videos jobV []).stageArgs 0 0) 1 1 ≤ 2 ∧
    gives ((vidInput request ((videos jobV []).stageArgs 0 0) 0).value ((videos jobV []).unitReader [])) (fun l => l.isEmpty) = true ∧
    gives ((wrBytes vdWrite (effAddr 0 0) (vidRecord { jobV with parsed := true } 1)).value ((videos jobV []).unitReader [])) (fun ws => ws.all (fun w => !w.isRemote)) = true ∧
    (videos jobV []).unitQuiet .video 0 = true := by decide +kernel
theorem test_witness_decodeUnitStart : (videos jobV [unitV 0 none]).vid.units.find? (fun q => q.hold.isNone && ((videos jobV []).live q.ctx).isSome) =
      some (unitV 0 none) ∧ (videos jobV []).engineFree 0 = true ∧ (videos jobV [unitV 0 (some (0, 0))]).engineFree 0 = false ∧
    (videos jobV [unitV 0 (some (0, 0))]).engineFree 31 = true ∧ 0 < (videos jobV []).vidContexts ∧ (videos jobV []).streamFree 0 = true ∧
    dpbNeed (unitV 0 none).info ≤ (videos jobV []).dpbSize ∧ (videos jobV []).dpbSize < dpbNeed (unitV 64 none).info ∧
    (unitV 0 none).shaped < (unitV 0 none).frameCount (vjCap ((videos jobV []).stageArgs 0 0)) * vjViews ((videos jobV []).stageArgs 0 0) := by decide +kernel
/-- The package with a unit that holds an engine. -/
def emerges : Chip := videos { jobV with parsed := true, units := 1 } [unitV 0 (some (0, 0))]
theorem test_witness_sampleEmerge : gives ((sampleWrites request jobV (emerges.stageArgs 0 0) (BitVec.ofNat 64 (emerges.img 0 0x08 8)) (unitV 0 (some (0, 0))) 0).value
      (emerges.unitReader [])) (fun ws => ws.all (fun w => !w.isRemote) && emerges.unitLanded .video 0 ws &&
        decide ((emerges.unitWrites .video 0 ws).stageArgs 0 0 = emerges.stageArgs 0 0)) = true ∧
    (unitV 0 (some (0, 0))).shaped + 1 < (unitV 0 (some (0, 0))).frameCount (vjCap (emerges.stageArgs 0 0)) * vjViews (emerges.stageArgs 0 0) ∧
    vjFlag (emerges.stageArgs 0 0) 2 = false := by decide +kernel

/-! Links. -/

/-- The package with its link 2 as given. -/
def withLink (k : Link) : Chip := { live with links := [(2, k)] }
/-- A link in a state. -/
def lk (st : LinkState) : Link := { Link.reset with state := st }
/-- The frames that lanes 0 to 7 hear before lane 7's next, all good. -/
def heard : Link :=
  { Link.reset with
    laneLast := (List.range 8).map (fun i => (i, { marker := some true, lane := BitVec.ofNat 3 i, link := 6, fkind := 1, eqReq := 0, skewOk := true }))
    laneRun := (List.range 8).map (fun i => (i, 70)), laneGood := (List.range 8).map (fun i => (i, 64)), laneDone := (List.range 8).map (fun i => (i, 16))
    laneSent := (List.range 8).map (fun i => (i, 64)), eqSent := (List.range 8).map (fun i => (i, 16)) }
/-- The frame that comes on lane 7. -/
def frame7 : LaneFrame := { marker := some true, lane := 7, link := 6, fkind := 1, eqReq := 0, skewOk := true }
/-- A valid TS1 and TS2 of package 0x100, link 6. -/
def tsOf (kind : Byte) : List Byte :=
  let b := [kind, 1] ++ leBytes 2 0x100 ++ [6, 1] ++ leBytes 2 0 ++ (List.range 12).flatMap (fun _ => leBytes 2 16) ++ leBytes 92 0
  b ++ leBytes 4 (crc32 b)
/-- A link in CONFIG that has heard a TS2 some times. -/
def configured (n : Nat) (t : List Byte) (before : LinkState) : Link := { lk .config with before := before, lastTs := t, tsSame := n, ts2Sent := some 16 }
/-- The state of link 2 after a command. -/
def linkAfter (i : Instr) (c : Chip) : Option LinkState := (after i c).map (fun d => (d.link 2).state)

theorem test_witness_LinkTraining : (23 : Nat) < 24 ∧ (tsOf 2).length = 128 ∧ (lk .detect).state = .detect ∧ (lk .detect).held = [] ∧
    (((lk .poll).noteFrame 7 frame7).laneOrder.isSome && allLanes ((lk .poll).noteFrame 7 frame7).laneGood 64 &&
        allLanes ((lk .poll).noteFrame 7 frame7).laneSent 64 && ((lk .poll).noteFrame 7 frame7).skewOk) = false ∧
    ((heard.noteFrame 7 frame7).laneOrder.isSome && allLanes (heard.noteFrame 7 frame7).laneGood 64 && allLanes (heard.noteFrame 7 frame7).laneSent 64 && (heard.noteFrame 7 frame7).skewOk) = true ∧
    (let k := heard.moveTaps 7 { frame7 with fkind := 2 }; allLanes k.laneDone 16 && allLanes k.eqSent 16) = true ∧
    (let k := (lk .eq).moveTaps 7 frame7; allLanes k.laneDone 16 && allLanes k.eqSent 16) = false := by
  decide +kernel
theorem test_witness_tsValid : tsValid (tsOf 2) = true ∧ tsValid (leBytes 128 0) = false ∧ fieldB (tsOf 2) 0 1 = 2 := by decide +kernel
theorem test_witness_config : (configured 6 (tsOf 2) .eq).agreed = [] ∧ (configured 7 (tsOf 2) .eq).tsSame = 7 ∧ 16 ≤ (configured 7 (tsOf 2) .eq).ts2Sent.getD 0 ∧
    (configured 7 (tsOf 2) .eq).held = [] ∧ (configured 7 (tsOf 2) .active).replay = [] ∧ (configured 7 (tsOf 2) .active).testPass = false ∧
    ({ configured 7 (tsOf 2) .active with testPass := true } : Link).testPass = true ∧ (configured 7 (tsOf 2) .eq).retraining = false ∧
    (configured 7 (tsOf 2) .isolated).retraining = true ∧
    BitVec.ofNat 12 (fieldB (tsOf 2) 2 2) = ({ (configured 7 (tsOf 2) .active) with peerPkg := 0x100, peerLink := 6 }).peerPkg ∧
    BitVec.ofNat 5 (fieldB (tsOf 2) 4 1) = ({ (configured 7 (tsOf 2) .active) with peerPkg := 0x100, peerLink := 6 }).peerLink := by decide +kernel
theorem test_witness_linkStates : (lk .retrain).retraining = true ∧ ({ lk .poll with fails := 6 } : Link).fails < 7 ∧ 7 ≤ ({ lk .poll with fails := 7 } : Link).fails ∧
    (lk .active).up = true ∧ { live with pwr := { Pwr.reset with doms := [(174, { Domain.reset with state := .run })] } }.phyOn 2 = true ∧
    ({ lk .isolated with testLeft := some 0 } : Link).testLeft = some 0 := by decide +kernel
theorem test_train_poll : linkAfter (.laneFrame 2 7 frame7) (withLink { heard with state := .poll }) = some .eq := by decide +kernel
theorem test_train_isolated : linkAfter (.trainingSet 2 (tsOf 2)) (withLink (configured 7 (tsOf 2) .eq)) = some .isolated := by decide +kernel
/-- A peer that has heard seven TS2 and sent none: the eighth ends nothing until 16 have gone out. -/
theorem test_ts2_sent : linkAfter (.trainingSet 2 (tsOf 2)) (withLink { configured 7 (tsOf 2) .eq with ts2Sent := some 15 }) = some .config ∧
    linkAfter (.codewordSend ⟨2, 0, 0⟩) (withLink { configured 8 (tsOf 2) .eq with agreed := tsOf 2, ts2Sent := some 11 }) = some .isolated := by
  decide +kernel
/-- The marker, the lane number and the link number of a frame of lane 5 of link 2 in EQ, its kind EQ_DONE, and a request of taps (Table 3). -/
theorem test_frame_bits : ((lk .eq).frameBits 2 5 true 9).toNat % 2 ^ 56 = 0xA5C3F00F3C + 5 * 2 ^ 40 + 2 * 2 ^ 43 + 2 * 2 ^ 48 + 9 * 2 ^ 50 := by
  decide +kernel
theorem test_train_fails : linkAfter (.pollTimeout 2) (withLink { lk .poll with fails := 7 }) = some .failed := by decide +kernel

/-- A codeword of five slots. -/
def cwOf (ok : Option Nat) (slot : List Byte) : Codeword := { corrected := ok, kind := 0, cwNum := 0, slots := List.replicate 5 slot }
/-- A link with a flit that waits for its ACK. -/
def unacked : Link := { lk .active with txSeq := 1, acked := 4095, replay := [(0, leBytes 128 0)] }
/-- A message at its waypoint. -/
def viaMsg : Msg :=
  { mtype := 1, src := 0, dest := 0, addr := 0, lockTag := 0, txn := 0, len := 0, cause := 0, position := 0, final := 0, ctx := 0, data := [] }
theorem test_witness_LinkTraffic : (23 : Nat) < 24 ∧ (cwOf none (leBytes 128 0)).slots.length = 5 ∧
    (cwOf none (leBytes 128 0)).slots.all (fun x => x.length = 128) = true ∧ unacked.up = true ∧ unacked.replay ≠ [] ∧ unacked.resends < 4 ∧
    4 ≤ ({ unacked with resends := 4 } : Link).resends ∧ (lk .active).replay = [] ∧ ({ unacked with badCws := 6 } : Link).badCws < 7 ∧
    7 ≤ ({ unacked with badCws := 7 } : Link).badCws ∧ (lk .config).up = false ∧ (cwOf (some 15) (leBytes 128 0)).corrected.all (fun e => e ≤ 15) = true ∧
    viaMsg ∈ { live.net with via := [viaMsg] }.via ∧ viaMsg ∉ live.net.via := by decide +kernel
theorem test_witness_codewordSend : (lk .config).agreed = [] ∧ (configured 8 (tsOf 2) .eq).ts2Sent = some 16 ∧
    (∀ j, ({ configured 7 (tsOf 2) .eq with agreed := tsOf 2, ts2Sent := some 10 } : Link).ts2Sent = some j → j + 5 < 16) ∧
    (lk .disabled).up = false ∧ (lk .poll).up = false := by
  refine ⟨rfl, rfl, ?_, by decide, by decide⟩
  intro j h
  cases h
  decide
theorem test_witness_badFlits :
    (scramble (lk .active).scrRx (cwOf (some 15) (leBytes 128 0)).slots).1.all (fun f => flitCrc f ≠ fieldB f 12 4) = true := by decide +kernel
theorem test_retrain : linkAfter (.lossOfLock 2) (withLink unacked) = some .retrain ∧ linkAfter (.replayTimeout 2) (withLink { unacked with resends := 4 }) = some .retrain := by
  decide +kernel

/-- Two ports with a flit each for one channel, the first of them granted last. -/
def twoPorts : Link := { lk .active with adv := [(0, 256)], txq := [(0, [leBytes 128 0]), (6, [leBytes 128 0])], lastPort := [(0, 0)] }
theorem test_port_turns : twoPorts.grant.1 = some (0, 1) ∧ ({ twoPorts with adv := [] } : Link).grant.1 = none ∧
    (twoPorts.sendNew 0 1 0).2.grant.1 = some (0, 0) := by decide +kernel

/-! Epochs. -/

/-- The package, number 0 or 0x100 of a ring of two, with its network as given. -/
def withNet (n : Net) : Chip := { live with net := n }
/-- The network of a ring of two, with package 0 live. -/
def twoPkgs : Net := { Net.reset with geom := 0x100, live := [0] }
/-- A plan for epoch 1. -/
def plan1 (grow : Bool) : EpochPlan := { epoch := 1, grow := grow, coord := 0, lost := [], removed := [], joined := [], added := [] }
/-- The network in a phase, with the plan. -/
def planned (ph : NetPhase) (p : EpochPlan) : Chip := withNet { twoPkgs with phase := ph, plan := some p }
theorem test_witness_EpochChange : (23 : Nat) < 24 ∧ ((withLink (lk .active)).link 2).up = true ∧ ((withLink (lk .active)).link 3).up = false ∧
    Report.request 5 ∉ (withLink (lk .active)).net.seen ∧ (plan1 true).epoch = twoPkgs.epoch + 1 ∧ (withNet twoPkgs).self ∈ twoPkgs.live ∧
    (withNet { twoPkgs with live := [] }).self ∉ ({ twoPkgs with live := [] } : Net).live ∧
    (withNet { twoPkgs with phase := .collect }).coordinates = true ∧ (withNet twoPkgs).coordinates = true ∧ twoPkgs.plan = none := by decide +kernel
theorem test_witness_plan : (planned .freeze (plan1 true)).net.plan = some (plan1 true) ∧ (planned .freeze (plan1 true)).quiet = true ∧
    (withNet { twoPkgs with plan := some (plan1 true), via := [viaMsg] }).quiet = false ∧ (plan1 true).coord.toNat = (planned .freeze (plan1 true)).self ∧
    ((0 : BitVec 12).toNat ∉ (planned .freeze (plan1 true)).net.drained) ∧ (0 : BitVec 12).toNat ∈ (planned .freeze (plan1 true)).net.live ∧
    (0 : BitVec 12).toNat ∉ (plan1 true).lost ∧ ({ plan1 true with coord := 1 } : EpochPlan).coord.toNat ≠ (planned .freeze (plan1 true)).self ∧
    lowest ((withNet { twoPkgs with geom := 0x1000100, live := [0, 0x100] }).candidates.filter (fun q => (plan1 true).coord.toNat < q)) =
      some (withNet { twoPkgs with geom := 0x1000100, live := [0, 0x100] }).self := by decide +kernel
/-- An operation of Request 0 that package 0x100 has not answered. -/
def unanswered : Trk := { id := 1, holder := .slot 0, kind := .read, addr := 0, size := 8, pkg := 0x100, ctx := 0, stream := none }
/-- The package at a SHRINK that takes away package 0x100. -/
def shrinks : Chip :=
  { planned .drained { plan1 false with lost := [0x100] } with cores := [(0, { Core.reset with slots := [(0, slotA)], trks := [unanswered] })] }
theorem test_witness_shrink : unanswered ∈ (shrinks.core 0).trks ∧ unanswered.pkg ≠ shrinks.self ∧ unanswered.holder ≠ .gone ∧
    shrinks.ctx 0 = some request ∧ request.ended = none ∧ request.delivering = false := by decide +kernel
theorem test_commit_shrink : (after (.epochCommit 1 0) shrinks).map (fun d => (d.net.epoch, (d.ctx 0).map (fun x => x.ended))) =
    some (1, some (some (0x15, detailRemote 0x100 false))) := by decide +kernel
theorem test_commit_join : (after (.epochCommit 1 77) (withNet { twoPkgs with live := [], plan := some { plan1 true with joined := [0] } })).map
    (fun d => (d.tide, d.rst.phase, d.net.live)) = some (77, .joined, [0]) := by decide +kernel

/-! Power. -/

/-- The package with a domain in a state. -/
def withDom (d : Nat) (x : Domain) : Chip := { live with pwr := { Pwr.reset with doms := [(d, x)] } }
/-- A domain in a state. -/
def dm (st : DomState) : Domain := { Domain.reset with state := st }
/-- The state of a domain after a command. -/
def domAfter (i : Instr) (c : Chip) (d : Nat) : Option DomState := (after i c).map (fun e => (e.dom d).state)
theorem test_witness_PowerAndFrequencies : Mem.wf live.mem = true ∧ (235 : Nat) < 236 ∧ live.hubOn = true ∧ isPoolDom 127 = true ∧ isPoolDom 126 = false ∧
    isMemDom 128 = true ∧ isMemDom 171 = true ∧ isLinkDom 172 = true ∧ isPortDom 199 = true ∧ live.req.quiesced = false ∧
    (withDom 126 { dm .turningOff with begun := false }).drained 126 = true ∧ (withSlot slotA).drained 0 = false ∧
    (isCoreDom 235 = false ∧ isPoolDom 235 = false ∧ isMemDom 235 = false ∧ isLinkDom 235 = false ∧ isPortDom 235 = false) := by decide +kernel
theorem test_witness_idle : live.autoOn = true ∧ live.req.placeQ = [] ∧ bits live.pwr.policy 47 32 ≠ 0 ∧ (live.core 0).idle = true ∧
    (withDom 0 { dm .run with auto := true }).autoOn = true ∧ ((withDom 0 { dm .run with auto := true }).core 0).idle = true ∧
    Nat.min 64 (bits (withDom 0 { dm .run with auto := true }).pwr.policy 14 8) < (withDom 0 { dm .run with auto := true }).running ∧
    bits ({ Pwr.reset with policy := 0x0001000A00000801 } : Pwr).policy 63 48 ≠ 0 ∧ ¬(0 ∈ live.pwr.poolAlone) := by decide +kernel
theorem test_witness_limits : (List.replicate 48 (1599 : Int)).length = 48 ∧ live.rst.por = true ∧ live.rst.held = false ∧ live.throttleAt = 1600 ∧
    live.regainBelow = 1520 ∧ bits live.pwr.cap 15 0 = 780 ∧ (781 : BitVec 16).toNat * 19 > 0 := by decide +kernel
theorem test_thermal : (after (.thermalSample (List.replicate 20 1601 ++ List.replicate 28 0)) live).map (fun d => (d.thermMhz 31, d.thermMhz 32)) =
    some (2100, 2200) := by decide +kernel
/-- Three lanes that have failed, one in Run, and a text job that waits for a lane. -/
def lastLane : Chip := { live with
  pwr := { Pwr.reset with doms := [(232, dm .failed), (233, dm .failed), (234, dm .failed), (235, dm .run)] },
  txu := { live.txu with jobs := [{ ctx := 0, stage := 0, lane := none, prog := 0, sent := false, got := [], asked := [] }] } }
theorem test_last_lane : lastLane.autoOn = true ∧ lastLane.hubOn = true ∧ lastLane.vid.units.any (fun u => u.hold.isNone) = false ∧
    (after (.pwrReqOff 235) lastLane).map (fun e => ((e.dom 235).state, (e.dom 235).latch)) = some (.turningOff, .on) := by decide +kernel
theorem test_power_off : domAfter (.powerTransitionDone 0) (withDom 0 { dm .turningOff with begun := true }) 1 = some .off := by decide +kernel
theorem test_selftest_fails : domAfter (.selftestDone 0 false) (withDom 0 (dm .selfTest)) 0 = some .failed := by decide +kernel

/-! Management. -/

/-- An entry of the log. -/
def logEntry (n : Word) : LogEntry := { seq := n, tide := 0, code := 1, severity := 0, source := 0x44, payload := [] }
/-- The package with its MC as given. -/
def withMc (m : Mc) : Chip := { live with mc := m }
/-- An MC that runs with two entries, of which one is copied. -/
def logs : Mc := { Mc.reset with running := true, ram := [logEntry 0, logEntry 1], copied := 1, flash := [logEntry 0], seqNext := 2 }
theorem test_witness_EventLogAndInterfaces : logs.running = true ∧ logs.ram[logs.copied]? = some (logEntry 1) ∧ logs.gapCount = 0 ∧
    logs.flash.length < flashEntries ∧ ({ logs with copied := 2 } : Mc).ram.length ≤ ({ logs with copied := 2 } : Mc).copied ∧ live.aon = true ∧
    (logs.ram ++ logs.flash).find? (fun x => x.seq = ({ logs with rdSeq := 1 } : Mc).rdSeq) = some (logEntry 1) ∧
    (∀ x ∈ logs.ram ++ logs.flash, x.seq ≠ ({ logs with rdSeq := 2 } : Mc).rdSeq) := by decide +kernel
theorem test_witness_logFull : flashEntries ≤ (List.replicate 524288 (logEntry 0)).length := by rw [List.length_replicate]; decide
/-- An MC with a session. -/
def session : Mc := { logs with sessions := 1, cfg := { ConfigStore.reset with sessionKeys := [(3, [4])] } }
theorem test_witness_interfaces : Mem.wf (withMc session).mem = true ∧ SMap.get [] session.cfg.sessionKeys (3 : BitVec 2).toNat ≠ [] ∧ 0 < session.sessions ∧
    fieldB (leBytes 4 512) 0 4 = 512 ∧ regRange (2 ^ 24 - 4096) 512 = true ∧ regRange (2 ^ 24 - 4088) 512 = false ∧
    (withMc session).hbmWaits 0 = false ∧ (withMc session).hbmTakes 0 1 = true ∧ (withMc session).hbmTakes 0x35C0000000 1 = false ∧
    (withMc session).hbmWaits 0x35C0000000 = false ∧ (withMc session).summary.length = 64 := by decide +kernel
theorem test_frame_write : (after (.mgmtRegWrite 0x20 (leBytes 8 0x1234)) (withMc session)).map (fun d => (d.scratch.length, d.out)) =
    some (1, [.frame 0x82 0 0x20 []]) := by decide +kernel

/-- An MC whose alarms are about to be entered and left. -/
def alarming (a : Alarm) : Mc :=
  { logs with thrV := [(23, 0xFFFFFFFF00000001), (7, 0xFFFFFFFF00000001)], thrI := [(15, 0x0000000200000001)], alarms := [(47, a), (87, a), (111, a)] }
theorem test_witness_SensorsAndAlarms : (alarming Alarm.reset).running = true ∧ (List.replicate 48 (32767 : Int)).length = 48 ∧
    (List.replicate 48 (32767 : Int)).all (fun t => -32768 ≤ t ∧ t < 32768) = true ∧ (List.replicate 24 65535).length = 24 ∧
    (List.replicate 24 65535).all (fun v => v < 2 ^ 16) = true ∧ (List.replicate 16 (2 ^ 32 - 1)).length = 16 ∧
    (List.replicate 16 (2 ^ 32 - 1)).all (fun a => a < 2 ^ 32) = true ∧
    (List.replicate 8 (65535, 2 ^ 32 - 1)).length = 8 ∧ (List.replicate 8 (65535, 2 ^ 32 - 1)).all (fun p => p.1 < 2 ^ 16 ∧ p.2 < 2 ^ 32) = true ∧
    (7 : Nat) < 8 ∧ (47 : Nat) < 48 ∧ (23 : Nat) < 24 ∧ (15 : Nat) < 16 ∧ signed 16 (bits thrTReset 31 16) = 1680 ∧ signed 16 (bits thrTReset 15 0) = 1520 ∧
    bits (SMap.get 0 (alarming Alarm.reset).thrV 23) 15 0 = 1 ∧ monitorRail 23 = some 2 ∧ monitorRail 7 = some 7 ∧
    bits (SMap.get 0 (alarming Alarm.reset).thrI 15) 63 32 = 2 := by decide +kernel
theorem test_crit_third : (after (.sensorSampleTemp (List.replicate 47 0 ++ [1681])) (withMc (alarming { Alarm.reset with crit := 2 }))).map
    (fun d => (d.pwr.crit, (SMap.get Alarm.reset d.mc.alarms 47).critOn)) = some ([47], true) := by decide +kernel
theorem test_warn_back : (after (.sensorSampleTemp (List.replicate 48 1520)) (withMc (alarming { Alarm.reset with warnOn := true, inside := 2 }))).map
    (fun d => (SMap.get Alarm.reset d.mc.alarms 47).warnOn) = some false := by decide +kernel

/-! Firmware, configuration and start-up. -/

/-- A firmware slot that boots. -/
def goodSlot (n : Nat) : FwSlot := { valid := true, version := 1, rollback := n, image := [] }
/-- An MC that runs from slot A, with a good slot B. -/
def fw : Mc := { Mc.reset with running := true, slotA := goodSlot 1, slotB := goodSlot 2 }
/-- The package with its MC as given, drained. -/
def drainedMc (m : Mc) : Chip := { live with mc := m, req := { live.req with quiesced := true } }
theorem test_witness_FirmwareAndConfiguration : fw.running = true ∧ fw.fwOp = none ∧ fw.trial = false ∧ ({ fw with fwOp := some .commit } : Mc).fwOp.isSome = true ∧
    ({ fw with trial := true } : Mc).trial = true ∧ fw.judgeImage [] = 4 ∧ (drainedMc fw).req.quiesced = true ∧ (withMc fw).req.quiesced = false ∧
    fw.bootable fw.other = true ∧ ({ fw with fuses := 3 } : Mc).bootable ({ fw with fuses := 3 } : Mc).other = false ∧
    ({ fw with fwOp := some .install, fwResult := 4 } : Mc).fwResult ≠ 2 ∧ fw.fwOp ≠ some .install := by decide +kernel
theorem test_witness_mcStart : (withMc { fw with running := false }).aon = true ∧ (withMc { fw with running := false }).rst.phase ≠ .mcBoot ∧
    ({ fw with running := false } : Mc).bootFirst.1.bootSlot ({ fw with running := false } : Mc).bootFirst.2 = some false ∧
    ({ fw with trial := true, trialB := true } : Mc).bootFirst.1.bootSlot ({ fw with trial := true, trialB := true } : Mc).bootFirst.2 = some true ∧
    Mc.reset.bootFirst.1.bootSlot Mc.reset.bootFirst.2 = none ∧ Mc.reset.recovery = false := by decide +kernel
/-- A firmware image without a payload, and its key. -/
def fwImage : List Byte := fwHead ++ fwKey ++ fwSig
where
  fwHead : List Byte := leBytes 4 0x31574653 ++ leBytes 4 0 ++ leBytes 8 64
  fwKey : List Byte :=
    4 :: beBytes 48 0x9a3ce50beba749316ec3e44dba7e1b32e4a52ae0842e20ebdbb76b61fcdb46fc007794f49e0c537ae28ff74eb0c078ed ++
      beBytes 48 0xd9a02b5829a1abdec9c895129177b5e796f437effd1c069a4d405c3b2dbea6b68554168563212bb3ccfecac4217b0224
  fwSig : List Byte :=
    beBytes 48 0xe83e0a9866783cde61356910ae4cf2b43f2c916428f5dffa379da262f880a37313467105371066714be9e6d2c30fe79f ++
      beBytes 48 0xe83e0a9866783cde61356910ae4cf2b43f2c916428f5dffa379da262f880a37313467105371066714be9e6d2c30fe79f
/-- The fused digest is a constant of the package that the model leaves open: under the one of this key the image is valid. -/
theorem test_witness_fwImage (h : sha384 (sliceB fwImage 16 97) = Config.fwKeyDigest) : Mc.reset.judgeImage fwImage = 2 := by
  unfold Mc.judgeImage
  have e : fieldB fwImage 0x0C 4 = 0 := by decide +kernel
  simp only [e]
  rw [if_neg (by decide +kernel), if_neg (by rw [not_or]; exact ⟨fun g => g h, by decide +kernel⟩), if_neg (by decide +kernel)]
/-- A Configuration Record that enrols Recipe key 3 in Bring-up Mode. -/
def recKey : List Byte := leBytes 4 0x31474643 ++ [2, 3, 0x80, 0] ++ leBytes 8 0 ++ leBytes 8 1 ++ leBytes 8 97
/-- A Configuration Record of PORT_ACCESS with SIGNER 7, and its signature, made as the one above. -/
def recAccess : List Byte :=
  leBytes 4 0x31474643 ++ [4, 0, 7, 0] ++ leBytes 8 0 ++ leBytes 8 1 ++ leBytes 8 4 ++ [7, 0, 0, 3] ++ digestR ++ digestR
where digestR : List Byte := beBytes 48 0xb98654c78e727f9c936d9553448f7f031c26714d9004604d4d76ab7c81009f8b2f4393c174e0116b47462647ed139af0
/-- The key of that signature. -/
def keyR : List Byte :=
  4 :: beBytes 48 0xd0425bae520330f95e98433420183b20ced5fdd02cf569fb7abbf3119a5c83227d945ffe08ffa8b6c5f87c8d3de803ca ++
    beBytes 48 0xdbbbb782cf5df2d866aff33df23aebede1827361744d73b44e1d313e1a19243b5ab000ada5688516c1cd10353bcfdf27
/-- The package with a record at 0x4000. -/
def records (r : List Byte) : Chip :=
  { live with
    mem := Mem.writeAll [] (cellsAt 0x4000 r), rst := { live.rst with bringupMode := true }
    mc := { fw with cfgAddr := 0x4000, cfgStatus := 1, cfg := { ConfigStore.reset with sessionKeys := [(3, keyR)] } } }
theorem test_witness_recordKey : (records recKey).recordFault ((records recKey).bytes 0x4000 4096) = none := by decide +kernel
theorem test_witness_recordAccess : (records recAccess).recordFault ((records recAccess).bytes 0x4000 4096) = none := by decide +kernel
theorem test_witness_recordRefused : (records []).recordFault ((records []).bytes 0x4000 4096) = some 4 := by decide +kernel
/-- A Configuration Record of JTAG_UNLOCK for the package of serial number 1 and nonce 1, and its signature and key. -/
def recJtag : List Byte :=
  leBytes 4 0x31474643 ++ [9, 0, 7, 0] ++ leBytes 8 1 ++ leBytes 8 1 ++ leBytes 8 8 ++ leBytes 8 1 ++ digestJ ++ digestJ
where digestJ : List Byte := beBytes 48 0x1397ce9b1ef39ec0d1b674d7cbc3de845cd9a2ec55a4981cc31fac50db4669bf106edbdbf645ef4b95e3a014b89aabb0
/-- The package that a JTAG_UNLOCK is for, where its serial number, which the model leaves open, is 1. -/
def unlocks : Chip :=
  { live with
    mem := Mem.writeAll [] (cellsAt 0x4000 recJtag)
    mc := { fw with cfgAddr := 0x4000, cfgStatus := 1, nonce := 1, cfg := { ConfigStore.reset with sessionKeys := [(3, 4 :: beBytes 48 0xbaa0a9fa6b15ade0410f623c375a09b4c8ec20d71a832d76770b71423b8742fb2705130cdbc731a126b857e089d9a063 ++ beBytes 48 0x09868691e46f5f934c2caa8948fb4816c3856f93de33fffb23770145bb4752dd40b8ccb6167a2c499e806a9465e94ac5)] } } }
theorem test_witness_recordJtag (h : Config.idSerial = 1) : unlocks.recordFault (unlocks.bytes 0x4000 4096) = none := by
  unfold Chip.recordFault
  simp only [h]
  rw [if_neg (by decide +kernel), if_neg (by decide +kernel), if_neg (by decide +kernel), if_neg (by decide +kernel), if_neg (by decide +kernel)]
theorem test_trial_runs : (after .mcStart (withMc { fw with running := false, trial := true, trialB := true })).map (fun d => (d.mc.runB, d.mc.attempted)) =
    some (true, true) := by decide +kernel
theorem test_commit_fw : (after .fwCommitDone (withMc { fw with fwOp := some .commit, runB := true })).map (fun d => (d.mc.committedB, d.mc.fuses)) =
    some (true, 2) := by decide +kernel

/-- The package while its rails come up. -/
def railsUp (n : Nat) : Chip :=
  { Chip.reset with rst := { Rst.reset with por := true, phase := .rails, railsOn := (List.range n).map (fun i => i + 2) }, mc := { fw with recovery := false } }
/-- The package in TRAINING with the self-tests of n cores over. -/
def trains (n : Nat) : Chip := { live with rst := { live.rst with phase := .training, hbmTrained := false, hbmReady := false, coresTested := List.range n } }
theorem test_witness_PowerAndRestart : Mem.wf (railsUp 5).mem = true ∧ (47 : Nat) < 48 ∧ (7 : Nat) < 8 ∧ Chip.reset.rst.por = false ∧ (railsUp 5).rst.por = true ∧
    ((railsUp 5).rst.phase = .rails ∧ (railsUp 5).rst.railsOff = false ∧ (railsUp 5).rst.held = false ∧ 7 = (railsUp 5).rst.railsOn.length + 2 ∧
      7 ≤ (railsUp 5).lastRail) ∧ 2 = (railsUp 0).rst.railsOn.length + 2 ∧ 2 < (railsUp 0).lastRail ∧
    (∀ k, k < 64 → k ∈ (trains 64).rst.coresTested) ∧ (63 : Nat) ∉ (trains 63).rst.coresTested ∧
    { live with rst := { live.rst with hbmReady := false } }.hubOn = true ∧ live.rst.hbmTrained = true ∧
    { live with rst := { live.rst with phase := .bringup, hbmReady := false, qualified := 1 } }.rst.qualified ≠ 0 ∧
    live.warmTaken = true ∧ (railsUp 5).warmTaken = false ∧ live.rst.held = false ∧ live.rst.tripped = false := by decide +kernel
theorem test_rails_done : (after (.railPowerGood 7) (railsUp 5)).map (fun d => (d.rst.phase, d.rst.ready, (d.dom 0).state, (d.link 23).state)) =
    some (.training, true, .selfTest, .detect) := by decide +kernel
theorem test_warm_keeps_hbm : (after .warmRestart { live with mem := [(5, 1), (0x40000000000, 1)] }).map (fun d => (d.mem, d.rst.restarts)) =
    some ([(5, 1)], 1) := by decide +kernel
theorem test_trip : (after (.thermtrip 47) live).map (fun d => (d.rst.tripped, d.hubOn)) = some (true, false) := by decide +kernel

theorem test_witness_NetworkAfterReset : { Chip.reset with net := { Net.reset with geom := 0x0 } }.inGeom { Chip.reset with net := { Net.reset with geom := 0x0 } }.self = true ∧
    { Chip.reset with net := { Net.reset with geom := 0x1FF0FFF } }.inGeom { Chip.reset with net := { Net.reset with geom := 0x1FF0FFF } }.self = true := by decide +kernel

/-- The reset state meets the invariants, and a step from it answers a next state. -/
theorem test_witness_EveryStepKeepsTheAreas : State.reset.areasOk ∧ ∃ t, step { State.reset with pending := [.porRise true] } = .next t :=
  ⟨Rcp.reset_areasOk, ⟨_, rfl⟩⟩
theorem test_witness_EveryStepKeepsMemoryCanonical : State.reset.memOk ∧ ∃ t, step { State.reset with pending := [.porRise true] } = .next t :=
  ⟨rfl, ⟨_, rfl⟩⟩

end Sys2Proof.Tests
end

section
/-! Registers over the BARs and by register messages (R9, R13, R398 to R403, R472, R572, R573). -/

namespace Sys2Proof.Machine

/-! A command that runs. -/

/-- A command whose effect on the package is as described completes. -/
theorem Completes.of_run {s : State} {i : Instr} {post : Chip → Prop} {f : Chip → Chip} (h : exec i s = s.run f) (hp : post (f s.chip)) :
    Completes s i post :=
  ⟨{ s with chip := f s.chip }, h, rfl, hp⟩

theorem Completes.of_pathWrite {s : State} {p : Path} {off : BitVec 24} {size : Nat} {v : Word} {post : Chip → Prop}
    (h : post (s.chip.pathWrite p off.toNat size v)) : Completes s (.registerWrite p off size (.write v)) post :=
  .of_run (f := fun c => c.pathWrite p off.toNat size v) rfl h

theorem Completes.of_pathRead {s : State} {p : Path} {off : BitVec 24} {size : Nat} {post : Chip → Prop}
    (h : post (s.chip.pathRead p off.toNat size)) : Completes s (.registerWrite p off size .read) post :=
  .of_run (f := fun c => c.pathRead p off.toNat size) rfl h

/-! Little-endian fields. -/

@[simp] theorem length_leBytes (n v : Nat) : (leBytes n v).length = n := by
  induction n generalizing v with
  | zero => rfl
  | succ n ih => simp [leBytes, ih]

theorem leNat_leBytes (n v : Nat) : leNat (leBytes n v) = v % 256 ^ n := by
  induction n generalizing v with
  | zero => simp [leBytes, leNat, Nat.mod_one]
  | succ n ih => simp [leBytes, leNat, ih, Nat.pow_succ', Nat.mod_mul]

theorem fieldB_leBytes (n v : Nat) : fieldB (leBytes n v) 0 n = v % 256 ^ n := by
  have h : sliceB (leBytes n v) 0 n = leBytes n v := by
    simp [sliceB, List.take_of_length_le]
  rw [fieldB, h, leNat_leBytes]

/-- A word comes back from its eight bytes. -/
theorem w64_fieldB_leBytes (v : Word) : w64 (fieldB (leBytes 8 v.toNat) 0 8) = v := by
  have h : v.toNat % 256 ^ 8 = v.toNat := Nat.mod_eq_of_lt (by have := v.isLt; omega)
  rw [fieldB_leBytes, h, w64, BitVec.ofNat_toNat, BitVec.setWidth_eq]

/-! Bits of registers. -/

/-- Fields of one width agree when their bits do. -/
theorem bits_eq_of_bit {u w : Word} {hi lo hi' lo' : Nat} (hn : hi + 1 - lo = hi' + 1 - lo')
    (h : ∀ i, i < hi + 1 - lo → bit u (lo + i) = bit w (lo' + i)) : bits u hi lo = bits w hi' lo' := by
  apply Nat.eq_of_testBit_eq
  intro i
  by_cases hi : i < hi + 1 - lo
  · have hb : u.toNat.testBit (lo + i) = w.toNat.testBit (lo' + i) := by simpa [bit, BitVec.testBit_toNat] using h i hi
    simp [bits, Nat.testBit_mod_two_pow, Nat.testBit_shiftRight, ← hn, hb]
  · simp [bits, Nat.testBit_mod_two_pow, ← hn, hi]

theorem bit_fieldMask (hi lo i : Nat) : bit (fieldMask hi lo) i = decide (lo ≤ i ∧ i ≤ hi ∧ i < 64) := by
  simp only [bit, fieldMask, w64, BitVec.getLsbD_ofNat, Nat.testBit_mul_two_pow, Nat.testBit_two_pow_sub_one]
  rw [Bool.eq_iff_iff]
  simp only [Bool.and_eq_true, decide_eq_true_eq]
  omega

/-- A register takes the bits that a write reaches, and keeps the others (R573). -/
theorem bit_mergeHalf (old v reach : Word) {i : Nat} (h : i < 64) :
    bit (mergeHalf old v reach) i = if bit reach i then bit v i else bit old i := by
  have hb : bit (mergeHalf old v reach) i = (bit old i && !bit reach i || bit v i && bit reach i) := by
    simp only [mergeHalf, mergeReg, bit, BitVec.getLsbD_or, BitVec.getLsbD_and, BitVec.getLsbD_not, BitVec.getLsbD_allOnes, h, decide_true,
      Bool.and_true, Bool.true_and]
  rw [hb]
  cases bit reach i <;> simp

/-- A write that reaches every bit replaces the register. -/
theorem mergeReg_allOnes (old v : Word) : mergeReg old v (BitVec.allOnes 64) (BitVec.allOnes 64) = v := by
  simp only [mergeReg, BitVec.and_allOnes, BitVec.not_allOnes, BitVec.and_zero, BitVec.zero_or]

/-- A W1C register loses the bits that are written as 1, and keeps the others (R9). -/
theorem bit_w1cPut (old v : Word) {i : Nat} (h : i < 64) :
    bit (w1cPut old v (BitVec.allOnes 64)) i = (bit old i && !bit v i) := by
  simp only [bit, w1cPut, BitVec.getLsbD_and, BitVec.getLsbD_not, BitVec.getLsbD_allOnes, h, decide_true, Bool.and_true, Bool.true_and]

/-! The scratch registers and the MC block (R540, R579). -/

theorem regRead_scratch (c : Chip) {i : Nat} (h : i < 2) : regRead c (0x20 + 8 * i) = SMap.get 0 c.scratch i := by
  obtain rfl | rfl : i = 0 ∨ i = 1 := by omega
  · rfl
  · rfl

theorem Chip.regPut_scratch {c : Chip} (haon : c.aon = true) (allowed : Bool) {i : Nat} (h : i < 2) (v reach : Word) :
    c.regPut allowed (0x20 + 8 * i) v reach = { c with scratch := SMap.set c.scratch i (mergeHalf (SMap.get 0 c.scratch i) v reach) } := by
  obtain rfl | rfl : i = 0 ∨ i = 1 := by omega
  · simp [Chip.regPut, haon]
  · simp [Chip.regPut, haon]

/-- A scratch register takes all 8 bytes of a write. -/
theorem Chip.regStore_scratch {c : Chip} (haon : c.aon = true) (allowed : Bool) {i : Nat} (h : i < 2) (v : Word) :
    c.regStore allowed (0x20 + 8 * i) 8 v = { c with scratch := SMap.set c.scratch i v } := by
  change c.regPut allowed (0x20 + 8 * i) v (BitVec.allOnes 64) = _
  rw [Chip.regPut_scratch haon allowed h, mergeHalf, mergeReg_allOnes]

/-- The lower half of the first scratch register takes 4 bytes. -/
theorem Chip.regStore_scratch_low {c : Chip} (haon : c.aon = true) (allowed : Bool) (v : Word) :
    c.regStore allowed 0x20 4 v = { c with
      scratch := SMap.set c.scratch 0 (mergeHalf (SMap.get 0 c.scratch 0) (v &&& fieldMask 31 0) (fieldMask 31 0)) } :=
  Chip.regPut_scratch haon allowed (by decide : 0 < 2) _ _

/-- The upper half of the first scratch register takes 4 bytes. -/
theorem Chip.regStore_scratch_high {c : Chip} (haon : c.aon = true) (allowed : Bool) (v : Word) :
    c.regStore allowed 0x24 4 v = { c with
      scratch := SMap.set c.scratch 0 (mergeHalf (SMap.get 0 c.scratch 0) (v <<< 32) (fieldMask 63 32)) } :=
  Chip.regPut_scratch haon allowed (by decide : 0 < 2) _ _

/-- A scratch register reads back the 8 bytes written to it, the other one stays, and nothing else changes. -/
theorem Chip.regStore_scratch_reads {c : Chip} (haon : c.aon = true) (allowed : Bool) {i j : Nat} (hi : i < 2) (hj : j < 2) (hij : j ≠ i)
    (v : Word) :
    let d := c.regStore allowed (0x20 + 8 * i) 8 v
    regRead d (0x20 + 8 * i) = v ∧ regRead d (0x20 + 8 * j) = regRead c (0x20 + 8 * j) ∧ { d with scratch := c.scratch } = c := by
  rw [Chip.regStore_scratch haon allowed hi]
  refine ⟨?_, ?_, rfl⟩
  · rw [regRead_scratch _ hi, SMap.get_set_same]
  · rw [regRead_scratch _ hj, regRead_scratch _ hj, SMap.get_set_other _ _ _ hij]

/-- Four bytes at the register's own offset replace its lower half. -/
theorem Chip.regStore_scratch_low_reads {c : Chip} (haon : c.aon = true) (allowed : Bool) (v : Word) :
    bits (regRead (c.regStore allowed 0x20 4 v) 0x20) 31 0 = bits v 31 0 ∧
      bits (regRead (c.regStore allowed 0x20 4 v) 0x20) 63 32 = bits (regRead c 0x20) 63 32 := by
  have hread (d : Chip) : regRead d 0x20 = SMap.get 0 d.scratch 0 := regRead_scratch d (i := 0) (by decide)
  rw [Chip.regStore_scratch_low haon, hread, hread, SMap.get_set_same]
  constructor
  · refine bits_eq_of_bit rfl (fun i hi => ?_)
    have hm : bit (fieldMask 31 0) (0 + i) = true := by rw [bit_fieldMask, decide_eq_true_eq]; omega
    rw [bit_mergeHalf _ _ _ (by omega), if_pos hm]
    unfold bit at hm ⊢
    rw [BitVec.getLsbD_and, hm, Bool.and_true]
  · refine bits_eq_of_bit rfl (fun i hi => ?_)
    rw [bit_mergeHalf _ _ _ (by omega), bit_fieldMask]
    simp [show ¬ 32 + i ≤ 31 by omega]

/-- Four bytes at the register's offset plus 4 replace its upper half. -/
theorem Chip.regStore_scratch_high_reads {c : Chip} (haon : c.aon = true) (allowed : Bool) (v : Word) :
    bits (regRead (c.regStore allowed 0x24 4 v) 0x20) 63 32 = bits v 31 0 ∧
      bits (regRead (c.regStore allowed 0x24 4 v) 0x20) 31 0 = bits (regRead c 0x20) 31 0 := by
  have hread (d : Chip) : regRead d 0x20 = SMap.get 0 d.scratch 0 := regRead_scratch d (i := 0) (by decide)
  rw [Chip.regStore_scratch_high haon, hread, hread, SMap.get_set_same]
  constructor
  · refine bits_eq_of_bit rfl (fun i hi => ?_)
    rw [bit_mergeHalf _ _ _ (by omega), bit_fieldMask]
    simp [bit, show 32 + i ≤ 63 by omega, show 32 + i < 64 by omega, show i < 64 by omega]
  · refine bits_eq_of_bit rfl (fun i hi => ?_)
    rw [bit_mergeHalf _ _ _ (by omega), bit_fieldMask]
    simp [show ¬ 32 ≤ i by omega]

/-- The RO registers of the ID block and the reserved offsets up to 0x10000 take no write (R9, R13). -/
theorem Chip.regStore_readOnly (c : Chip) (allowed : Bool) {o : Nat} (v : Word) (h : o < 0x20 ∨ (0x30 ≤ o ∧ o < 0x10000)) :
    c.regStore allowed o 8 v = c := by
  have hscratch : ¬ (o = 0x20 ∨ o = 0x28) := by omega
  have hblock (b : Nat) (hb : 0x10000 ≤ b) : ¬ b ≤ o := by omega
  change c.regPut allowed o v (BitVec.allOnes 64) = c
  simp [Chip.regPut, hscratch, hblock]

/-- A write of MC_EVENT clears the bits that it writes as 1 (R540). -/
theorem Chip.regStore_mcEvent {c : Chip} (haon : c.aon = true) (allowed : Bool) (v : Word) :
    c.regStore allowed 0xC0030 8 v =
      { c with mc := { c.mc with events := (w1cPut (c.mc.events.setWidth 64) v (BitVec.allOnes 64)).setWidth 6 } } := by
  change c.regPut allowed 0xC0030 v (BitVec.allOnes 64) = _
  simp [Chip.regPut, haon, Chip.writeMc]

theorem Chip.regStore_mcEvent_bit {c : Chip} (haon : c.aon = true) (allowed : Bool) (v : Word) {i : Nat} (h : i < 6) :
    (c.regStore allowed 0xC0030 8 v).mc.events.getLsbD i = (c.mc.events.getLsbD i && !bit v i) := by
  have h1 := bit_w1cPut (c.mc.events.setWidth 64) v (show i < 64 by omega)
  rw [Chip.regStore_mcEvent haon]
  simpa [bit, h, show i < 64 by omega] using h1

/-- Where the blocks of the package have power, its always-on domain works. -/
theorem Chip.aon_of_hubOn {c : Chip} (h : c.hubOn = true) : c.aon = true := by
  simp only [Chip.hubOn, Bool.and_eq_true] at h
  simp [Chip.aon, h]

/-! Alignment. -/

theorem regAligned_eight {o : Nat} (h : o % 8 = 0) : regAligned o 8 = true := by simp [regAligned, h]

theorem not_regAligned_eight {o : Nat} (h : o % 8 ≠ 0) : regAligned o 8 = false := by simp [regAligned, h]

/-- A read of 8 bytes at an aligned offset is the register. -/
theorem regLoad_eight (c : Chip) {o : Nat} (h : o % 8 = 0) : regLoad c o 8 = regRead c o := by
  have h1 : o / 8 * 8 = o := by omega
  simp [regLoad, h1]

/-! Interrupts of a port and PORT_ERR (R416, R418). -/

/-- An interrupt changes at a port at most the vectors that wait. -/
theorem Chip.msix_port (c : Chip) (n v m : Nat) : ∃ pba, (c.msix n v).port m = { c.port m with pba := pba } := by
  unfold Chip.msix
  dsimp only
  split
  · by_cases h : m = n
    · subst h; exact ⟨_, Chip.port_setPort _ _ _⟩
    · exact ⟨_, Chip.port_setPort_other _ _ h⟩
  · split
    · exact ⟨_, rfl⟩
    · exact ⟨_, rfl⟩

/-- Beside the ports an interrupt changes what the package drives out alone. -/
theorem Chip.msix_rest (c : Chip) (n v : Nat) : { c.msix n v with ports := c.ports, out := c.out } = c := by
  unfold Chip.msix
  dsimp only
  split
  · rfl
  · split <;> rfl

theorem Chip.signalVec_port (c : Chip) (n : Nat) (vec : Word) (m : Nat) :
    ∃ pba, (c.signalVec n vec).port m = { c.port m with pba := pba } := by
  unfold Chip.signalVec
  split
  · exact c.msix_port n _ m
  · exact ⟨_, rfl⟩

theorem Chip.signalVec_rest (c : Chip) (n : Nat) (vec : Word) : { c.signalVec n vec with ports := c.ports, out := c.out } = c := by
  unfold Chip.signalVec
  split
  · exact c.msix_rest n _
  · rfl

/-- A noted error is in PORT_ERR. -/
theorem Chip.portErr_err (c : Chip) (n : Nat) {i : Nat} (h : i < 6) : ((c.portErr n i).port n).err.getLsbD i = true := by
  unfold Chip.portErr
  dsimp only
  split
  · assumption
  · obtain ⟨pba, hp⟩ := (c.setPort n { c.port n with err := (c.port n).err ||| BitVec.ofNat 6 (2 ^ i) }).signalVec_port n (c.port n).errVec n
    rw [hp, Chip.port_setPort]
    simp only [BitVec.getLsbD_or, BitVec.getLsbD_ofNat, Nat.testBit_two_pow_self, h, decide_true, Bool.and_self, Bool.or_true]

/-- Noting an error changes the ports and what the package drives out alone. -/
theorem Chip.portErr_rest (c : Chip) (n i : Nat) : { c.portErr n i with ports := c.ports, out := c.out } = c := by
  unfold Chip.portErr
  dsimp only
  split
  · rfl
  · have h := (c.setPort n { c.port n with err := (c.port n).err ||| BitVec.ofNat 6 (2 ^ i) }).signalVec_rest n (c.port n).errVec
    exact congrArg (fun d : Chip => { d with ports := c.ports }) h

theorem Chip.portErr_scratch (c : Chip) (n i : Nat) : (c.portErr n i).scratch = c.scratch := by
  have h := congrArg Chip.scratch (c.portErr_rest n i)
  exact h

theorem Chip.portErr_mem (c : Chip) (n i : Nat) : (c.portErr n i).mem = c.mem := by
  have h := congrArg Chip.mem (c.portErr_rest n i)
  exact h

/-! Accesses over BAR0 and BAR3 (R399, R402, R421). -/

theorem Chip.barLoad_aligned (c : Chip) (n : Nat) {o : Nat} (h : o % 8 = 0) : c.barLoad n o 8 = c.emit (.readWord n (regRead c o)) := by
  simp [Chip.barLoad, regAligned_eight h, regLoad_eight c h]

theorem Chip.barLoad_misaligned (c : Chip) (n : Nat) {o size : Nat} (h : regAligned o size = false) :
    ((c.barLoad n o size).port n).err.getLsbD 2 = true ∧ (∃ l, (c.barLoad n o size).out = .readWord n 0 :: l) ∧
      (c.barLoad n o size).scratch = c.scratch ∧ (c.barLoad n o size).mem = c.mem := by
  have he : c.barLoad n o size = (c.portErr n 2).emit (.readWord n 0) := by simp [Chip.barLoad, h]
  rw [he]
  exact ⟨c.portErr_err n (by decide), ⟨_, rfl⟩, c.portErr_scratch n 2, c.portErr_mem n 2⟩

theorem Chip.barStore_aligned (c : Chip) (n : Nat) (allowed : Bool) {o size : Nat} (v : Word) (h : regAligned o size = true) :
    c.barStore n allowed o size v = c.regStore allowed o size v := by simp [Chip.barStore, h]

theorem Chip.barStore_misaligned (c : Chip) (n : Nat) (allowed : Bool) {o size : Nat} (v : Word) (h : regAligned o size = false) :
    c.barStore n allowed o size v = c.portErr n 2 := by simp [Chip.barStore, h]

theorem Chip.pathWrite_bar0_closed {c : Chip} {port : BitVec 2} (hacc : (c.port port.toNat).access.getLsbD 0 = false) (o size : Nat) (v : Word) :
    c.pathWrite (.bar0 port) o size v = c := by
  simp only [Chip.pathWrite, hacc, Bool.and_false, Bool.false_eq_true, if_false]

section
variable {c : Chip} {port : BitVec 2} (hup : (c.port port.toNat).linkUp = true)
include hup

theorem Chip.pathWrite_bar0 (hacc : (c.port port.toNat).access.getLsbD 0 = true) (o size : Nat) (v : Word) :
    c.pathWrite (.bar0 port) o size v = c.barStore port.toNat (port = 0) o size v := by
  simp [Chip.pathWrite, hup, hacc]

theorem Chip.pathWrite_bar0_aligned (hacc : (c.port port.toNat).access.getLsbD 0 = true) {o size : Nat} (v : Word)
    (h : regAligned o size = true) : c.pathWrite (.bar0 port) o size v = c.regStore (port = 0) o size v := by
  rw [Chip.pathWrite_bar0 hup hacc, Chip.barStore_aligned _ _ _ _ h]

theorem Chip.pathRead_bar0 (hacc : (c.port port.toNat).access.getLsbD 0 = true) (o size : Nat) :
    c.pathRead (.bar0 port) o size = c.barLoad port.toNat o size := by
  simp [Chip.pathRead, hup, hacc]

theorem Chip.pathRead_bar0_closed (hacc : (c.port port.toNat).access.getLsbD 0 = false) (o size : Nat) :
    c.pathRead (.bar0 port) o size = c.emit (.readWord port.toNat 0) := by
  simp only [Chip.pathRead, hup, hacc, Bool.true_eq_false, Bool.false_eq_true, if_false]

theorem Chip.pathRead_bar2 (o size : Nat) : c.pathRead (.bar2 port) o size = c.emit (.readWord port.toNat 0) := by
  simp [Chip.pathRead, hup]

theorem Chip.pathRead_bar3 {o : Nat} (ho : o < 0x10000) (size : Nat) :
    c.pathRead (.bar3 port) o size = c.barLoad port.toNat (0x50000 + 0x10000 * port.toNat + o) size := by
  simp [Chip.pathRead, hup, ho]

/-! BAR1 (R403, R416). -/

theorem Chip.pathRead_bar1_addr {o : Nat} (ho : o < 0x8000) (h16 : o % 16 = 0) :
    c.pathRead (.bar1 port) o 8 = c.emit (.readWord port.toNat (SMap.get MsixEntry.reset (c.port port.toNat).msix (o / 16)).addr) := by
  have h8 : o % 8 = 0 := by omega
  have h1 : o / 8 * 8 = o := by omega
  have h2 : ¬ 0x10000 ≤ o := by omega
  simp [Chip.pathRead, Port.bar1, hup, regAligned_eight h8, h1, h2, ho, h16]

theorem Chip.pathWrite_bar1 {o : Nat} (ho : o < 0x8000) (h8 : o % 8 = 0) (v : Word) :
    c.pathWrite (.bar1 port) o 8 v = c.bar1Put port.toNat o v (BitVec.allOnes 64) := by
  have h1 : o < 0x10000 := by omega
  simp [Chip.pathWrite, inWord, hup, regAligned_eight h8, h1]

end

/-- The MSI-X table holds an entry that is written, whether or not its message goes out. -/
theorem Chip.msixPut_entry (c : Chip) (n v : Nat) (e : MsixEntry) : SMap.get MsixEntry.reset ((c.msixPut n v e).port n).msix v = e := by
  unfold Chip.msixPut
  dsimp only
  split
  · obtain ⟨pba, hp⟩ := (c.setPort n { c.port n with
      msix := SMap.set (c.port n).msix v e, pba := (c.port n).pba.filter (fun u => u ≠ v) }).msix_port n v n
    rw [hp]
    simp
  · simp

/-- The first eight bytes of an entry are its address. -/
theorem Chip.bar1Put_addr (c : Chip) (n : Nat) {o : Nat} (v : Word) (ho : o < 0x8000) (h : o % 16 = 0) :
    SMap.get MsixEntry.reset ((c.bar1Put n o v (BitVec.allOnes 64)).port n).msix (o / 16) =
      { SMap.get MsixEntry.reset (c.port n).msix (o / 16) with addr := v } := by
  unfold Chip.bar1Put
  dsimp only
  rw [if_neg (by omega), if_pos h, mergeReg_allOnes, Chip.msixPut_entry]

/-- The last eight bytes of an entry are its data and its mask. -/
theorem Chip.bar1Put_data (c : Chip) (n : Nat) {o : Nat} (v : Word) (ho : o < 0x8000) (h : o % 16 = 8) :
    SMap.get MsixEntry.reset ((c.bar1Put n o v (BitVec.allOnes 64)).port n).msix (o / 16) =
      { SMap.get MsixEntry.reset (c.port n).msix (o / 16) with data := v.setWidth 32, masked := bit v 32 } := by
  unfold Chip.bar1Put
  dsimp only
  rw [if_neg (by omega), if_neg (by omega), mergeReg_allOnes, Chip.msixPut_entry]

/-! Register messages (R472). -/

theorem Chip.Receives.hubOn {c : Chip} {m : Msg} (h : c.Receives m) : c.hubOn = true := h.left

/-- A register message that reaches this package is served under its type. -/
theorem Chip.regMessage_received {c : Chip} {m : Msg} (h : c.Receives m) (t : Nat) :
    c.regMessage t m = c.serveAny { m with mtype := BitVec.ofNat 8 t } := by
  obtain ⟨hhub, hdest, hway⟩ := h
  have hway' : c.atWaypoint { m with mtype := BitVec.ofNat 8 t } = false := hway
  simp [Chip.regMessage, Chip.arrive, hhub, hdest, hway']

theorem msgSize_eight {m : Msg} (h : m.len = 8) : msgSize m = 8 := by
  simp [msgSize, h]

/-- The answer to a live package goes by its route. -/
theorem Chip.regAnswer_live {c : Chip} {a : Msg} (h : a.dest.toNat ∈ c.net.live) : c.regAnswer a = c.send a := if_pos h

/-- A read of a live package is answered with the register. -/
theorem Chip.serveRegRd_eight {c : Chip} {m : Msg} (h8 : msgOff m % 8 = 0) (hlen : m.len = 8) (hlive : m.src.toNat ∈ c.net.live) :
    c.serveRegRd m = c.send { c.blankMsg 0x43 m.src.toNat with
      addr := m.addr, txn := m.txn, len := 8, data := leBytes 8 (regRead c (msgOff m)).toNat } := by
  have hdest : (BitVec.ofNat 12 m.src.toNat).toNat ∈ c.net.live := by simpa using hlive
  unfold Chip.serveRegRd
  dsimp only
  rw [msgSize_eight hlen, if_pos (regAligned_eight h8), regLoad_eight c h8, Chip.regAnswer_live hdest]
  simp [Chip.regMsg]

/-- A write by message has a message's powers. -/
theorem Chip.serveRegWr_eight {c : Chip} {m : Msg} {v : Word} (hhub : c.hubOn = true) (h8 : msgOff m % 8 = 0) (hlen : m.len = 8)
    (hdata : m.data = leBytes 8 v.toNat) : c.serveRegWr m = c.regStore false (msgOff m) 8 v := by
  simp [Chip.serveRegWr, Chip.pathWrite, msgSize_eight hlen, hhub, regAligned_eight h8, hdata, w64_fieldB_leBytes]

theorem Chip.serveRegWr_misaligned {c : Chip} {m : Msg} (h8 : msgOff m % 8 ≠ 0) (hlen : m.len = 8) : c.serveRegWr m = c := by
  simp [Chip.serveRegWr, Chip.pathWrite, msgSize_eight hlen, not_regAligned_eight h8]

/-- TXN of an answer names the port that asked. -/
theorem Chip.serveRegData_port {c : Chip} {m : Msg} {v : Word} (hlo : 1 ≤ m.txn.toNat) (hhi : m.txn.toNat ≤ 4) (hlen : m.len = 8)
    (hdata : m.data = leBytes 8 v.toNat) : c.serveRegData m = c.emit (.readWord (m.txn.toNat - 1) v) := by
  have h0 : m.txn ≠ 0 := by intro h; simp [h] at hlo
  unfold Chip.serveRegData
  dsimp only
  rw [if_neg h0, if_pos hhi, msgSize_eight hlen, hdata, w64_fieldB_leBytes]

theorem Completes.of_serveRegRd {s : State} {m : Msg} {post : Chip → Prop} (hr : s.chip.Receives m)
    (h : post (s.chip.serveRegRd { m with mtype := 0x41 })) : Completes s (.mregRd m) post :=
  .of_run (f := fun c => c.regMessage 0x41 m) rfl (by rw [Chip.regMessage_received hr]; exact h)

theorem Completes.of_serveRegWr {s : State} {m : Msg} {post : Chip → Prop} (hr : s.chip.Receives m)
    (h : post (s.chip.serveRegWr { m with mtype := 0x42 })) : Completes s (.mregWr m) post :=
  .of_run (f := fun c => c.regMessage 0x42 m) rfl (by rw [Chip.regMessage_received hr]; exact h)

/-- A register message that writes 8 aligned bytes is a store of them. -/
theorem Completes.mregWr_of_regStore {s : State} {m : Msg} {v : Word} {post : Chip → Prop} (hr : s.chip.Receives m) (h8 : msgOff m % 8 = 0)
    (hlen : m.len = 8) (hdata : m.data = leBytes 8 v.toNat) (h : post (s.chip.regStore false (msgOff m) 8 v)) :
    Completes s (.mregWr m) post := by
  have he : s.chip.serveRegWr { m with mtype := 0x42 } = s.chip.regStore false (msgOff m) 8 v :=
    Chip.serveRegWr_eight hr.hubOn h8 hlen hdata
  exact .of_serveRegWr hr (by rw [he]; exact h)

theorem Completes.of_serveRegData {s : State} {m : Msg} {post : Chip → Prop} (hr : s.chip.Receives m)
    (h : post (s.chip.serveRegData { m with mtype := 0x43 })) : Completes s (.mregData m) post :=
  .of_run (f := fun c => c.regMessage 0x43 m) rfl (by rw [Chip.regMessage_received hr]; exact h)

/-! Register accesses as a whole. -/

/-- While its access bit is set, an aligned write over BAR0 is a store that has the powers of P0 where the port is P0 (R402). -/
theorem Completes.bar0Write_of_regStore {s : State} {port : BitVec 2} (hup : (s.chip.port port.toNat).linkUp = true)
    (hacc : (s.chip.port port.toNat).access.getLsbD 0 = true) {post : Chip → Prop} {off : BitVec 24} {size : Nat} {v : Word}
    (hal : regAligned off.toNat size = true) (h : post (s.chip.regStore (port = 0) off.toNat size v)) :
    Completes s (.registerWrite (.bar0 port) off size (.write v)) post :=
  .of_pathWrite (by rw [Chip.pathWrite_bar0_aligned hup hacc v hal]; exact h)

/-- Settles O38: an access over each path is a store or a load of the register space, an entry of the MSI-X table, or a noted error, and the
lemmas on these say what it leaves. -/
theorem registerWrites : Obligations.RegisterWrites := by
  unfold Obligations.RegisterWrites
  constructor
  · intro s port v off size c n o w answers bad hup
    refine ⟨fun hacc hpor hheld => ?_, fun hacc => ?_, ?_, ?_, ?_, fun ho hsize => ?_⟩
    · have haon : c.aon = true := by simp [Chip.aon, c, hpor, hheld]
      refine ⟨?_, ?_, ?_, ?_, fun o h8 ho => ?_, ?_, fun hmis => ⟨?_, ?_⟩, fun h8 hsize => ?_⟩
      · exact .bar0Write_of_regStore hup hacc rfl (Chip.regStore_scratch_reads haon _ (i := 0) (j := 1) (by decide) (by decide) (by decide) v)
      · exact .bar0Write_of_regStore hup hacc rfl (Chip.regStore_scratch_reads haon _ (i := 1) (j := 0) (by decide) (by decide) (by decide) v)
      · exact .bar0Write_of_regStore hup hacc rfl (Chip.regStore_scratch_low_reads haon _ v)
      · exact .bar0Write_of_regStore hup hacc rfl (Chip.regStore_scratch_high_reads haon _ v)
      · exact .bar0Write_of_regStore hup hacc (regAligned_eight h8) (Chip.regStore_readOnly c _ v ho)
      · exact .bar0Write_of_regStore hup hacc rfl (fun i hi => Chip.regStore_mcEvent_bit haon _ v hi)
      · exact .of_pathRead (by rw [Chip.pathRead_bar0 hup hacc]; exact c.barLoad_misaligned n hmis)
      · refine .of_pathWrite ?_
        rw [Chip.pathWrite_bar0 hup hacc, Chip.barStore_misaligned _ _ _ _ hmis]
        exact ⟨c.portErr_err n (by decide), c.portErr_scratch n 2, c.portErr_mem n 2⟩
      · subst hsize
        exact .of_pathRead (by rw [Chip.pathRead_bar0 hup hacc]; exact c.barLoad_aligned n h8)
    · exact ⟨.of_pathRead (Chip.pathRead_bar0_closed hup hacc _ _), .of_pathWrite (Chip.pathWrite_bar0_closed hacc _ _ v)⟩
    · exact .of_pathRead (Chip.pathRead_bar2 hup _ _)
    · intro ho h8 hsize
      subst hsize
      exact .of_pathRead (by rw [Chip.pathRead_bar3 hup ho]; exact c.barLoad_aligned n (by omega))
    · intro ho hmis
      exact .of_pathRead (by rw [Chip.pathRead_bar3 hup ho]; exact c.barLoad_misaligned n hmis)
    · subst hsize
      refine ⟨fun h16 => ⟨.of_pathRead (Chip.pathRead_bar1_addr hup ho h16), .of_pathWrite ?_⟩, fun h16 => .of_pathWrite ?_⟩
      · rw [Chip.pathWrite_bar1 hup ho (by omega)]
        exact c.bar1Put_addr n v ho h16
      · rw [Chip.pathWrite_bar1 hup ho (by omega)]
        exact c.bar1Put_data n v ho h16
  · intro s m v hr c o reply
    refine ⟨fun h8 hlen hlive => ?_, fun h8 hlen hdata => ⟨?_, fun ho => ?_⟩, fun h8 hlen => ?_, fun hlo hhi hlen hdata => ?_⟩
    · exact .of_serveRegRd hr (Chip.serveRegRd_eight h8 hlen hlive)
    · exact .mregWr_of_regStore hr h8 hlen hdata rfl
    · obtain ⟨hread, -, hrest⟩ :=
        Chip.regStore_scratch_reads (Chip.aon_of_hubOn hr.hubOn) false (i := 0) (j := 1) (by decide) (by decide) (by decide) v
      have hoff : msgOff m = 0x20 := ho
      exact .mregWr_of_regStore hr h8 hlen hdata (by rw [hoff]; exact ⟨hread, hrest⟩)
    · exact .of_serveRegWr hr (Chip.serveRegWr_misaligned h8 hlen)
    · exact .of_serveRegData hr (Chip.serveRegData_port hlo hhi hlen hdata)

end Sys2Proof.Machine
end

section
/-! One nanosecond in which no command waits (R19, R20). -/

namespace Sys2Proof.Machine

/-- Replacing cores one after another changes the cores alone. -/
theorem Chip.foldl_setCore_rest (f : Chip → Nat → Core) (l : List Nat) (c : Chip) :
    { l.foldl (fun c n => c.setCore n (f c n)) c with cores := c.cores } = c := by
  induction l generalizing c with
  | nil => rfl
  | cons n t ih => exact congrArg (fun d : Chip => { d with cores := c.cores }) (ih (c.setCore n (f c n)))

theorem Chip.tickCores_rest (c : Chip) : { c.tickCores with cores := c.cores } = c :=
  Chip.foldl_setCore_rest (fun c n => (c.core n).tick (c.curMhz n)) _ c

/-- What the hub clocks lies in the cores, the Request Table, the ports, the links, the Text Unit, Video Intake and the power state. -/
theorem Chip.tickHub_rest (c : Chip) :
    { c.tickHub with cores := c.cores, req := c.req, ports := c.ports, links := c.links, txu := c.txu, vid := c.vid, pwr := c.pwr } = c :=
  congrArg (fun d : Chip => { d with req := c.req, ports := c.ports, links := c.links, txu := c.txu, vid := c.vid, pwr := c.pwr })
    c.tickCores_rest

/-- A nanosecond changes Tide and what the hub clocks alone. -/
theorem Chip.tick_rest (c : Chip) :
    { c.tick with tide := c.tide, cores := c.cores, req := c.req, ports := c.ports, links := c.links, txu := c.txu, vid := c.vid,
                  pwr := c.pwr } = c := by
  unfold Chip.tick
  split
  · rfl
  · dsimp only
    split
    · exact congrArg (fun d : Chip => { d with tide := c.tide }) c.tickHub_rest
    · rfl

/-- No Request's context changes in a nanosecond. -/
theorem Chip.tick_ctxs (c : Chip) : c.tick.req.ctxs = c.req.ctxs := by
  unfold Chip.tick
  split
  · rfl
  · dsimp only
    split <;> rfl

/-- Tide counts a nanosecond while the always-on domain runs (R19). -/
theorem Chip.tick_tide (c : Chip) : c.tick.tide = if c.aon = true then c.tide + 1 else c.tide := by
  unfold Chip.tick
  cases c.aon <;> rfl

/-- With no command waiting a step is one nanosecond. -/
theorem step_of_no_command {s : State} (h : s.pending = []) : step s = s.run Chip.tick := by
  unfold step
  rw [h]

/-- Settles O2: the step is one nanosecond, which reaches Tide and counters alone. -/
theorem emptyQueueLetsTidePass : Obligations.EmptyQueueLetsTidePass := by
  unfold Obligations.EmptyQueueLetsTidePass
  intro s hs
  have hrest := s.chip.tick_rest
  exact ⟨{ s with chip := s.chip.tick }, step_of_no_command hs, hs, s.chip.tick_tide, (congrArg Chip.mem hrest :),
    (congrArg Chip.out hrest :), (congrArg Chip.rcp hrest :), (congrArg Chip.net hrest :), (congrArg Chip.mc hrest :),
    (congrArg Chip.rst hrest :), (congrArg Chip.emb hrest :), s.chip.tick_ctxs⟩

end Sys2Proof.Machine
end

section
/-! Deadlines and Quiesce (R34, R46, R53, R54, R65). -/

namespace Sys2Proof.Machine

/-! A Request that ends. -/

section
variable {c : Chip} {j : Nat} {x : Ctx} (hx : c.ctx j = some x) (hended : x.ended = none) (hdel : x.delivering = false)
include hx hended hdel

/-- A Request that has not ended and whose delivery has not begun ends, and its completion waits at its window. -/
theorem Chip.endReq_of_live (status : Nat) (detail : BitVec 32) : c.endReq j status detail =
    (c.setCtx j { x with ended := some (BitVec.ofNat 8 status, detail) }).pushCpl x.port x.window (.request j) := by
  simp [Chip.endReq, hx, hended, hdel]

theorem Chip.endReq_ctx_same (status : Nat) (detail : BitVec 32) :
    (c.endReq j status detail).ctx j = some { x with ended := some (BitVec.ofNat 8 status, detail) } := by
  rw [Chip.endReq_of_live hx hended hdel, Chip.pushCpl, Chip.setWindow_ctx_frame, Chip.ctx_setCtx]

theorem Chip.endReq_cplQ (status : Nat) (detail : BitVec 32) :
    ((c.endReq j status detail).window x.port x.window).cplQ = (c.window x.port x.window).cplQ ++ [.request j] := by
  rw [Chip.endReq_of_live hx hended hdel, Chip.pushCpl, Chip.window_setWindow]
  rfl

end

/-- The end of a Request reaches its context and its window alone. -/
theorem Chip.endReq_rest (c : Chip) (k status : Nat) (detail : BitVec 32) :
    { c.endReq k status detail with req := c.req, ports := c.ports } = c ∧ { (c.endReq k status detail).req with ctxs := c.req.ctxs } = c.req := by
  unfold Chip.endReq
  split
  · exact ⟨rfl, rfl⟩
  · split <;> exact ⟨rfl, rfl⟩

theorem Chip.endReq_ctx_other (c : Chip) {j k : Nat} (status : Nat) (detail : BitVec 32) (h : j ≠ k) :
    (c.endReq k status detail).ctx j = c.ctx j := by
  unfold Chip.endReq
  split
  · rfl
  · split
    · rfl
    · rw [Chip.pushCpl, Chip.setWindow_ctx_frame, Chip.ctx_setCtx_other _ _ h]

/-- The first end counts: a Request that has ended stays as it is whichever Request ends (R34). -/
theorem Chip.endReq_keeps_ended {c : Chip} {j : Nat} {y : Ctx} (hy : c.ctx j = some y) (he : y.ended.isSome = true) (k status : Nat)
    (detail : BitVec 32) : (c.endReq k status detail).ctx j = some y := by
  by_cases h : j = k
  · subst h
    simp [Chip.endReq, hy, he]
  · rw [Chip.endReq_ctx_other _ _ _ h, hy]

/-! Every Request in flight ends. -/

theorem Chip.foldl_endReq_keeps_ended (l : SMap Ctx) {c : Chip} {j : Nat} {y : Ctx} (hy : c.ctx j = some y) (he : y.ended.isSome = true)
    (status : Nat) (detail : BitVec 32) : (l.foldl (fun c p => c.endReq p.1 status detail) c).ctx j = some y := by
  induction l generalizing c with
  | nil => exact hy
  | cons p t ih => exact ih (Chip.endReq_keeps_ended hy he p.1 status detail)

/-- Of the Requests that end one after another, one named among them has ended. -/
theorem Chip.foldl_endReq_ctx (l : SMap Ctx) {c : Chip} {j : Nat} {x : Ctx} (hx : c.ctx j = some x) (hended : x.ended = none)
    (hdel : x.delivering = false) (status : Nat) (detail : BitVec 32) (hj : j ∈ l.map Prod.fst) :
    (l.foldl (fun c p => c.endReq p.1 status detail) c).ctx j = some { x with ended := some (BitVec.ofNat 8 status, detail) } := by
  induction l generalizing c with
  | nil => simp at hj
  | cons p t ih =>
    by_cases hp : j = p.1
    · subst hp
      exact Chip.foldl_endReq_keeps_ended t (Chip.endReq_ctx_same hx hended hdel status detail) rfl status detail
    · have ht : j ∈ t.map Prod.fst := (List.mem_cons.mp hj).resolve_left hp
      exact ih ((c.endReq_ctx_other status detail hp).trans hx) ht

theorem Chip.foldl_endReq_req (l : SMap Ctx) (c : Chip) (status : Nat) (detail : BitVec 32) :
    { (l.foldl (fun c p => c.endReq p.1 status detail) c).req with ctxs := c.req.ctxs } = c.req := by
  induction l generalizing c with
  | nil => rfl
  | cons p t ih =>
    calc _ = { (c.endReq p.1 status detail).req with ctxs := c.req.ctxs } :=
          congrArg (fun r : ReqTable => { r with ctxs := c.req.ctxs }) (ih (c.endReq p.1 status detail))
      _ = c.req := (c.endReq_rest p.1 status detail).2

/-- An entry that a sparse table finds is listed. -/
theorem SMap.mem_keys_of_find {α : Type} {m : SMap α} {k : Nat} {a : α} (h : SMap.find m k = some a) : k ∈ m.map Prod.fst := by
  induction m with
  | nil => simp [SMap.find] at h
  | cons p t ih =>
    by_cases hp : p.1 = k
    · simp [hp]
    · exact List.mem_cons_of_mem _ (ih (by simpa [SMap.find, hp] using h))

/-- ABORT ends a Request whose delivery has not begun with ABORT_QUIESCE (R54). -/
theorem Chip.abortAll_ctx {c : Chip} {j : Nat} {x : Ctx} (hx : c.ctx j = some x) (hended : x.ended = none) (hdel : x.delivering = false) :
    c.abortAll.ctx j = some { x with ended := some (0x20, 0) } :=
  Chip.foldl_endReq_ctx c.req.ctxs hx hended hdel 0x20 0 (SMap.mem_keys_of_find hx)

/-- Aborting changes the contexts of the Request Table and no register of it. -/
theorem Chip.abortAll_req (c : Chip) : { c.abortAll.req with ctxs := c.req.ctxs } = c.req := Chip.foldl_endReq_req _ c 0x20 0

/-! RQT_CONTROL. -/

/-- RQT_CONTROL as a write leaves it, before its policy acts. -/
def Chip.withControl (c : Chip) (v : Word) : Chip :=
  { c with req := { c.req with
      control := v &&& controlMask, timeoutRuns := bit v 0 && ((!bit c.req.control 0 && bit v 0) || c.req.timeoutRuns),
      stallHead := if bit v 0 then none else c.req.stallHead } }

theorem Chip.writeControl_eq (c : Chip) (v : Word) : c.writeControl v =
    (if (c.withControl v).abortsNow then (c.withControl v).abortAll else c.withControl v).checkQuiesced := rfl

/-- QUIESCE_REQ is a field of RQT_CONTROL, so a write of it is kept. -/
theorem bit_controlMask_zero (v : Word) : bit (v &&& controlMask) 0 = bit v 0 := by
  simp [bit, controlMask]

/-- POLICY is bits 3 and 2. -/
theorem bits_policy_congr {u v : Word} (h2 : bit u 2 = bit v 2) (h3 : bit u 3 = bit v 3) : bits u 3 2 = bits v 3 2 := by
  refine bits_eq_of_bit rfl (fun i hi => ?_)
  obtain rfl | rfl : i = 0 ∨ i = 1 := by omega
  · exact h2
  · exact h3

theorem bits_controlMask_policy (v : Word) : bits (v &&& controlMask) 3 2 = bits v 3 2 :=
  bits_policy_congr (by simp [bit, controlMask]) (by simp [bit, controlMask])

/-- QUIESCE_REQ set leaves the policy. -/
theorem bits_or_one_policy (v : Word) : bits (v ||| 1) 3 2 = bits v 3 2 := bits_policy_congr (by simp [bit]) (by simp [bit])

/-- Beside the contexts, the Request Table after the policy has acted is what the write left. -/
theorem Chip.writeControl_registers (c : Chip) (v : Word) :
    (c.writeControl v).req.control = v &&& controlMask ∧ (c.writeControl v).req.timeoutRuns = (c.withControl v).req.timeoutRuns := by
  rw [Chip.writeControl_eq]
  split
  · have h := (c.withControl v).abortAll_req
    exact ⟨(congrArg ReqTable.control h :), (congrArg ReqTable.timeoutRuns h :)⟩
  · exact ⟨rfl, rfl⟩

/-- After a write QUIESCED says whether the package is at rest (R53). -/
theorem Chip.writeControl_quiesced (c : Chip) (v : Word) : (c.writeControl v).req.quiesced = (c.writeControl v).atRest := rfl

/-- A policy that does not abort now ends no Request. -/
theorem Chip.writeControl_ctxs {c : Chip} {v : Word} (h : (c.withControl v).abortsNow = false) : (c.writeControl v).req.ctxs = c.req.ctxs := by
  rw [Chip.writeControl_eq, h]
  rfl

/-- A policy that aborts now ends each Request whose delivery has not begun. -/
theorem Chip.writeControl_ctx {c : Chip} {v : Word} {j : Nat} {x : Ctx} (h : (c.withControl v).abortsNow = true) (hx : c.ctx j = some x)
    (hended : x.ended = none) (hdel : x.delivering = false) : (c.writeControl v).ctx j = some { x with ended := some (0x20, 0) } := by
  rw [Chip.writeControl_eq, h]
  exact Chip.abortAll_ctx (c := c.withControl v) hx hended hdel

/-- DRAIN never aborts. -/
theorem Chip.withControl_drain {c : Chip} {v : Word} (h : bits v 3 2 = 0) : (c.withControl v).abortsNow = false := by
  simp [Chip.abortsNow, Chip.withControl, bits_controlMask_policy, h]

/-- ABORT aborts as soon as Quiesce is asked for. -/
theorem Chip.withControl_abort {c : Chip} {v : Word} (hreq : bit v 0 = true) (h : bits v 3 2 = 1) : (c.withControl v).abortsNow = true := by
  simp [Chip.abortsNow, Chip.withControl, bits_controlMask_policy, bit_controlMask_zero, hreq, h]

section
variable {c : Chip} {v : Word} (h : bit v 0 = false)
include h

/-- Without QUIESCE_REQ nothing is aborted. -/
theorem Chip.withControl_resume : (c.withControl v).abortsNow = false := by
  simp [Chip.abortsNow, Chip.withControl, bit_controlMask_zero, h]

/-- Without QUIESCE_REQ the package is not quiesced, and no timeout runs (R65). -/
theorem Chip.writeControl_resume : (c.writeControl v).req.quiesced = false ∧ (c.writeControl v).req.timeoutRuns = false := by
  obtain ⟨hctl, htimeout⟩ := c.writeControl_registers v
  refine ⟨?_, by simp [htimeout, Chip.withControl, h]⟩
  rw [Chip.writeControl_quiesced, Chip.atRest, hctl, bit_controlMask_zero, h]
  rfl

end

/-- DRAIN_THEN_ABORT aborts when its timeout expires, and the timeout has run out then (R54). -/
theorem Chip.drainTimeout_of_expired {c : Chip} (hruns : c.req.timeoutRuns = true) (htime : bits c.req.control 63 32 ≠ 0)
    (hreq : bit c.req.control 0 = true) (hpol : 2 ≤ bits c.req.control 3 2) :
    c.drainTimeout = ({ c with req := { c.req with timeoutRuns := false } } : Chip).abortAll := by
  simp [Chip.drainTimeout, Chip.abortsNow, hruns, htime, hreq, hpol]

theorem Chip.deadline_of_passed {c : Chip} {k : Nat} {x : Ctx} (hx : c.ctx k = some x) (h : x.deadlinePassed c.tide = true) :
    c.deadline k = c.endReq k 0x16 0 := by
  simp [Chip.deadline, hx, h]

theorem Ctx.deadlinePassed_iff (x : Ctx) (tide : Word) :
    x.deadlinePassed tide = true ↔ fieldB x.desc 0x10 8 ≠ 0 ∧ fieldB x.desc 0x10 8 ≤ tide.toNat := by
  simp [Ctx.deadlinePassed]

theorem Completes.quiesce_of_writeControl {s : State} {v : Word} {post : Chip → Prop} (hb : s.chip.blackout = false)
    (h : post (s.chip.writeControl (v ||| 1))) : Completes s (.quiesce v) post :=
  .of_run (f := fun c => if c.blackout then c else c.writeControl (v ||| 1)) rfl (by simpa [hb] using h)

theorem Completes.resume_of_writeControl {s : State} {v : Word} {post : Chip → Prop} (hb : s.chip.blackout = false)
    (h : post (s.chip.writeControl (v &&& ~~~(1 : Word)))) : Completes s (.resume v) post :=
  .of_run (f := fun c => if c.blackout then c else c.writeControl (v &&& ~~~(1 : Word))) rfl (by simpa [hb] using h)

/-- Settles O34: a deadline ends its Request, a write of RQT_CONTROL is kept and acts by its policy, and an expired timeout aborts. -/
theorem deadlinesAndQuiesce : Obligations.DeadlinesAndQuiesce := by
  unfold Obligations.DeadlinesAndQuiesce
  intro s ctx v x j c k held
  have hheld (u : Word) : held (c.writeControl u) u := ⟨(c.writeControl_registers u).1, c.writeControl_quiesced u⟩
  refine ⟨fun hx hended hdel hset hpast => ?_, fun hb => ⟨fun hpol => ?_, fun hpol hx hended hdel => ?_, ?_⟩,
    fun hruns htime hreq hpol hx hended hdel => ?_⟩
  · refine .of_run (f := fun c => c.deadline k) rfl ?_
    rw [Chip.deadline_of_passed hx ((x.deadlinePassed_iff _).mpr ⟨hset, hpast⟩)]
    have hrest := (c.endReq_rest k 0x16 0).1
    exact ⟨Chip.endReq_ctx_same hx hended hdel 0x16 0, Chip.endReq_cplQ hx hended hdel 0x16 0, fun i hi => c.endReq_ctx_other 0x16 0 hi,
      (congrArg Chip.mem hrest :), (congrArg Chip.cores hrest :)⟩
  · have hdrain : (c.withControl (v ||| 1)).abortsNow = false := Chip.withControl_drain (by rw [bits_or_one_policy, hpol])
    exact .quiesce_of_writeControl hb ⟨hheld _, Chip.writeControl_ctxs hdrain⟩
  · have habort : (c.withControl (v ||| 1)).abortsNow = true :=
      Chip.withControl_abort (by simp [bit]) (by rw [bits_or_one_policy, hpol])
    exact .quiesce_of_writeControl hb ⟨hheld _, Chip.writeControl_ctx habort hx hended hdel⟩
  · have hclear : bit (v &&& ~~~(1 : Word)) 0 = false := by simp [bit]
    obtain ⟨hquiesced, htimeout⟩ := Chip.writeControl_resume (c := c) hclear
    exact .resume_of_writeControl hb ⟨hheld _, hquiesced, htimeout, Chip.writeControl_ctxs (Chip.withControl_resume hclear)⟩
  · refine .of_run (f := Chip.drainTimeout) rfl ?_
    rw [Chip.drainTimeout_of_expired hruns htime hreq hpol]
    exact ⟨congrArg ReqTable.timeoutRuns (Chip.abortAll_req _), Chip.abortAll_ctx hx hended hdel⟩

end Sys2Proof.Machine
end

section
/-! The count of a window's active Requests when one of them completes (R24, R420). -/

namespace Sys2Proof.Machine

/-- A Request that has ended with its deadline, which its window no longer counts and whose delivery is not cut off. -/
def uncountedRequest : Ctx :=
  { desc := List.replicate 64 0, port := 0, window := 0, arrival := 0, area := 0, digest := [], tag := 0, stages := [], drops := 0,
    ended := some (0x16, 0), delivering := false, recordBytes := 0, seq := 0, cut := false, gone := true }

/-- A package whose window 0 of port 0 counts one Request and waits to complete the uncounted one. -/
def completesUncounted : State :=
  { pending := [],
    chip := { Chip.reset with
      req := { ReqTable.reset with ctxs := [(0, uncountedRequest)] }
      ports := [(0, { Port.reset with linkUp := true, windows := [(0, { Window.reset with cplQ := [.request 0], active := 1 })] })] } }

/-- The completion of the uncounted Request leaves the window's count at 1. -/
theorem completesUncounted_active : ((completesUncounted.chip.completion 0 0).window 0 0).active = 1 := rfl

/-- Refutes O35: the clause of the completion takes 1 from the window's count whatever the Request, but the model leaves the count as it is for a
Request that the window no longer counts. The clause's premise `cut = false` does not say `gone = false`: a port's reset sets both (R420), but the
statement is about every state, and a context can hold the one without the other. -/
theorem not_deliveryAndCompletion : ¬ Obligations.DeliveryAndCompletion := by
  unfold Obligations.DeliveryAndCompletion
  rintro ⟨-, hcompletion⟩
  have hready : (completesUncounted.chip.window 0 0).cplQ.find? completesUncounted.chip.cplReady = some (.request 0) := by decide
  have hroom : 1 ≤ (completesUncounted.chip.window 0 0).cplRoom := by decide
  obtain ⟨hrecord, -⟩ := hcompletion completesUncounted 0 0 0 uncountedRequest rfl rfl
  obtain ⟨t, ht, -, -, -, -, -, hactive, -⟩ := hrecord hready rfl rfl rfl rfl hroom
  have hrun : t = { completesUncounted with chip := completesUncounted.chip.completion 0 0 } := (Host.Outcome.next.inj ht).symm
  have hcount : (t.chip.window 0 0).active = 0 := hactive
  rw [hrun, completesUncounted_active] at hcount
  exact absurd hcount (by decide)

end Sys2Proof.Machine
end

section
/-! Which functions of the model leave memory as it is. -/

namespace Sys2Proof.Machine

/-- Updates one after another that leave memory as it is leave it as it is. -/
@[simp] theorem Chip.foldl_mem {α : Type} {f : Chip → α → Chip} (h : ∀ c a, (f c a).mem = c.mem) (l : List α) (c : Chip) :
    (l.foldl f c).mem = c.mem := by
  induction l generalizing c with
  | nil => rfl
  | cons a t ih => exact (ih _).trans (h c a)

/-! Operations that meanings share. -/

@[simp] theorem Chip.stallSmsg_mem (c : Chip) (l : Loc) : (c.stallSmsg l).mem = c.mem := by simp [Chip.stallSmsg, Chip.stallSlot_mem]

@[simp] theorem Chip.stallEngine_mem (c : Chip) (fc e : Nat) (why : Cause) : (c.stallEngine fc e why).mem = c.mem := by
  fun_cases Chip.stallEngine <;> simp

@[simp] theorem Chip.retireAt_mem (c : Chip) (l : Loc) (s : Slot) (pc : Word) (vector : Bool) :
    (c.retireAt l s pc vector).mem = c.mem := rfl

@[simp] theorem Chip.retire_mem (c : Chip) (l : Loc) (s : Slot) : (c.retire l s).mem = c.mem := rfl

@[simp] theorem Chip.retireVec_mem (c : Chip) (l : Loc) (s : Slot) : (c.retireVec l s).mem = c.mem := rfl

@[simp] theorem Chip.msix_mem (c : Chip) (port vector : Nat) : (c.msix port vector).mem = c.mem := by
  fun_cases Chip.msix <;> simp

@[simp] theorem Chip.busWrites_mem (c : Chip) (port addr : Nat) (data : List Byte) (relaxed noSnoop : Bool) :
    (c.busWrites port addr data relaxed noSnoop).mem = c.mem := rfl

theorem Chip.busAsk_mem {c d : Chip} {reader : BusReader} {ctx port addr len : Nat} (h : c.busAsk reader ctx port addr len = some d) :
    d.mem = c.mem := by
  obtain ⟨-, hnone⟩ | ⟨-, e, hsome, hrest, -, -⟩ := c.busAsk_cases reader ctx port addr len
  · simp [hnone] at h
  · obtain rfl : e = d := by simpa [hsome] using h
    exact (congrArg Chip.mem hrest :)

@[simp] theorem Chip.signalVec_mem (c : Chip) (port : Nat) (vec : Word) : (c.signalVec port vec).mem = c.mem := by
  unfold Chip.signalVec
  split <;> simp

@[simp] theorem Chip.mcEvent_mem (c : Chip) (i : Nat) : (c.mcEvent i).mem = c.mem := by
  unfold Chip.mcEvent
  split <;> simp

@[simp] theorem Chip.logGap_mem (c : Chip) : (c.logGap).mem = c.mem := by
  unfold Chip.logGap
  split <;> simp

@[simp] theorem Chip.logNow_mem (c : Chip) (e : LogEntry) : (c.logNow e).mem = c.mem := by
  unfold Chip.logNow
  split <;> simp

@[simp] theorem Chip.log_mem (c : Chip) (code severity source : Nat) (payload : List Byte) :
    (c.log code severity source payload).mem = c.mem := by
  unfold Chip.log
  split <;> simp

@[simp] theorem Chip.wakePool_mem (c : Chip) (o : Nat) : (c.wakePool o).mem = c.mem := by
  have h := congrArg Chip.mem (c.wakePool_rest o)
  exact h

@[simp] theorem Chip.queueAt_mem (c : Chip) (a : Nat) (w : Waiting) : (c.queueAt a w).mem = c.mem := rfl

@[simp] theorem Chip.memAccess_mem (c : Chip) (requester cls : Nat) (tag : Option Word) (o : Nat) :
    (c.memAccess requester cls tag o).mem = c.mem := by
  have h := congrArg Chip.mem (c.memAccess_rest requester cls tag o)
  exact h

@[simp] theorem Chip.pushCpl_mem (c : Chip) (port w : Nat) (i : CplItem) : (c.pushCpl port w i).mem = c.mem := rfl

@[simp] theorem Chip.endReq_mem (c : Chip) (ctx : Nat) (status : Nat) (detail : BitVec 32) : (c.endReq ctx status detail).mem = c.mem := by
  fun_cases Chip.endReq <;> simp

@[simp] theorem Chip.purgeHandles_mem (c : Chip) (ctx : Nat) : (c.purgeHandles ctx).mem = c.mem := rfl

@[simp] theorem Chip.killReq_mem (c : Chip) (ctx : Nat) : (c.killReq ctx).mem = c.mem := rfl

@[simp] theorem Chip.checkQuiesced_mem (c : Chip) : (c.checkQuiesced).mem = c.mem := rfl

@[simp] theorem Chip.excEnd_mem (c : Chip) (l : Loc) (cause : Word) : (c.excEnd l cause).mem = c.mem := by
  fun_cases Chip.excEnd <;> simp

@[simp] theorem Chip.doubleFault_mem (c : Chip) (l : Loc) (reason : Nat) (cause epc addr : Word) :
    (c.doubleFault l reason cause epc addr).mem = c.mem := rfl

@[simp] theorem Chip.pushFrame_mem (c : Chip) (l : Loc) (frame : List SbEntry) : (c.pushFrame l frame).mem = c.mem := rfl

@[simp] theorem Chip.exc_mem (c : Chip) (l : Loc) (cause epc addr : Word) : (c.exc l cause epc addr).mem = c.mem := by
  fun_cases Chip.exc <;> simp +zetaDelta

@[simp] theorem Chip.fault_mem (c : Chip) (l : Loc) (cause addr : Word) : (c.fault l cause addr).mem = c.mem := by simp [Chip.fault]

@[simp] theorem Chip.landed_mem (c : Chip) (l : Loc) : (c.landed l).mem = c.mem := by
  fun_cases Chip.landed <;> simp

/-- An instruction that is issued keeps memory when what it does with its slot does. -/
theorem Chip.issue_mem {c : Chip} {l : Loc} {f : Slot → Chip} (hf : ∀ x d, f x = d → d.mem = c.mem) : (c.issue l f).mem = c.mem := by
  obtain h | h | h := c.issue_cases l f <;> rw [h]
  · exact hf _ _ rfl
  · exact c.exc_mem l _ _ _

@[simp] theorem Chip.logUncorr_mem (c : Chip) (own : Option Nat) (a : Word) (ctx : Nat) : (c.logUncorr own a ctx).mem = c.mem := by
  fun_cases Chip.logUncorr <;> simp

@[simp] theorem Chip.slotEcc_mem (c0 : Chip) (l : Loc) (a : Word) : (c0.slotEcc l a).mem = c0.mem := by simp [Chip.slotEcc]

@[simp] theorem Chip.engineError_mem (c : Chip) (fc e : Nat) (x : EngCmd) (status code : Nat) :
    (c.engineError fc e x status code).mem = c.mem := by
  simp [Chip.engineError]

/-! The network. -/

@[simp] theorem Chip.netCount_mem (c : Chip) (i n : Nat) : (c.netCount i n).mem = c.mem := rfl

@[simp] theorem Chip.sendOn_mem (c : Chip) (n : Nat) (m : Msg) : (c.sendOn n m).mem = c.mem := by
  unfold Chip.sendOn
  split <;> simp

@[simp] theorem Chip.inject_mem (c : Chip) (m : Msg) : (c.inject m).mem = c.mem := by
  fun_cases Chip.inject <;> simp

@[simp] theorem Chip.send_mem (c : Chip) (m : Msg) : (c.send m).mem = c.mem := by
  unfold Chip.send
  split <;> simp

@[simp] theorem Chip.joinRead_mem (c : Chip) (e : Merge) (m : Msg) : (c.joinRead e m).mem = c.mem := rfl

@[simp] theorem Chip.noteRead_mem (c : Chip) (m : Msg) : (c.noteRead m).mem = c.mem := rfl

@[simp] theorem Chip.askSlice_mem (c : Chip) (m : Msg) : (c.askSlice m).mem = c.mem := by
  fun_cases Chip.askSlice <;> simp

@[simp] theorem Chip.remote_mem (c : Chip) (fc : Nat) (who : Holder) (kind : TrkKind) (t : Target) (pkg size : Nat) (data : List Byte) (ctx : Nat)
    (tag : Word) : (c.remote fc who kind t pkg size data ctx tag).1.mem = c.mem := by
  simp [Chip.remote]

@[simp] theorem Chip.illegal_mem (c : Chip) (l : Loc) (word : Word) : (c.illegal l word).mem = c.mem := by simp [Chip.illegal]

/-! Instructions of a core. -/

@[simp] theorem Chip.alu_mem (c : Chip) (l : Loc) (rd ra rb : Reg) (f : Word → Word → Word) : (c.alu l rd ra rb f).mem = c.mem := by
  unfold Chip.alu
  refine Chip.issue_mem fun s d hd => ?_
  simp [← hd]

@[simp] theorem Chip.aluI_mem (c : Chip) (l : Loc) (rd ra : Reg) (f : Word → Word) : (c.aluI l rd ra f).mem = c.mem := by
  unfold Chip.aluI
  refine Chip.issue_mem fun s d hd => ?_
  simp [← hd]

@[simp] theorem Chip.slotRemoteEnd_mem (c : Chip) (l : Loc) (pkg : Nat) :
    (c.slotRemoteEnd l pkg).mem = c.mem := by
  simp [Chip.slotRemoteEnd]

@[simp] theorem Chip.slotRead_mem (c : Chip) (l : Loc) (kind : TrkKind) (t : Target) (pkg size : Nat) (data : List Byte) (dst : LoadDst) :
    (c.slotRead l kind t pkg size data dst).mem = c.mem := by
  fun_cases Chip.slotRead <;> simp +zetaDelta [Chip.stallSlot_mem]

@[simp] theorem Chip.loadReg_mem (c : Chip) (l : Loc) (s : Slot) (rd : Reg) (ea : Word) (n : Nat) (sgn : Bool) :
    (c.loadReg l s rd ea n sgn).mem = c.mem := by
  fun_cases Chip.loadReg <;> simp [Chip.stallSlot_mem]

@[simp] theorem Chip.loadAt_mem (c : Chip) (l : Loc) (s : Slot) (rd : Reg) (t : Target) (n : Nat) (sgn ecc : Bool) :
    (c.loadAt l s rd t n sgn ecc).mem = c.mem := by
  fun_cases Chip.loadAt <;> simp [Chip.stallSlot_mem, Chip.here_mem]

@[simp] theorem Chip.load_mem (c : Chip) (l : Loc) (rd ra : Reg) (imm : BitVec 16) (n : Nat) (sgn ecc : Bool) :
    (c.load l rd ra imm n sgn ecc).mem = c.mem := by
  unfold Chip.load
  refine Chip.issue_mem fun s d hd => ?_
  extract_lets at hd
  repeat' split at hd
  all_goals simp [← hd, Chip.stallSlot_mem]

@[simp] theorem Chip.store_mem (c : Chip) (l : Loc) (rs ra : Reg) (imm : BitVec 16) (n : Nat) : (c.store l rs ra imm n).mem = c.mem := by
  unfold Chip.store
  refine Chip.issue_mem fun s d hd => ?_
  extract_lets at hd
  repeat' split at hd
  all_goals simp [← hd, Chip.stallSlot_mem]

@[simp] theorem Chip.reserveHome_mem (c : Chip) (pkg who off : Nat) : (c.reserveHome pkg who off).mem = c.mem := rfl

@[simp] theorem Chip.unreserveHome_mem (c : Chip) (pkg who : Nat) : (c.unreserveHome pkg who).mem = c.mem := rfl

@[simp] theorem Chip.ldrv_mem (c : Chip) (l : Loc) (rd ra : Reg) (imm : BitVec 16) (ecc : Bool) : (c.ldrv l rd ra imm ecc).mem = c.mem := by
  unfold Chip.ldrv
  refine Chip.issue_mem fun s d hd => ?_
  extract_lets at hd
  repeat' split at hd
  all_goals simp [← hd, Chip.stallSlot_mem, Chip.here_mem]

@[simp] theorem Chip.rsvTimeout_mem (c : Chip) (l : Loc) : (c.rsvTimeout l).mem = c.mem := by
  fun_cases Chip.rsvTimeout <;> simp

@[simp] theorem Chip.branch_mem (c : Chip) (l : Loc) (ra rb : Reg) (off : BitVec 16) (cond : Word → Word → Bool) :
    (c.branch l ra rb off cond).mem = c.mem := by
  unfold Chip.branch
  refine Chip.issue_mem fun s d hd => ?_
  split at hd <;> simp [← hd]

@[simp] theorem Chip.setStage_mem (c : Chip) (ctx stage : Nat) (st : StageState) : (c.setStage ctx stage st).mem = c.mem := by
  unfold Chip.setStage
  split <;> simp

@[simp] theorem Chip.strCfg_mem (c : Chip) (l : Loc) (i : Nat) (v : Word) (s : Slot) : (c.strCfg l i v s).mem = c.mem := rfl

@[simp] theorem Chip.strRing_mem (c : Chip) (l : Loc) (rd : Reg) (i : Nat) (s : Slot) : (c.strRing l rd i s).mem = c.mem := by
  fun_cases Chip.strRing <;> simp [Chip.stallSlot_mem]

@[simp] theorem Chip.strHand_mem (c : Chip) (l : Loc) (i : Nat) (v : Word) (s : Slot) : (c.strHand l i v s).mem = c.mem := rfl

@[simp] theorem Chip.setHq_mem (c : Chip) (fc q : Nat) (l : List Handle) : (c.setHq fc q l).mem = c.mem := by
  unfold Chip.setHq
  split <;> simp

@[simp] theorem Chip.hqAdd_mem (c : Chip) (fc q : Nat) (v : Word) (ctx : Option Nat) :
    (c.hqAdd fc q v ctx).mem = c.mem := by
  simp [Chip.hqAdd]

@[simp] theorem Chip.askElems_mem (c : Chip) (l : Loc) (n : Nat) (es : List (Nat × Target × Nat)) : (c.askElems l n es).1.mem = c.mem := by
  induction es generalizing c with
  | nil => rfl
  | cons e t ih => simp [Chip.askElems, ih]

@[simp] theorem Chip.sendElems_mem (c : Chip) (l : Loc) (addr : Nat → Word) (u : Nat) (v : VReg) (is : List Nat) :
    (c.sendElems l addr u v is).mem = c.mem := by
  fun_induction Chip.sendElems c l addr u v is <;> simp_all +zetaDelta

@[simp] theorem Chip.vint_mem (c : Chip) (l : Loc) (func : BitVec 4) (vd va vb : Reg) (mask : BitVec 3) (ty : BitVec 4) :
    (c.vint l func vd va vb mask ty).mem = c.mem := by
  unfold Chip.vint
  refine Chip.issue_mem fun s d hd => ?_
  extract_lets at hd
  split at hd <;> simp [← hd]

@[simp] theorem Chip.vfp_mem (c : Chip) (l : Loc) (func : BitVec 4) (vd va vb : Reg) (mask : BitVec 3) (ty : BitVec 4) :
    (c.vfp l func vd va vb mask ty).mem = c.mem := by
  unfold Chip.vfp
  refine Chip.issue_mem fun s d hd => ?_
  extract_lets at hd
  split at hd <;> simp [← hd]

@[simp] theorem Chip.vcmp_mem (c : Chip) (l : Loc) (func : BitVec 4) (vd va vb : Reg) (mask : BitVec 3) (ty : BitVec 4) :
    (c.vcmp l func vd va vb mask ty).mem = c.mem := by
  unfold Chip.vcmp
  refine Chip.issue_mem fun s d hd => ?_
  extract_lets at hd
  split at hd <;> simp [← hd]

@[simp] theorem Chip.vmisc_mem (c : Chip) (l : Loc) (func : BitVec 4) (vd va vb : Reg) (mask : BitVec 3) (ty : BitVec 4) (f : Nat → Slot → Slot) :
    (c.vmisc l func vd va vb mask ty f).mem = c.mem := by
  unfold Chip.vmisc
  refine Chip.issue_mem fun s d hd => ?_
  split at hd <;> simp [← hd]

@[simp] theorem Chip.swHere_mem (c : Chip) (l : Loc) (a : Word) : (c.swHere l a).mem = c.mem := by
  fun_cases Chip.swHere <;> simp [Chip.here_mem]

/-! Embedding tables. -/

@[simp] theorem Chip.purgeTable_mem (c : Chip) (t : Nat) : (c.purgeTable t).mem = c.mem := rfl

@[simp] theorem Chip.tableWrite_mem (c : Chip) (n : Nat) (reg : TableReg) (v : Word) : (c.tableWrite n reg v).mem = c.mem := by
  unfold Chip.tableWrite
  split <;> simp

@[simp] theorem Chip.hotError_mem (c : Chip) (t r d : Nat) : (c.hotError t r d).mem = c.mem := by simp [Chip.hotError]

@[simp] theorem Chip.trackSlice_mem (c : Chip) (t r : Nat) : (c.trackSlice t r).mem = c.mem := by
  fun_cases Chip.trackSlice <;> simp

@[simp] theorem Chip.countSlice_mem (c : Chip) (t r d : Nat) :
    (c.countSlice t r d).mem = c.mem := by
  simp [Chip.countSlice, apply_ite Chip.mem]

@[simp] theorem Chip.countPoison_mem (c : Chip) (t r : Nat) : (c.countPoison t r).mem = c.mem := by simp [Chip.countPoison]

@[simp] theorem Chip.poisonRow_mem (c : Chip) (t r : Nat) : (c.poisonRow t r).mem = c.mem := by simp [Chip.poisonRow, apply_ite Chip.mem]

/-! Engine commands. -/

@[simp] theorem Chip.countTag_mem (c : Chip) (fc : Nat) (tag : Option Word) : (c.countTag fc tag).mem = c.mem := by
  unfold Chip.countTag
  split <;> simp

@[simp] theorem Chip.engineAsk_mem (c : Chip) (fc e : Nat) (x : EngCmd) (a : Ask) : (c.engineAsk fc e x a).mem = c.mem := by
  fun_cases Chip.engineAsk c fc e x a
  case case5 hd => simpa using Chip.busAsk_mem hd
  all_goals simp +zetaDelta [apply_ite Chip.mem]

@[simp] theorem Chip.failCmd_mem (c : Chip) (fc e : Nat) (x : EngCmd) (status code : Nat) : (c.failCmd fc e x status code).mem = c.mem := by
  simp [Chip.failCmd]

@[simp] theorem Chip.finishCmd_mem (c : Chip) (fc e : Nat) (x : EngCmd) : (c.finishCmd fc e x).mem = c.mem := by
  fun_cases Chip.finishCmd <;> simp +zetaDelta

@[simp] theorem Chip.engineStop_mem (c : Chip) (fc e : Nat) (x : EngCmd) (st : Stop) : (c.engineStop fc e x st).mem = c.mem := by
  cases st <;> simp [Chip.engineStop, apply_ite Chip.mem]

@[simp] theorem Chip.takeStart_mem (c : Chip) (fc e : Nat) : (c.takeStart fc e).mem = c.mem := by
  fun_cases Chip.takeStart <;> simp +zetaDelta

@[simp] theorem Chip.dropHead_mem (c : Chip) (fc e : Nat) (x : EngCmd) : (c.dropHead fc e x).mem = c.mem := by
  fun_cases Chip.dropHead <;> simp

@[simp] theorem Chip.completeCmd_mem (c : Chip) (fc e : Nat) : (c.completeCmd fc e).mem = c.mem := by
  fun_cases Chip.completeCmd <;> simp +zetaDelta

@[simp] theorem Chip.putDone_mem (c : Chip) (fc e : Nat) : (c.putDone fc e).mem = c.mem := by
  fun_cases Chip.putDone <;> simp

@[simp] theorem Chip.pelotonMember_mem (c : Chip) (fc : Nat) (x : EngCmd) : (c.pelotonMember fc x).mem = c.mem := by
  fun_cases Chip.pelotonMember <;> simp +zetaDelta

/-! Embedding. -/

@[simp] theorem Chip.countServed_mem (c : Chip) (t d : Nat) (served : List (Nat × Nat)) : (c.countServed t d served).mem = c.mem := by
  simp [Chip.countServed, apply_ite Chip.mem]

@[simp] theorem gatherEffect_mem (fc : Nat) (x : EngCmd) (t : Nat) (p : Positions) (served : List (Nat × Nat)) (mask : List Bool) (free : Nat)
    (c : Chip) : (gatherEffect fc x t p served mask free c).mem = c.mem := by
  unfold gatherEffect
  dsimp only
  split <;> split <;> simp

@[simp] theorem Chip.pickMove_mem (c : Chip) (x : Track) (load : SMap Nat) : (c.pickMove x load).1.mem = c.mem := by
  fun_cases Chip.pickMove c x load <;> rfl

@[simp] theorem pickMoves_mem (sources : List Nat) (hot : List (Nat × Nat)) (xs : List Track) (n : Nat) (c : Chip) (load : SMap Nat) :
    (pickMoves sources hot xs n c load).mem = c.mem := by
  fun_induction pickMoves sources hot xs n c load <;> simp_all +zetaDelta

@[simp] theorem Chip.measEnd_mem (c : Chip) : (c.measEnd).mem = c.mem := by
  unfold Chip.measEnd
  split <;> simp

/-! Collectives. -/

@[simp] theorem Chip.lostCmd_mem (c : Chip) (fc e : Nat) (x : EngCmd) (pkg : Nat) :
    (c.lostCmd fc e x pkg).mem = c.mem := by
  simp [Chip.lostCmd]

@[simp] theorem Chip.collLost_mem (c : Chip) (kind root name pkg : Nat) : (c.collLost kind root name pkg).mem = c.mem := by
  unfold Chip.collLost
  exact Chip.foldl_mem (fun c fc => by split <;> simp) _ c

@[simp] theorem Chip.resultFor_mem (c : Chip) (fc kind pass code : Nat) (data : List Byte) (x : EngCmd) :
    (c.resultFor fc kind pass code data x).mem = c.mem := by
  fun_cases Chip.resultFor <;> simp

@[simp] theorem Chip.resultHere_mem (c : Chip) (kind root name pass code : Nat) (data : List Byte) :
    (c.resultHere kind root name pass code data).mem = c.mem := by
  unfold Chip.resultHere
  exact Chip.foldl_mem (fun c fc => by split <;> simp) _ c

@[simp] theorem Chip.setRoot_mem (c : Chip) (r : Root) (ended : Bool) : (c.setRoot r ended).mem = c.mem := rfl

@[simp] theorem Chip.report_mem (c : Chip) (r : Root) (pass code : Nat) (data : List Byte) : (c.report r pass code data).mem = c.mem := by
  simp [Chip.report, apply_ite Chip.mem]

@[simp] theorem Chip.refuseAll_mem (c : Chip) (r : Root) : (c.refuseAll r).mem = c.mem := by simp [Chip.refuseAll, apply_ite Chip.mem]

@[simp] theorem Chip.tryPass_mem (c : Chip) (r : Root) (pass : Nat) : (c.tryPass r pass).mem = c.mem := by
  fun_cases Chip.tryPass <;> simp

@[simp] theorem Chip.tellEnd_mem (c : Chip) (r : Root) (code : Nat) : (c.tellEnd r code).mem = c.mem := by
  unfold Chip.tellEnd
  split <;> simp

@[simp] theorem Chip.rootList_mem (c : Chip) (name : Nat) (l : List Nat) : (c.rootList name l).mem = c.mem := by
  fun_cases Chip.rootList <;> simp

@[simp] theorem Chip.sendList_mem (c : Chip) (name root ctx part : Nat) (l : List Nat) : (c.sendList name root ctx part l).mem = c.mem := by
  unfold Chip.sendList
  split <;> simp

/-! ALL_TO_ALL. -/

@[simp] theorem Chip.a2aOffsetHere_mem (c : Chip) (receiver name part off : Nat) : (c.a2aOffsetHere receiver name part off).mem = c.mem := by
  simp [Chip.a2aOffsetHere, apply_ite Chip.mem]

@[simp] theorem Chip.a2aResultHere_mem (c : Chip) (receiver name code : Nat) : (c.a2aResultHere receiver name code).mem = c.mem := by
  simp [Chip.a2aResultHere, apply_ite Chip.mem]

@[simp] theorem Chip.a2aReport_mem (c : Chip) (a : A2aRecv) (code : Nat) : (c.a2aReport a code).mem = c.mem := by
  simp [Chip.a2aReport, apply_ite Chip.mem]

@[simp] theorem Chip.setA2a_mem (c : Chip) (a : A2aRecv) (ended : Bool) : (c.setA2a a ended).mem = c.mem := rfl

@[simp] theorem Chip.a2aSettle_mem (c : Chip) (a : A2aRecv) : (c.a2aSettle a).mem = c.mem := by
  unfold Chip.a2aSettle
  split <;> simp

@[simp] theorem Chip.a2aLanded_mem (c : Chip) (o n : Nat) : (c.a2aLanded o n).mem = c.mem := by
  unfold Chip.a2aLanded
  split <;> simp

/-! Messages. -/

@[simp] theorem Chip.relayOn_mem (c : Chip) (n port dclass : Nat) (m : Msg) : (c.relayOn n port dclass m).mem = c.mem := by
  fun_cases Chip.relayOn <;> simp

@[simp] theorem Chip.relay_mem (c : Chip) (came : Option (Nat × Nat)) (m : Msg) : (c.relay came m).mem = c.mem := by
  fun_cases Chip.relay <;> simp

@[simp] theorem Chip.mergeRead_mem (c : Chip) (came : Option (Nat × Nat)) (m : Msg) : (c.mergeRead came m).mem = c.mem := by
  fun_cases Chip.mergeRead <;> simp

/-- Copies of an answer keep memory when serving one here does. -/
theorem Chip.copyAnswer_mem {c : Chip} {m : Msg} {serve : Msg → Chip → Chip} (hs : ∀ a d, (serve a d).mem = d.mem) :
    (c.copyAnswer m serve).mem = c.mem := by
  unfold Chip.copyAnswer
  split
  · rfl
  · exact Chip.foldl_mem (fun d q => by dsimp only; split <;> simp [hs, apply_ite Chip.mem]) _ _

@[simp] theorem Chip.reinject_mem (c : Chip) (m : Msg) : (c.reinject m).mem = c.mem := by
  unfold Chip.reinject
  split <;> simp

@[simp] theorem Chip.answer_mem (c : Chip) (m : Msg) (mtype : Nat) (data : List Byte) :
    (c.answer m mtype data).mem = c.mem := by
  simp [Chip.answer]

@[simp] theorem Chip.refuseTag_mem (c : Chip) (m : Msg) (noTracker : Bool) :
    (c.refuseTag m noTracker).mem = c.mem := by
  simp [Chip.refuseTag]

@[simp] theorem Chip.homeBytes_mem (c : Chip) (m : Msg) (o n : Nat) : (c.homeBytes m o n).2.mem = c.mem := by
  fun_cases Chip.homeBytes c m o n <;> simp

/-- A message of a Request keeps memory when serving it at its home does. -/
theorem Chip.atHome_mem {c : Chip} {m : Msg} {f : Chip → Chip} (hf : (f c).mem = c.mem) : (c.atHome m f).mem = c.mem := by
  fun_cases Chip.atHome c m f <;> simp [hf]

@[simp] theorem Chip.serveRd_mem (c : Chip) (m : Msg) : (c.serveRd m).mem = c.mem := Chip.atHome_mem (by simp)

@[simp] theorem Chip.serveRsv_mem (c : Chip) (m : Msg) : (c.serveRsv m).mem = c.mem := Chip.atHome_mem (by simp)

@[simp] theorem Chip.answerSlice_mem (c : Chip) (m : Msg) (row : Nat) (data : Option (List Byte)) :
    (c.answerSlice m row data).mem = c.mem := by
  unfold Chip.answerSlice
  split <;> simp

@[simp] theorem Chip.servePoisoned_mem (c : Chip) (m : Msg) (t row : Nat) : (c.servePoisoned m t row).mem = c.mem := by
  fun_cases Chip.servePoisoned <;> simp

@[simp] theorem Chip.serveSlice_mem (c : Chip) (m : Msg) (ecc : Bool) (row : Nat) : (c.serveSlice m ecc row).mem = c.mem := by
  simp [Chip.serveSlice, apply_ite Chip.mem]

@[simp] theorem Chip.serveSliceRd_mem (c : Chip) (m : Msg) (ecc : Bool) : (c.serveSliceRd m ecc).mem = c.mem := by
  fun_cases Chip.serveSliceRd <;> simp

@[simp] theorem Chip.dropTrk_mem (c : Chip) (fc : Nat) (t : Trk) (answered : Bool) : (c.dropTrk fc t answered).mem = c.mem := rfl

@[simp] theorem Chip.loadDone_mem (c : Chip) (l : Loc) (pkg : Nat) (p : PendLoad) : (c.loadDone l pkg p).mem = c.mem := by
  unfold Chip.loadDone
  split <;> simp

@[simp] theorem Chip.slotAnswer_mem (c : Chip) (l : Loc) (t : Trk) (data : List Byte) : (c.slotAnswer l t data).mem = c.mem := by
  unfold Chip.slotAnswer
  dsimp only
  repeat' split
  all_goals simp

@[simp] theorem Chip.engineAnswer_mem (c : Chip) (fc e key : Nat) (data : List Byte) : (c.engineAnswer fc e key data).mem = c.mem := rfl

@[simp] theorem Chip.takeData_mem (c : Chip) (m : Msg) (ok : TrkKind → Bool) : (c.takeData m ok).mem = c.mem := by
  fun_cases Chip.takeData <;> simp +zetaDelta

@[simp] theorem Chip.engineAcked_mem (c : Chip) (fc : Nat) (t : Trk) : (c.engineAcked fc t).mem = c.mem := by
  fun_cases Chip.engineAcked <;> simp

@[simp] theorem Chip.takeAck_mem (c : Chip) (m : Msg) : (c.takeAck m).mem = c.mem := by
  fun_cases Chip.takeAck <;> simp +zetaDelta

@[simp] theorem Chip.takeCredit_mem (c : Chip) (m : Msg) : (c.takeCredit m).mem = c.mem := by
  fun_cases Chip.takeCredit <;> simp

@[simp] theorem Chip.loseOp_mem (c : Chip) (fc : Nat) (t : Trk) (status : Nat) (detail : BitVec 32) :
    (c.loseOp fc t status detail).mem = c.mem := by
  unfold Chip.loseOp
  split <;> simp

@[simp] theorem Chip.loseSlice_mem (c : Chip) (fc : Nat) (m : Msg) : (c.loseSlice fc m).mem = c.mem := by
  fun_cases Chip.loseSlice <;> simp +zetaDelta

@[simp] theorem Chip.losePoison_mem (c : Chip) (fc : Nat) (t : Trk) : (c.losePoison fc t).mem = c.mem := by
  fun_cases Chip.losePoison <;> simp

@[simp] theorem Chip.timeOut_mem (c : Chip) (fc id : Nat) : (c.timeOut fc id).mem = c.mem := by
  unfold Chip.timeOut
  split <;> simp

@[simp] theorem Chip.sliceFor_mem (c : Chip) (fc : Nat) (m : Msg) : (c.sliceFor fc m).mem = c.mem := by
  fun_cases Chip.sliceFor <;> simp +zetaDelta

@[simp] theorem Chip.takeSlice_mem (c : Chip) (m : Msg) : (c.takeSlice m).mem = c.mem :=
  (Chip.foldl_mem (fun d fc => by simp) _ _).trans (Chip.copyAnswer_mem (fun _ _ => rfl))

@[simp] theorem Chip.takeResult_mem (c : Chip) (m : Msg) : (c.takeResult m).mem = c.mem := by
  unfold Chip.takeResult
  split <;> simp

/-! Network epochs. -/

@[simp] theorem Chip.logLink_mem (c : Chip) (n : Nat) (old new : LinkState) : (c.logLink n old new).mem = c.mem := by simp [Chip.logLink]

@[simp] theorem Chip.moveLink_mem (c : Chip) (n : Nat) (st : LinkState) : (c.moveLink n st).mem = c.mem := by
  fun_cases Chip.moveLink <;> simp +zetaDelta

@[simp] theorem Chip.flood_mem (c : Chip) (r : Report) (from_ : Option Nat) : (c.flood r from_).mem = c.mem :=
  Chip.foldl_mem (fun d n => by simp) _ _

@[simp] theorem Chip.freezeNow_mem (c : Chip) (p : EpochPlan) : (c.freezeNow p).mem = c.mem := rfl

@[simp] theorem Chip.refuseJoins_mem (c : Chip) : (c.refuseJoins).mem = c.mem := by simp [Chip.refuseJoins]

@[simp] theorem Chip.sendFreeze_mem (c : Chip) (p : EpochPlan) : (c.sendFreeze p).mem = c.mem := by simp [Chip.sendFreeze]

@[simp] theorem Chip.gather_mem (c : Chip) (r : Report) : (c.gather r).mem = c.mem := by
  fun_cases Chip.gather <;> simp +zetaDelta

@[simp] theorem Chip.reportChange_mem (c : Chip) (r : Report) : (c.reportChange r).mem = c.mem := by simp [Chip.reportChange]

@[simp] theorem Chip.takeReport_mem (c : Chip) (n : Nat) (r : Report) : (c.takeReport n r).mem = c.mem := by
  unfold Chip.takeReport
  split <;> simp

@[simp] theorem Chip.joinReport_mem (c : Chip) : (c.joinReport).mem = c.mem := by
  unfold Chip.joinReport
  split <;> simp

@[simp] theorem Chip.linkDown_mem (c : Chip) (n : Nat) (to_ : LinkState) : (c.linkDown n to_).mem = c.mem := by
  unfold Chip.linkDown
  split <;> simp

@[simp] theorem Chip.takeFreeze_mem (c : Chip) (p : EpochPlan) : (c.takeFreeze p).mem = c.mem := by
  unfold Chip.takeFreeze
  split <;> simp

@[simp] theorem Chip.noteDrained_mem (c : Chip) (pkg : Nat) : (c.noteDrained pkg).mem = c.mem := by
  fun_cases Chip.noteDrained <;> simp +zetaDelta

@[simp] theorem Chip.drainQuiet_mem (c : Chip) : (c.drainQuiet).mem = c.mem := by
  fun_cases Chip.drainQuiet <;> simp

@[simp] theorem Chip.endOps_mem (c : Chip) (pkg : Nat) : (c.endOps pkg).mem = c.mem :=
  Chip.foldl_mem (fun d fc => Chip.foldl_mem (fun e t => by simp) _ d) _ c

@[simp] theorem Chip.endCollectives_mem (c : Chip) (pkg : Nat) : (c.endCollectives pkg).mem = c.mem := by
  unfold Chip.endCollectives
  dsimp only
  exact Chip.foldl_mem (fun d fc => Chip.foldl_mem (fun e n => by split <;> simp [apply_ite Chip.mem]) _ d) _ c

@[simp] theorem Chip.moveLinks_mem (c : Chip) : c.moveLinks.mem = c.mem :=
  Chip.foldl_mem (fun d n => by dsimp only; split <;> simp [apply_ite Chip.mem]) _ c

@[simp] theorem Chip.commit_mem (c : Chip) (p : EpochPlan) (tide : Word) : (c.commit p tide).mem = c.mem := by
  simp [Chip.commit, apply_ite Chip.mem]

@[simp] theorem Chip.takeCommit_mem (c : Chip) (epoch : BitVec 32) (tide : Word) : (c.takeCommit epoch tide).mem = c.mem := by
  fun_cases Chip.takeCommit <;> simp

@[simp] theorem Chip.resume_mem (c : Chip) : (c.resume).mem = c.mem := by simp [Chip.resume, apply_ite Chip.mem]

@[simp] theorem Chip.collectOver_mem (c : Chip) : (c.collectOver).mem = c.mem := by
  unfold Chip.collectOver
  split <;> simp

@[simp] theorem Chip.freezeOver_mem (c : Chip) (pkg : Nat) : (c.freezeOver pkg).mem = c.mem := by
  fun_cases Chip.freezeOver <;> simp

@[simp] theorem Chip.failover_mem (c : Chip) : (c.failover).mem = c.mem := by
  fun_cases Chip.failover <;> simp

/-! Links. -/

@[simp] theorem Chip.retrain_mem (c : Chip) (n : Nat) : (c.retrain n).mem = c.mem := by
  fun_cases Chip.retrain <;> simp

@[simp] theorem Chip.startResend_mem (c : Chip) (n : Nat) : (c.startResend n).mem = c.mem := by
  fun_cases Chip.startResend <;> simp

@[simp] theorem Chip.replayTimeout_mem (c : Chip) (n : Nat) : (c.replayTimeout n).mem = c.mem := by
  fun_cases Chip.replayTimeout <;> simp

@[simp] theorem Chip.tryDiscover_mem (c : Chip) : (c.tryDiscover).mem = c.mem := by
  unfold Chip.tryDiscover
  split <;> simp

@[simp] theorem Chip.badLink_mem (c : Chip) (n : Nat) : (c.badLink n).mem = c.mem := by
  unfold Chip.badLink
  split <;> simp

@[simp] theorem Chip.askGeom_mem (c : Chip) (n : Nat) : (c.askGeom n).mem = c.mem := rfl

@[simp] theorem Chip.qualify_mem (c : Chip) (n : Nat) : (c.qualify n).mem = c.mem := by
  fun_cases Chip.qualify <;> simp +zetaDelta

@[simp] theorem Chip.linkTest_mem (c : Chip) (n : Nat) : (c.linkTest n).mem = c.mem := by
  fun_cases Chip.linkTest <;> simp +zetaDelta

@[simp] theorem Chip.testOver_mem (c : Chip) (n : Nat) : (c.testOver n).mem = c.mem := by
  fun_cases Chip.testOver <;> simp

@[simp] theorem Chip.trainTimeout_mem (c : Chip) (n : Nat) (st : LinkState) : (c.trainTimeout n st).mem = c.mem := by
  simp [Chip.trainTimeout, apply_ite Chip.mem]

@[simp] theorem Chip.retrainTimeout_mem (c : Chip) (n : Nat) : (c.retrainTimeout n).mem = c.mem := by
  unfold Chip.retrainTimeout
  split <;> simp

@[simp] theorem Chip.toIsolated_mem (c : Chip) (n : Nat) (t : List Byte) : (c.toIsolated n t).mem = c.mem := by simp [Chip.toIsolated]

@[simp] theorem Chip.toBefore_mem (c : Chip) (n : Nat) (t : List Byte) :
    (c.toBefore n t).mem = c.mem := by
  simp [Chip.toBefore, apply_ite Chip.mem]

@[simp] theorem Chip.configOver_mem (c : Chip) (n : Nat) : (c.configOver n).mem = c.mem := by
  fun_cases Chip.configOver <;> simp

@[simp] theorem Chip.trainingSet_mem (c : Chip) (n : Nat) (t : List Byte) : (c.trainingSet n t).mem = c.mem := by
  fun_cases Chip.trainingSet <;> simp

@[simp] theorem Chip.linkOff_mem (c : Chip) (n : Nat) : (c.linkOff n).mem = c.mem := by
  unfold Chip.linkOff
  split <;> simp

@[simp] theorem Chip.linkDisable_mem (c : Chip) (n : Nat) : (c.linkDisable n).mem = c.mem := by simp [Chip.linkDisable]

@[simp] theorem Chip.linkEnable_mem (c : Chip) (n : Nat) : (c.linkEnable n).mem = c.mem := by
  fun_cases Chip.linkEnable <;> simp

/-! Ports going down. -/

@[simp] theorem Chip.cutRequests_mem (c : Chip) (n : Nat) (reset : Bool) : (c.cutRequests n reset).mem = c.mem := rfl

@[simp] theorem Chip.portCut_mem (c : Chip) (n : Nat) (reset : Bool) : (c.portCut n reset).mem = c.mem := rfl

@[simp] theorem Chip.portDown_mem (c : Chip) (n : Nat) : (c.portDown n).mem = c.mem := rfl

/-! Power. -/

@[simp] theorem Chip.pwrErr_mem (c : Chip) (i : Nat) : (c.pwrErr i).mem = c.mem := rfl

@[simp] theorem Chip.countTransition_mem (c : Chip) : (c.countTransition).mem = c.mem := rfl

@[simp] theorem Chip.turnOff_mem (c : Chip) (d : Nat) (fw : Bool) : (c.turnOff d fw).mem = c.mem := by
  fun_cases Chip.turnOff <;> simp

@[simp] theorem Chip.turnOn_mem (c : Chip) (d : Nat) (fw : Bool) : (c.turnOn d fw).mem = c.mem := rfl

@[simp] theorem Chip.latchReq_mem (c : Chip) (d : Nat) (p : Pending) : (c.latchReq d p).mem = c.mem := rfl

@[simp] theorem Chip.powerReq_mem (c : Chip) (d : Nat) (t0 : PwrTarget) : (c.powerReq d t0).mem = c.mem := by
  fun_cases Chip.powerReq <;> simp

@[simp] theorem Chip.carryOut_mem (c : Chip) (d : Nat) : (c.carryOut d).mem = c.mem := by
  unfold Chip.carryOut
  split <;> simp

@[simp] theorem Chip.beginTransition_mem (c : Chip) (d : Nat) : (c.beginTransition d).mem = c.mem := by
  fun_cases Chip.beginTransition <;> simp

@[simp] theorem Chip.emptySlice_mem (c : Chip) (s : Nat) : (c.emptySlice s).mem = c.mem := rfl

@[simp] theorem Chip.tryBringup_mem (c : Chip) : (c.tryBringup).mem = c.mem := by
  unfold Chip.tryBringup
  split <;> simp

@[simp] theorem Chip.wakeFor_mem (c : Chip) (p : Nat × Nat) : (c.wakeFor p).mem = c.mem := by
  fun_cases Chip.wakeFor <;> simp

@[simp] theorem Chip.autoWake_mem (c : Chip) : (c.autoWake).mem = c.mem := by
  unfold Chip.autoWake
  split <;> simp

@[simp] theorem Chip.unitWake_mem (c : Chip) (base n : Nat) : (c.unitWake base n).mem = c.mem := by
  fun_cases Chip.unitWake <;> simp

@[simp] theorem Chip.unitsWake_mem (c : Chip) : (c.unitsWake).mem = c.mem := by simp [Chip.unitsWake, apply_ite Chip.mem]

@[simp] theorem Chip.askDomain_mem (c : Chip) (d : Nat) (t : PwrTarget) : (c.askDomain d t).mem = c.mem := by
  unfold Chip.askDomain
  split <;> simp

@[simp] theorem Chip.fwIdle_mem (c : Chip) (n : Nat) : (c.fwIdle n).mem = c.mem := by
  fun_cases Chip.fwIdle <;> simp

@[simp] theorem Chip.offIdle_mem (c : Chip) (n : Nat) : (c.offIdle n).mem = c.mem := by
  fun_cases Chip.offIdle <;> simp

@[simp] theorem Chip.thermalSample_mem (c : Chip) (temps : List Int) : (c.thermalSample temps).mem = c.mem := by
  fun_cases Chip.thermalSample <;> simp +zetaDelta

@[simp] theorem Chip.capSample_mem (c : Chip) (watts : Nat) : (c.capSample watts).mem = c.mem := by
  fun_cases Chip.capSample <;> simp +zetaDelta

/-! Requests. -/

@[simp] theorem Chip.beginCpl_mem (c : Chip) (n w : Nat) (i : CplItem) : (c.beginCpl n w i).mem = c.mem := rfl

@[simp] theorem Chip.cwbWrite_mem (c : Chip) (n w : Nat) : (c.cwbWrite n w).mem = c.mem := by
  unfold Chip.cwbWrite
  split <;> simp

@[simp] theorem Chip.takeDesc_mem (c : Chip) (n w : Nat) : (c.takeDesc n w).mem = c.mem := by
  fun_cases Chip.takeDesc <;> simp +zetaDelta

@[simp] theorem Chip.rejectDesc_mem (c : Chip) (n w : Nat) (d : Desc) (status detail : Nat) :
    (c.rejectDesc n w d status detail).mem = c.mem := by
  simp [Chip.rejectDesc]

@[simp] theorem Chip.admitStalls_mem (c : Chip) (n w : Nat) : (c.admitStalls n w).mem = c.mem := by
  unfold Chip.admitStalls
  split <;> simp

@[simp] theorem Chip.weirRise_mem (c : Chip) : (c.weirRise).mem = c.mem := by
  fun_cases Chip.weirRise <;> simp

@[simp] theorem Chip.weirFall_mem (c : Chip) : (c.weirFall).mem = c.mem := by
  fun_cases Chip.weirFall <;> simp

@[simp] theorem Chip.trace_mem (c : Chip) (code : Nat) (d : List Byte) (ctx : Option Nat) (port window status : Nat) :
    (c.trace code d ctx port window status).mem = c.mem := by
  unfold Chip.trace
  split <;> simp

@[simp] theorem Chip.stageReady_mem (c : Chip) (ctx area s : Nat) : (c.stageReady ctx area s).mem = c.mem := by
  fun_cases Chip.stageReady <;> simp +zetaDelta

@[simp] theorem Chip.bindDesc_mem (c : Chip) (k n w : Nat) (d : Desc) : (c.bindDesc k n w d).mem = c.mem := by simp [Chip.bindDesc]

@[simp] theorem Chip.tryAdmit_mem (c : Chip) (k : Nat) : (c.tryAdmit k).mem = c.mem := by
  fun_cases Chip.tryAdmit <;> simp +zetaDelta

@[simp] theorem Chip.stalledDeadline_mem (c : Chip) (n w : Nat) : (c.stalledDeadline n w).mem = c.mem := by
  fun_cases Chip.stalledDeadline <;> simp

@[simp] theorem Chip.stagePlace_mem (c : Chip) : (c.stagePlace).mem = c.mem := by
  fun_cases Chip.stagePlace <;> simp +zetaDelta

@[simp] theorem Chip.stageComplete_mem (c : Chip) (ctx s : Nat) : (c.stageComplete ctx s).mem = c.mem := by
  fun_cases Chip.stageComplete <;> simp +zetaDelta

@[simp] theorem Chip.deadline_mem (c : Chip) (ctx : Nat) : (c.deadline ctx).mem = c.mem := by
  fun_cases Chip.deadline <;> simp

@[simp] theorem Chip.abortAll_mem (c : Chip) : (c.abortAll).mem = c.mem := by simp [Chip.abortAll]

@[simp] theorem Chip.writeControl_mem (c : Chip) (v : Word) :
    (c.writeControl v).mem = c.mem := by
  simp [Chip.writeControl, apply_ite Chip.mem]

@[simp] theorem Chip.drainTimeout_mem (c : Chip) : (c.drainTimeout).mem = c.mem := by
  fun_cases Chip.drainTimeout <;> simp +zetaDelta

@[simp] theorem Chip.deliverWaits_mem (c : Chip) (k : Nat) (x : Ctx) : (c.deliverWaits k x).mem = c.mem := by
  fun_cases Chip.deliverWaits <;> simp

@[simp] theorem Chip.deliverNow_mem (c : Chip) (k : Nat) (x : Ctx) (body : List Byte) : (c.deliverNow k x body).mem = c.mem := by
  unfold Chip.deliverNow
  split <;> simp

@[simp] theorem Chip.deliver_mem (c : Chip) (k : Nat) (other : Option (List Byte)) : (c.deliver k other).mem = c.mem := by
  fun_cases Chip.deliver <;> simp

@[simp] theorem Chip.release_mem (c0 : Chip) (k : Nat) (x : Ctx) : (c0.release k x).mem = c0.mem := by
  unfold Chip.release
  split <;> simp

@[simp] theorem Chip.winSignal_mem (c : Chip) (n w : Nat) : (c.winSignal n w).mem = c.mem := by simp [Chip.winSignal]

@[simp] theorem Chip.winIrq_mem (c : Chip) (n w : Nat) : (c.winIrq n w).mem = c.mem := by
  fun_cases Chip.winIrq <;> simp +zetaDelta

@[simp] theorem Chip.writeEntry_mem (c : Chip) (n w : Nat) (cut : Bool) (entry : List Byte) : (c.writeEntry n w cut entry).mem = c.mem := by
  fun_cases Chip.writeEntry <;> simp +zetaDelta

@[simp] theorem Chip.finish_mem (c : Chip) (n w : Nat) (i : CplItem) : (c.finish n w i).mem = c.mem := by
  fun_cases Chip.finish c n w i <;> simp +zetaDelta

@[simp] theorem Chip.completion_mem (c : Chip) (n w : Nat) : (c.completion n w).mem = c.mem := by
  fun_cases Chip.completion <;> simp

/-! Recipes. -/

@[simp] theorem Chip.logVerify_mem (c : Chip) (st : StageStatus) (keySlot : Nat) (digest : List Byte) :
    (c.logVerify st keySlot digest).mem = c.mem := by
  simp [Chip.logVerify]

@[simp] theorem Chip.endVerify_mem (c : Chip) : (c.endVerify).mem = c.mem := by
  unfold Chip.endVerify
  split <;> simp

@[simp] theorem Chip.logLock_mem (c : Chip) (digest : List Byte) : (c.logLock digest).mem = c.mem := by simp [Chip.logLock]

@[simp] theorem Chip.closeJtag_mem (c : Chip) : (c.closeJtag).mem = c.mem := by
  unfold Chip.closeJtag
  split <;> simp

@[simp] theorem Chip.takeLock_mem (c : Chip) : (c.takeLock).mem = c.mem := by
  fun_cases Chip.takeLock <;> simp

@[simp] theorem Chip.dropLock_mem (c : Chip) : (c.dropLock).mem = c.mem := by
  unfold Chip.dropLock
  split <;> simp

/-! The Text Unit and Video Intake. -/

@[simp] theorem Chip.unitAsk_mem (c : Chip) (h : Holder) (ctx stage : Nat) (asked : List Nat) (a : Ask) :
    (c.unitAsk h ctx stage asked a).1.mem = c.mem := by
  fun_cases Chip.unitAsk c h ctx stage asked a
  case case4 hd => exact Chip.busAsk_mem hd
  all_goals simp

@[simp] theorem Chip.unitAsks_mem (c : Chip) (h : Holder) (ctx stage : Nat) (asked : List Nat) (l : List Ask) :
    (c.unitAsks h ctx stage asked l).1.mem = c.mem := by
  unfold Chip.unitAsks
  induction l generalizing c asked with
  | nil => rfl
  | cons a t ih => exact (ih _ _).trans (c.unitAsk_mem h ctx stage asked a)

@[simp] theorem Chip.unitStop_mem (c : Chip) (source ctx : Nat) (st : Stop) : (c.unitStop source ctx st).mem = c.mem := by
  cases st <;> simp [Chip.unitStop]

@[simp] theorem Chip.unitReads_mem (c : Chip) (h : Holder) (reads : List Nat) :
    (c.unitReads h reads).mem = c.mem := by
  simp [Chip.unitReads]

@[simp] theorem Chip.vocLoad_mem (c : Chip) (n : Nat) : (c.vocLoad n).mem = c.mem := by
  fun_cases Chip.vocLoad <;> simp

@[simp] theorem Chip.vocLoaded_mem (c : Chip) (n : Nat) : (c.vocLoaded n).mem = c.mem := by
  fun_cases Chip.vocLoaded <;> simp

@[simp] theorem Chip.vocClear_mem (c : Chip) (n : Nat) : (c.vocClear n).mem = c.mem := by
  unfold Chip.vocClear
  split <;> simp

@[simp] theorem Chip.setTextJob_mem (c : Chip) (j : TextJob) : (c.setTextJob j).mem = c.mem := rfl

@[simp] theorem Chip.endTextJob_mem (c : Chip) (j : TextJob) : (c.endTextJob j).mem = c.mem := by simp [Chip.endTextJob]

@[simp] theorem Chip.textStart_mem (c : Chip) : (c.textStart).mem = c.mem := by
  unfold Chip.textStart
  split <;> simp

@[simp] theorem Chip.vidStop_mem (c : Chip) (ctx : Nat) (st : Stop) : (c.vidStop ctx st).mem = c.mem := by simp [Chip.vidStop]

@[simp] theorem Chip.setVidJob_mem (c : Chip) (j : VidJob) : (c.setVidJob j).mem = c.mem := rfl

@[simp] theorem Chip.setUnit_mem (c : Chip) (u : DecUnit) : (c.setUnit u).mem = c.mem := rfl

@[simp] theorem Chip.dropUnit_mem (c : Chip) (u : DecUnit) : (c.dropUnit u).mem = c.mem := rfl

@[simp] theorem Chip.vidError_mem (c : Chip) (ctx status code : Nat) : (c.vidError ctx status code).mem = c.mem := by simp [Chip.vidError]

@[simp] theorem Chip.vidParsed_mem (c : Chip) (j : VidJob) (codec : Nat) (input : List Byte) : (c.vidParsed j codec input).mem = c.mem := by
  fun_cases Chip.vidParsed <;> simp +zetaDelta

@[simp] theorem Chip.vidReport_mem (c : Chip) (j : VidJob) : (c.vidReport j).mem = c.mem := by
  unfold Chip.vidReport
  split <;> simp

/-! Ports. -/

@[simp] theorem Chip.intake_mem (c : Chip) (n w : Nat) (payload : List Byte) (fullBe : Bool) :
    (c.intake n w payload fullBe).mem = c.mem := by
  fun_cases Chip.intake <;> simp [Chip.portErr_mem]

@[simp] theorem Chip.windowReset_mem (c : Chip) (n w : Nat) : (c.windowReset n w).mem = c.mem := rfl

@[simp] theorem Chip.ringWrite_mem (c : Chip) (n w : Nat) (f : Window → Window) : (c.ringWrite n w f).mem = c.mem := by
  fun_cases Chip.ringWrite <;> simp

@[simp] theorem Chip.ringReg_mem (c : Chip) (n w : Nat) (r : RingReg) (v reach : Word) : (c.ringReg n w r v reach).mem = c.mem := by
  simp [Chip.ringReg]

@[simp] theorem Chip.busGive_mem (c : Chip) (key : Nat) (data : List Byte) (r : BusReader) : (c.busGive key data r).mem = c.mem := by
  fun_cases Chip.busGive c key data r <;> simp

@[simp] theorem Chip.busLost_mem (c : Chip) (r : BusReader) : (c.busLost r).mem = c.mem := by
  fun_cases Chip.busLost c r <;> simp

@[simp] theorem Chip.readCompletion_mem (c : Chip) (n tag : Nat) (data : List Byte) (error : Option ReadError) :
    (c.readCompletion n tag data error).mem = c.mem := by
  fun_cases Chip.readCompletion <;> simp +zetaDelta [apply_ite Chip.mem, Chip.portErr_mem]

@[simp] theorem Chip.readTimeout_mem (c : Chip) (n tag : Nat) : (c.readTimeout n tag).mem = c.mem := by
  unfold Chip.readTimeout
  split <;> simp

@[simp] theorem Chip.bar4Read_mem (c : Chip) (n o len : Nat) : (c.bar4Read n o len).mem = c.mem := by
  fun_cases Chip.bar4Read <;> simp

@[simp] theorem Chip.msixPut_mem (c : Chip) (n v : Nat) (e : MsixEntry) : (c.msixPut n v e).mem = c.mem := by
  fun_cases Chip.msixPut <;> simp +zetaDelta

@[simp] theorem Chip.unmask_mem (c : Chip) (n v : Nat) (addr : Word) (data : BitVec 32) : (c.unmask n v addr data).mem = c.mem := by
  simp [Chip.unmask]

@[simp] theorem Chip.bar1Put_mem (c : Chip) (n o : Nat) (v reach : Word) : (c.bar1Put n o v reach).mem = c.mem := by
  unfold Chip.bar1Put
  split <;> simp

@[simp] theorem Chip.portUp_mem (c : Chip) (n : Nat) (rate width : BitVec 4) (payload : BitVec 3) :
    (c.portUp n rate width payload).mem = c.mem := by
  fun_cases Chip.portUp <;> simp

/-! Arbitration. -/

@[simp] theorem Chip.countFor_mem (c : Chip) (x : Waiting) (event : Nat) : (c.countFor x event).mem = c.mem := by
  unfold Chip.countFor
  split <;> simp

@[simp] theorem Chip.serveSliceAt_mem (c : Chip) (s pick : Nat) (x : Waiting) : (c.serveSliceAt s pick x).mem = c.mem := by
  fun_cases Chip.serveSliceAt <;> simp

@[simp] theorem Chip.grantNext_mem (c : Chip) (a : Nat) : (c.grantNext a).mem = c.mem := by
  fun_cases Chip.grantNext <;> simp +zetaDelta

/-! Start-up. -/

@[simp] theorem Chip.ready_mem (c : Chip) (high : Bool) : (c.ready high).mem = c.mem := by
  unfold Chip.ready
  split <;> simp

@[simp] theorem Chip.tripPin_mem (c : Chip) (high : Bool) : (c.tripPin high).mem = c.mem := rfl

@[simp] theorem Chip.beginRails_mem (c : Chip) : (c.beginRails).mem = c.mem := rfl

@[simp] theorem Chip.dropRails_mem (c : Chip) (n : Nat) : (c.dropRails n).mem = c.mem := Chip.foldl_mem (fun d r => by simp) _ _

@[simp] theorem Chip.logRail_mem (c : Chip) (rail : Nat) (statusWord : BitVec 16) : (c.logRail rail statusWord).mem = c.mem := by
  simp [Chip.logRail]

@[simp] theorem Chip.beginTraining_mem (c : Chip) : (c.beginTraining).mem = c.mem := by simp [Chip.beginTraining, apply_ite Chip.mem]

@[simp] theorem Chip.railGood_mem (c : Chip) (rail : Nat) : (c.railGood rail).mem = c.mem := by
  fun_cases Chip.railGood <;> simp +zetaDelta

@[simp] theorem Chip.hbmDone_mem (c : Chip) : (c.hbmDone).mem = c.mem := by
  unfold Chip.hbmDone
  split <;> simp

@[simp] theorem Chip.linksGone_mem (c : Chip) : c.linksGone.mem = c.mem :=
  Chip.foldl_mem (fun d n => by split <;> simp) _ c

@[simp] theorem Chip.logAlarm_mem (c : Chip) (severity kind index level : Nat) (value threshold : Int) :
    (c.logAlarm severity kind index level value threshold).mem = c.mem := by
  simp [Chip.logAlarm]

/-! The Management Controller. -/

@[simp] theorem Chip.logCopy_mem (c : Chip) : (c.logCopy).mem = c.mem := by
  fun_cases Chip.logCopy <;> simp +zetaDelta [apply_ite Chip.mem]

@[simp] theorem Chip.readConfig_mem (c : Chip) : (c.readConfig).mem = c.mem := rfl

@[simp] theorem Chip.fwOver_mem (c : Chip) (op : FwOp) (slotB : Bool) (status : Nat) : (c.fwOver op slotB status).mem = c.mem := by
  simp [Chip.fwOver]

@[simp] theorem Chip.firmwareRuns_mem (c : Chip) (m : Mc) (b : Bool) : (c.firmwareRuns m b).mem = c.mem := by
  unfold Chip.firmwareRuns
  dsimp only
  repeat' split
  all_goals simp

@[simp] theorem Chip.mcStart_mem (c : Chip) : (c.mcStart).mem = c.mem := by
  fun_cases Chip.mcStart <;> simp +zetaDelta

@[simp] theorem Chip.mcStop_mem (c : Chip) (cause : Nat) : (c.mcStop cause).mem = c.mem := by
  unfold Chip.mcStop
  split <;> simp

@[simp] theorem Chip.alarmEvent_mem (c : Chip) (kind index : Nat) (crit cleared : Bool) (value threshold : Int) :
    (c.alarmEvent kind index crit cleared value threshold).mem = c.mem := by
  simp [Chip.alarmEvent]

@[simp] theorem Chip.alarmSample_mem (c : Chip) (key kind index : Nat) (value : Int) (warn crit : Option Int) (back : Int) :
    (c.alarmSample key kind index value warn crit back).mem = c.mem := by
  simp [Chip.alarmSample, apply_ite Chip.mem]

@[simp] theorem Chip.tempSample_mem (c : Chip) (i : Nat) (t : Int) : (c.tempSample i t).mem = c.mem := by simp [Chip.tempSample]

@[simp] theorem Chip.tempSamples_mem (c : Chip) (temps : List Int) : (c.tempSamples temps).mem = c.mem := by simp [Chip.tempSamples]

@[simp] theorem Chip.throttleAll_mem (c : Chip) : (c.throttleAll).mem = c.mem := rfl

@[simp] theorem Chip.ampSample_mem (c : Chip) (k a : Nat) : (c.ampSample k a).mem = c.mem := by simp [Chip.ampSample]

@[simp] theorem Chip.railPoll_mem (c : Chip) (readings : List (Nat × Nat)) : (c.railPoll readings).mem = c.mem := rfl

@[simp] theorem Chip.railFault_mem (c : Chip) (rail : Nat) (statusWord : BitVec 16) : (c.railFault rail statusWord).mem = c.mem := by
  simp [Chip.railFault]

@[simp] theorem Chip.fwRefuse_mem (c : Chip) (status : Nat) : (c.fwRefuse status).mem = c.mem := rfl

@[simp] theorem Chip.fwInstall_mem (c : Chip) : (c.fwInstall).mem = c.mem := by
  fun_cases Chip.fwInstall <;> simp

@[simp] theorem Chip.installDone_mem (c : Chip) : (c.installDone).mem = c.mem := by
  fun_cases Chip.installDone <;> simp

@[simp] theorem Chip.fwActivate_mem (c : Chip) : (c.fwActivate).mem = c.mem := by
  fun_cases Chip.fwActivate <;> simp

@[simp] theorem Chip.fwCommit_mem (c : Chip) : (c.fwCommit).mem = c.mem := by
  fun_cases Chip.fwCommit <;> simp

@[simp] theorem Chip.commitFwDone_mem (c : Chip) : (c.commitFwDone).mem = c.mem := by
  fun_cases Chip.commitFwDone <;> simp

@[simp] theorem Chip.fwRevert_mem (c : Chip) : (c.fwRevert).mem = c.mem := by
  fun_cases Chip.fwRevert <;> simp

@[simp] theorem Chip.itemActs_mem (c : Chip) (item signer : Nat) (v : List Byte) : (c.itemActs item signer v).mem = c.mem := by
  fun_cases Chip.itemActs <;> simp

@[simp] theorem Chip.cfgOver_mem (c : Chip) (status : Nat) : (c.cfgOver status).mem = c.mem := rfl

@[simp] theorem Chip.cfgDone_mem (c : Chip) (nonce : Word) : (c.cfgDone nonce).mem = c.mem := by
  unfold Chip.cfgDone
  generalize c.bytes _ 4096 = record
  dsimp only
  split
  · rfl
  · split <;> simp [apply_ite Chip.mem]

@[simp] theorem Chip.i3cRead_mem (c : Chip) (count : Nat) : (c.i3cRead count).mem = c.mem := rfl

@[simp] theorem Chip.openSession_mem (c : Chip) (slot : Nat) (authentic : Bool) (reason : Byte) :
    (c.openSession slot authentic reason).mem = c.mem := by
  fun_cases Chip.openSession <;> simp

/-! Register accesses. -/

@[simp] theorem Chip.writeRqt_mem (c : Chip) (o : Nat) (v reach : Word) : (c.writeRqt o v reach).mem = c.mem := by
  fun_cases Chip.writeRqt <;> simp

@[simp] theorem Chip.writeRmap_mem (c : Chip) (o : Nat) (v reach : Word) : (c.writeRmap o v reach).mem = c.mem := by
  unfold Chip.writeRmap
  split <;> simp

@[simp] theorem Chip.writeArb_mem (c : Chip) (o : Nat) (v reach : Word) : (c.writeArb o v reach).mem = c.mem := by
  fun_cases Chip.writeArb <;> simp

@[simp] theorem Chip.writeTable_mem (c : Chip) (n q : Nat) (v reach : Word) : (c.writeTable n q v reach).mem = c.mem := by
  fun_cases Chip.writeTable <;> simp

@[simp] theorem Chip.writeEmb_mem (c : Chip) (o : Nat) (v reach : Word) : (c.writeEmb o v reach).mem = c.mem := by
  fun_cases Chip.writeEmb <;> simp

@[simp] theorem Chip.writeTxu_mem (c : Chip) (o : Nat) (v reach : Word) : (c.writeTxu o v reach).mem = c.mem := by
  fun_cases Chip.writeTxu <;> simp

@[simp] theorem Chip.writeVid_mem (c : Chip) (o : Nat) (v reach : Word) : (c.writeVid o v reach).mem = c.mem := by
  fun_cases Chip.writeVid <;> simp

@[simp] theorem Chip.writeWin_mem (c : Chip) (n w q : Nat) (v reach : Word) : (c.writeWin n w q v reach).mem = c.mem := by
  fun_cases Chip.writeWin <;> simp

@[simp] theorem Chip.writePort_mem (c : Chip) (n o : Nat) (v reach : Word) : (c.writePort n o v reach).mem = c.mem := by
  fun_cases Chip.writePort <;> simp

@[simp] theorem Chip.linkCtrl_mem (c : Chip) (n : Nat) (v reach : Word) : (c.linkCtrl n v reach).mem = c.mem := by
  simp [Chip.linkCtrl, apply_ite Chip.mem]

@[simp] theorem Chip.writeLink_mem (c : Chip) (n o : Nat) (v reach : Word) : (c.writeLink n o v reach).mem = c.mem := by
  fun_cases Chip.writeLink <;> simp

@[simp] theorem Chip.writeNet_mem (c : Chip) (o : Nat) (v reach : Word) : (c.writeNet o v reach).mem = c.mem := by
  fun_cases Chip.writeNet <;> simp

@[simp] theorem Chip.writeDom_mem (c : Chip) (d : Nat) (v reach : Word) : (c.writeDom d v reach).mem = c.mem := by
  fun_cases Chip.writeDom <;> simp +zetaDelta

@[simp] theorem Chip.writePwr_mem (c : Chip) (o : Nat) (v reach : Word) : (c.writePwr o v reach).mem = c.mem := by
  fun_cases Chip.writePwr <;> simp +zetaDelta

@[simp] theorem Chip.fwCommand_mem (c : Chip) (v : Word) : (c.fwCommand v).mem = c.mem := by
  fun_cases Chip.fwCommand <;> simp

@[simp] theorem Chip.writeMc_mem (c : Chip) (allowed : Bool) (o : Nat) (v reach : Word) : (c.writeMc allowed o v reach).mem = c.mem := by
  fun_cases Chip.writeMc <;> simp

@[simp] theorem Chip.writeRst_mem (c : Chip) (allowed : Bool) (o : Nat) (v : Word) : (c.writeRst allowed o v).mem = c.mem := by
  unfold Chip.writeRst
  split <;> simp

@[simp] theorem Chip.barLoad_mem (c : Chip) (n o size : Nat) : (c.barLoad n o size).mem = c.mem := by
  unfold Chip.barLoad
  split <;> simp [Chip.portErr_mem]

@[simp] theorem Chip.pathRead_mem (c : Chip) (p : Path) (o size : Nat) : (c.pathRead p o size).mem = c.mem := by
  fun_cases Chip.pathRead <;> simp

@[simp] theorem Chip.poisonedWrite_mem (c : Chip) (n : Option Nat) : (c.poisonedWrite n).mem = c.mem := by
  fun_cases Chip.poisonedWrite <;> simp [Chip.portErr_mem]

@[simp] theorem Chip.regAnswer_mem (c : Chip) (a : Msg) : (c.regAnswer a).mem = c.mem := by
  fun_cases Chip.regAnswer <;> simp

@[simp] theorem Chip.serveRegRd_mem (c : Chip) (m : Msg) : (c.serveRegRd m).mem = c.mem := by simp [Chip.serveRegRd]

@[simp] theorem Chip.serveRegData_mem (c : Chip) (m : Msg) : (c.serveRegData m).mem = c.mem := by
  fun_cases Chip.serveRegData <;> simp +zetaDelta

@[simp] theorem Chip.respond_mem (c : Chip) (op status : Nat) (offset : Word) (data : List Byte) :
    (c.respond op status offset data).mem = c.mem := rfl

@[simp] theorem Chip.mgmtRead_mem (c : Chip) (offset : Word) (payload : List Byte) : (c.mgmtRead offset payload).mem = c.mem := by
  fun_cases Chip.mgmtRead <;> simp

/-! Flits and codewords. -/

@[simp] theorem Chip.takeLinkAck_mem (c : Chip) (n : Nat) (f : List Byte) : (c.takeLinkAck n f).mem = c.mem := by
  fun_cases Chip.takeLinkAck <;> simp

@[simp] theorem Chip.joinFlit_mem (c : Chip) (f : List Byte) : (c.joinFlit f).2.mem = c.mem := by
  fun_cases Chip.joinFlit c f <;> rfl

@[simp] theorem Chip.badCodeword_mem (c : Chip) (n : Nat) (kind : BitVec 2) : (c.badCodeword n kind).mem = c.mem := by
  fun_cases Chip.badCodeword <;> simp

@[simp] theorem Chip.sendFrames_mem (c : Chip) (n : Nat) (done : BitVec 8) (req : BitVec 48) : (c.sendFrames n done req).mem = c.mem :=
  (Chip.foldl_mem (fun d i => by simp) _ _).trans (by simp)

/-! One nanosecond. -/

@[simp] theorem Chip.tickCores_mem (c : Chip) : c.tickCores.mem = c.mem := (congrArg Chip.mem c.tickCores_rest :)

@[simp] theorem Chip.tickHub_mem (c : Chip) : (c.tickHub).mem = c.mem := by simp [Chip.tickHub]

@[simp] theorem Chip.tick_mem (c : Chip) : (c.tick).mem = c.mem := by simp [Chip.tick, apply_ite Chip.mem]

end Sys2Proof.Machine
end

section
/-! Operations one after another, instructions, rows of the table and messages keep memory canonical when their parts do (R116). -/

namespace Sys2Proof.Machine

theorem Chip.foldl_wf {α : Type} {f : Chip → α → Chip} (hf : ∀ c a, Mem.wf c.mem = true → Mem.wf (f c a).mem = true) (l : List α)
    {c : Chip} (h : Mem.wf c.mem = true) : Mem.wf (l.foldl f c).mem = true := by
  induction l generalizing c with
  | nil => exact h
  | cons a t ih => exact ih (hf c a h)

/-- An instruction that is issued keeps memory canonical when what it does with its slot does. -/
theorem Chip.issue_wf {c : Chip} {l : Loc} {f : Slot → Chip} (h : Mem.wf c.mem = true) (hf : ∀ x d, f x = d → Mem.wf d.mem = true) :
    Mem.wf (c.issue l f).mem = true := by
  obtain he | he | he := c.issue_cases l f <;> rw [he]
  · exact hf _ _ rfl
  · simp [h]
  · exact h

/-- A row of the table keeps memory canonical when what it does with the engine's command does. -/
theorem Chip.onCommand_wf {c : Chip} {fc e : Nat} {opcode : Option Nat} {known : List Nat} {ecc : Bool} {f : EngCmd → Chip}
    (h : Mem.wf c.mem = true) (hf : ∀ x, Mem.wf (f x).mem = true) : Mem.wf (c.onCommand fc e opcode known ecc f).mem = true := by
  fun_cases Chip.onCommand c fc e opcode known ecc f <;> simp [h, hf]

theorem Chip.atHome_wf {c : Chip} {m : Msg} {f : Chip → Chip} (h : Mem.wf c.mem = true) (hf : Mem.wf (f c).mem = true) :
    Mem.wf (c.atHome m f).mem = true := by
  fun_cases Chip.atHome c m f <;> simp [h, hf]

theorem Chip.collective_wf {c : Chip} {m : Msg} {f : Chip → Chip} (h : Mem.wf c.mem = true) (hf : Mem.wf (f c).mem = true) :
    Mem.wf (c.collective m f).mem = true := by
  fun_cases Chip.collective c m f <;> simp [h, hf]

section

variable {c : Chip} {m : Msg} {serve : Msg → Chip → Chip} (h : Mem.wf c.mem = true)
  (hs : ∀ m d, Mem.wf d.mem = true → Mem.wf (serve m d).mem = true)
include h hs

theorem Chip.copyAnswer_wf : Mem.wf (c.copyAnswer m serve).mem = true := by
  unfold Chip.copyAnswer
  split
  · exact h
  · refine Chip.foldl_wf (fun d q hd => ?_) _ h
    dsimp only
    split
    · exact hs _ d hd
    · split <;> simp [hd]

/-- A message that comes to this package keeps memory canonical when serving it does. -/
theorem Chip.arrive_wf (came : Option (Nat × Nat)) : Mem.wf (c.arrive came m serve).mem = true := by
  unfold Chip.arrive Chip.transit
  repeat' split
  · simp [h]
  · simp [Chip.copyAnswer_wf h hs]
  · simp [h]
  · exact h
  · exact hs m c h

end

end Sys2Proof.Machine
end

section
/-! What the bodies of the engines give. -/

namespace Sys2Proof.Machine

/-- Whatever a computation gives has a property. -/
def Rd.Gives {α : Type} (P : α → Prop) (m : Rd α) : Prop := ∀ r l a k, m r l = .ok (a, k) → P a

section

variable {α β : Type} {P : α → Prop}

theorem Rd.Gives.of_result {m : Rd α} (h : m.Gives P) {r : Reader} {a : α} {reads : List Nat} (hm : m.result r = .ok (a, reads)) : P a := by
  unfold Rd.result at hm
  split at hm
  · next b l hb =>
    obtain ⟨rfl, -⟩ : b = a ∧ l.reverse = reads := by simpa using hm
    exact h r [] b l hb
  · simp at hm

theorem Rd.Gives.pure {a : α} (h : P a) : Rd.Gives P (pure a : Rd α) := by
  intro r l b k hb
  obtain ⟨rfl, -⟩ : a = b ∧ l = k := by simpa using (Except.ok.inj hb)
  exact h

theorem Rd.Gives.fail (status code : Nat) : Rd.Gives P (rdFail status code : Rd α) := fun _ _ _ _ h => nomatch h

theorem Rd.Gives.stop (e : Stop) : Rd.Gives P (rdStop e : Rd α) := fun _ _ _ _ h => nomatch h

theorem Rd.bind_eq_ok {m : Rd β} {f : β → Rd α} {r : Reader} {l k : List Nat} {a : α} (h : (m >>= f) r l = .ok (a, k)) :
    ∃ b j, m r l = .ok (b, j) ∧ f b r j = .ok (a, k) := by
  have he : (m r l >>= fun p => f p.1 r p.2) = .ok (a, k) := h
  cases hm : m r l with
  | error e => rw [hm] at he; exact nomatch he
  | ok p => exact ⟨p.1, p.2, rfl, by rw [hm] at he; exact he⟩

/-- What a computation in two steps gives is what its second step gives of what its first one gives. -/
theorem Rd.Gives.bind_of {Q : β → Prop} {m : Rd β} {f : β → Rd α} (hm : m.Gives Q) (h : ∀ b, Q b → (f b).Gives P) :
    Rd.Gives P (m >>= f) := by
  intro r l a k ha
  obtain ⟨b, j, hb, hf⟩ := Rd.bind_eq_ok ha
  exact h b (hm r l b j hb) r j a k hf

theorem Rd.Gives.bind {m : Rd β} {f : β → Rd α} (h : ∀ b, (f b).Gives P) : Rd.Gives P (m >>= f) :=
  .bind_of (Q := fun _ => True) (fun _ _ _ _ _ => trivial) (fun b _ => h b)

end

/-- An output of an engine whose effect keeps memory in its canonical form. -/
def EngOut.KeepsMem (out : EngOut) : Prop := ∀ c : Chip, Mem.wf c.mem = true → Mem.wf (out.effect c).mem = true

theorem EngOut.keepsMem_ofWrites (w : List Wr) : (EngOut.ofWrites w).KeepsMem := fun _ h => h

theorem Rd.Gives.ite {α : Type} {P : α → Prop} {p : Prop} [Decidable p] {m n : Rd α} (hm : m.Gives P) (hn : n.Gives P) :
    Rd.Gives P (if p then m else n) := by
  split
  · exact hm
  · exact hn

/-- An output whose effect leaves memory as it is. -/
theorem EngOut.keepsMem_of_mem {out : EngOut} (h : ∀ c, (out.effect c).mem = c.mem) : out.KeepsMem := fun c hc => by rwa [h c]

theorem EngOut.keepsMem_id {w : List Wr} {stop : Option Stop} : EngOut.KeepsMem ⟨w, id, stop⟩ := fun _ h => h

end Sys2Proof.Machine
end

section
/-! Memory stays canonical under the stores, the sweeps and the engines' commands (R116). -/

namespace Sys2Proof.Machine

@[simp] theorem Chip.putAt_wf {c : Chip} (o : Nat) (data : List Byte) (h : Mem.wf c.mem = true) :
    Mem.wf (c.putAt o data).mem = true := by
  simp [Chip.putAt, h, Chip.put_wf]

@[simp] theorem Chip.stcv_wf {c : Chip} (l : Loc) (rd ra rb : Reg) (h : Mem.wf c.mem = true) : Mem.wf (c.stcv l rd ra rb).mem = true := by
  refine Chip.issue_wf h fun s d hd => ?_
  extract_lets at hd
  repeat' split at hd
  all_goals simp +zetaDelta [← hd, h, Chip.stallSlot_mem, Chip.here_mem]

@[simp] theorem Chip.drain_wf {c : Chip} (fc : Nat) (h : Mem.wf c.mem = true) : Mem.wf (c.drain fc).mem = true := by
  fun_cases Chip.drain <;> simp +zetaDelta [h, Chip.here_mem]

/-- Where an element of a sweep goes on, memory is canonical. -/
def SwStep.KeepsMem : SwStep → Prop
  | .next c _ => Mem.wf c.mem = true
  | _ => True

theorem Chip.swWrite_keepsMem {c : Chip} (l : Loc) (x : Slot) (a : Word) (data : List Byte) (h : Mem.wf c.mem = true) :
    (c.swWrite l x a data).KeepsMem := by
  fun_cases Chip.swWrite c l x a data <;> simp [SwStep.KeepsMem, h, Chip.here_mem]

/-- Where an element's write leads is canonical. -/
theorem SwStep.KeepsMem.of_next {r : SwStep} {d : Chip} {y : Slot} (h : r.KeepsMem) (hr : r = .next d y) : Mem.wf d.mem = true := by
  subst hr
  exact h

section

variable (l : Loc) (ra rb rc : Reg) (t : Nat) {c : Chip} (x : Slot) (h : Mem.wf c.mem = true)
include h

theorem vfillStep_keepsMem : (vfillStep l ra rb rc t c x).KeepsMem := by
  fun_cases vfillStep l ra rb rc t c x
  case case1 d y hw => exact (Chip.swWrite_keepsMem l x _ _ h).of_next hw
  case case2 => exact Chip.swWrite_keepsMem l x _ _ h

theorem vscanStep_keepsMem : (vscanStep l ra rb rc t c x).KeepsMem := by
  fun_cases vscanStep l ra rb rc t c x
  case case4 hw => exact (Chip.swWrite_keepsMem l x _ _ (by simpa using h)).of_next hw
  case case5 => exact Chip.swWrite_keepsMem l x _ _ (by simpa using h)
  all_goals trivial

theorem vhistStep_keepsMem : (vhistStep l ra rb rc t c x).KeepsMem := by
  have hw (a : Word) (data : List Byte) : (((c.swHere l (x.xr ra)).swHere l a).swWrite l x a data).KeepsMem :=
    Chip.swWrite_keepsMem l x a data (by simpa using h)
  fun_cases vhistStep l ra rb rc t c x
  case case4 hn => exact (hw _ _).of_next hn
  case case5 => exact hw _ _
  all_goals trivial

theorem bsrchStep_keepsMem : (bsrchStep l ra rb rc t c x).KeepsMem := by
  have hw (keys : List Nat) (f : Nat → Word) (data : List Byte) : (((List.range keys.length).foldl
      (fun c j => c.swHere l (f j)) (c.swHere l (x.xr ra))).swWrite l x (x.xr rc) data).KeepsMem :=
    Chip.swWrite_keepsMem l x (x.xr rc) data (Chip.foldl_wf (fun d j hd => by simpa using hd) _ (by simpa using h))
  fun_cases bsrchStep l ra rb rc t c x
  case case7 => exact h
  case case8 hn => exact (hw _ _ _).of_next hn
  case case9 => exact hw _ _ _
  all_goals trivial

end

/-- Memory is canonical where a sweep ends for now. -/
def SwEnd.KeepsMem : SwEnd → Prop
  | .finished c _ | .stopped c _ | .broken c _ _ => Mem.wf c.mem = true

theorem sweepRun_keepsMem {step : Nat → Chip → Slot → SwStep} (hs : ∀ n c x, Mem.wf c.mem = true → (step n c x).KeepsMem)
    (stops : Slot → Nat → Bool) (n passed : Nat) {c : Chip} (x : Slot) (h : Mem.wf c.mem = true) :
    (sweepRun step stops n passed c x).KeepsMem := by
  induction n generalizing passed c x with
  | zero => unfold sweepRun; split <;> exact h
  | succ n ih =>
    unfold sweepRun
    split
    · exact h
    · split
      · next hn => exact ih _ _ ((hs passed c x h).of_next hn)
      · exact h

theorem sweepEcc_keepsMem (l : Loc) (func : Nat) (ra : Reg) (w : Nat) (ecc : Option (Nat × Nat)) {step : Chip → Slot → SwStep}
    {c : Chip} {x : Slot} (passed : Nat) (hs : (step c x).KeepsMem) : (sweepEcc l func ra w ecc step c x passed).KeepsMem := by
  fun_cases sweepEcc l func ra w ecc step c x passed
  case case1 => trivial
  all_goals exact hs

theorem Chip.sweep_wf {c : Chip} (l : Loc) (func : Nat) (ra rb rc : Reg) (ty : BitVec 4) (intr : Option Nat) (ecc : Option (Nat × Nat))
    {step : Chip → Slot → SwStep} (hs : ∀ c x, Mem.wf c.mem = true → (step c x).KeepsMem) (h : Mem.wf c.mem = true) :
    Mem.wf (c.sweep l func ra rb rc ty intr ecc step).mem = true := by
  refine Chip.issue_wf h fun s d hd => ?_
  have hrun := sweepRun_keepsMem
    (fun passed c x hc => sweepEcc_keepsMem l func ra (tyBytes ty.toNat) ecc passed (hs c x hc)) (sweepStops func ra rb intr)
    (s.xr rb).toNat 0 s h
  dsimp only at hd
  split at hd
  · simp [← hd, h]
  · split at hd
    · simp [← hd, h, Chip.stallSlot_mem]
    · split at hd
      · simp [← hd, h]
      · split at hd
        · next he => 
          rw [he] at hrun
          have hc : Mem.wf _ = true := hrun
          simpa [← hd] using hc
        · next he => 
          rw [he] at hrun
          have hc : Mem.wf _ = true := hrun
          simpa [← hd] using hc
        · next he =>
          rw [he] at hrun
          have hc : Mem.wf _ = true := hrun
          split at hd <;> simpa [← hd, Chip.stallSlot_mem] using hc

@[simp] theorem Chip.doWrite_wf {c : Chip} (fc e : Nat) (x : EngCmd) (n : Nat) (w : Wr) (h : Mem.wf c.mem = true) :
    Mem.wf (c.doWrite fc e x n w).mem = true := by
  cases w <;> simp [Chip.doWrite, h, Chip.here_mem]

@[simp] theorem Chip.doWrites_wf {c : Chip} (fc e : Nat) (x : EngCmd) (n : Nat) (ws : List Wr) (h : Mem.wf c.mem = true) :
    Mem.wf (c.doWrites fc e x n ws).mem = true := by
  induction ws generalizing c n with
  | nil => exact h
  | cons w t ih => exact ih _ (Chip.doWrite_wf fc e x n w h)

theorem Chip.commitCmd_wf {c : Chip} (fc e : Nat) (x : EngCmd) {out : EngOut} (reads : List Nat) (h : Mem.wf c.mem = true)
    (hout : out.KeepsMem) : Mem.wf (c.commitCmd fc e x out reads).mem = true := by
  have heffect (n : Nat) (far : List Wr) : Mem.wf (out.effect (((c.heres fc (.engine e) false (c.emptyAt fc e x 0) reads).doWrites fc e x
      0 far).doWrites fc e x n (out.writes.filter fun w => !w.isRemote))).mem = true := 
    hout _ (Chip.doWrites_wf fc e x _ _ (Chip.doWrites_wf fc e x 0 _ (by simpa [Chip.heres_mem] using h)))
  fun_cases Chip.commitCmd c fc e x out reads
  case case1 | case2 => simpa +zetaDelta using heffect _ _
  case case3 => simp +zetaDelta [h]

theorem Chip.carry_wf {c : Chip} (fc e : Nat) (x : EngCmd) {body : Rd EngOut} (h : Mem.wf c.mem = true) (hb : body.Gives EngOut.KeepsMem) :
    Mem.wf (c.carry fc e x body).mem = true := by
  unfold Chip.carry
  split
  · next ho => exact Chip.commitCmd_wf fc e x _ h (hb.of_result ho)
  · simp [h]

theorem Chip.engineRow_wf {c : Chip} (fc e : Nat) (opcode : Option Nat) (known : List Nat) (ecc : Bool) {body : EngCmd → Rd EngOut}
    (h : Mem.wf c.mem = true) (hb : ∀ x, (body x).Gives EngOut.KeepsMem) : Mem.wf (c.engineRow fc e opcode known ecc body).mem = true :=
  Chip.onCommand_wf h fun x => Chip.carry_wf fc e x h (hb x)

theorem Chip.startCarry_wf {c : Chip} (fc e : Nat) (x : EngCmd) (first : EngCmd → Rd (List Byte)) {body : EngCmd → Rd EngOut}
    (h : Mem.wf c.mem = true) (hb : ∀ x, (body x).Gives EngOut.KeepsMem) : Mem.wf (c.startCarry fc e x first body).mem = true := by
  unfold Chip.startCarry
  dsimp only
  split
  · next ho => exact Chip.commitCmd_wf fc e _ _ h ((hb x).of_result ho)
  · simp [h]

theorem Chip.startRow_wf {c : Chip} (fc e : Nat) (opcode : Option Nat) (known : List Nat) (ecc : Bool) (first : EngCmd → Rd (List Byte))
    {body : EngCmd → Rd EngOut} (h : Mem.wf c.mem = true) (hb : ∀ x, (body x).Gives EngOut.KeepsMem) :
    Mem.wf (c.startRow fc e opcode known ecc first body).mem = true :=
  Chip.onCommand_wf h fun x => Chip.startCarry_wf fc e x first h hb

theorem maskBody_keepsMem (x : EngCmd) : (maskBody x).Gives EngOut.KeepsMem :=
  .bind fun _ => .pure (EngOut.keepsMem_ofWrites _)

theorem Chip.gatherRun_wf {c : Chip} (fc : Nat) (x : EngCmd) {body : EngCmd → Rd EngOut} (h : Mem.wf c.mem = true)
    (hb : ∀ x, (body x).Gives EngOut.KeepsMem) : Mem.wf (c.gatherRun fc x body).mem = true := by
  unfold Chip.gatherRun
  extract_lets written
  have hw : Mem.wf written.mem = true := by
    unfold written
    split
    · exact Chip.carry_wf fc 1 x h (hb x)
    · exact h
  split
  · exact hw
  · next y hy =>
    split
    · split
      · simp [hw]
      · exact Chip.carry_wf fc 1 y hw (maskBody_keepsMem y)
    · exact hw

theorem Chip.gatherRow_wf {c : Chip} (fc opcode : Nat) (ecc : Bool) {body : EngCmd → Rd EngOut} (h : Mem.wf c.mem = true)
    (hb : ∀ x, (body x).Gives EngOut.KeepsMem) : Mem.wf (c.gatherRow fc opcode ecc body).mem = true := by
  refine Chip.onCommand_wf h fun x => ?_
  dsimp only
  split
  · split
    · simp [h]
    · split
      · exact Chip.gatherRun_wf fc x (by simp [h]) hb
      · simp [h]
  · exact Chip.gatherRun_wf fc x h hb

@[simp] theorem Chip.commitMove_wf {c : Chip} (h : Mem.wf c.mem = true) : Mem.wf (c.commitMove).mem = true := by
  unfold Chip.commitMove
  split <;> simp [h, Chip.put_wf]

@[simp] theorem Chip.spoilHash_wf {c : Chip} (ctx : Nat) (h : Mem.wf c.mem = true) :
    Mem.wf (c.spoilHash ctx).mem = true := by
  simp [Chip.spoilHash, h, Chip.put_wf]

@[simp] theorem Chip.tryReduce_wf {c : Chip} (r : Root) (h : Mem.wf c.mem = true) : Mem.wf (c.tryReduce r).mem = true := by
  fun_cases Chip.tryReduce <;> simp [h, Chip.put_wf]

@[simp] theorem Chip.tryRoot_wf {c : Chip} (r : Root) (pass : Nat) (h : Mem.wf c.mem = true) : Mem.wf (c.tryRoot r pass).mem = true := by
  fun_cases Chip.tryRoot <;> simp [h]

@[simp] theorem Chip.endRoot_wf {c : Chip} (r : Root) (code : Nat) (h : Mem.wf c.mem = true) :
    Mem.wf (c.endRoot r code).mem = true := by
  simp [Chip.endRoot, h]

@[simp] theorem Chip.rootJoin_wf {c : Chip} (hist : Bool) (name : Nat) (j : Joiner) (h : Mem.wf c.mem = true) :
    Mem.wf (c.rootJoin hist name j).mem = true := by
  fun_cases Chip.rootJoin <;> simp [h]

@[simp] theorem Chip.rootChunk_wf {c : Chip} (name : Nat) (k : Chunk) (h : Mem.wf c.mem = true) :
    Mem.wf (c.rootChunk name k).mem = true := by
  fun_cases Chip.rootChunk <;> simp [h]

@[simp] theorem Chip.rootAbort_wf {c : Chip} (hist : Bool) (name count : Nat) (hadJoined : Bool) (h : Mem.wf c.mem = true) :
    Mem.wf (c.rootAbort hist name count hadJoined).mem = true := by
  fun_cases Chip.rootAbort <;> simp [h]

@[simp] theorem Chip.sendChunk_wf {c : Chip} (name root ctx : Nat) (k : Chunk) (h : Mem.wf c.mem = true) :
    Mem.wf (c.sendChunk name root ctx k).mem = true := by
  unfold Chip.sendChunk
  split <;> simp [h]

@[simp] theorem Chip.sendJoin_wf {c : Chip} (hist : Bool) (name root ctx : Nat) (j : Joiner) (h : Mem.wf c.mem = true) :
    Mem.wf (c.sendJoin hist name root ctx j).mem = true := by
  unfold Chip.sendJoin
  split <;> simp [h]

@[simp] theorem Chip.sendAbort_wf {c : Chip} (hist : Bool) (name root count : Nat) (hadJoined : Bool) (h : Mem.wf c.mem = true) :
    Mem.wf (c.sendAbort hist name root count hadJoined).mem = true := by
  unfold Chip.sendAbort
  split <;> simp [h]

@[simp] theorem Chip.killAll_wf {c : Chip} (ctx : Nat) (h : Mem.wf c.mem = true) : Mem.wf (c.killAll ctx).mem = true := by
  fun_cases Chip.killAll
  simp +zetaDelta +contextual [h, Chip.foldl_wf]

theorem Chip.hjRow_wf {c : Chip} (fc opcode : Nat) (ecc : Bool) {body : EngCmd → Rd EngOut} (h : Mem.wf c.mem = true)
    (hb : ∀ x, (body x).Gives EngOut.KeepsMem) : Mem.wf (c.hjRow fc opcode ecc body).mem = true := by
  refine Chip.onCommand_wf h fun x => ?_
  split
  · exact h
  · split
    · simp [h]
    · split
      · exact Chip.startCarry_wf fc 2 x _ h hb
      · exact Chip.carry_wf fc 2 x h (hb x)

@[simp] theorem Chip.selectClose_wf {c : Chip} (fc : Nat) (x : EngCmd) (h : Mem.wf c.mem = true) :
    Mem.wf (c.selectClose fc x).mem = true := by
  fun_cases Chip.selectClose <;> simp +zetaDelta +contextual [h, Chip.foldl_wf]

theorem lceBody_keepsMem (fc : Nat) (x : EngCmd) : (lceBody fc x).Gives EngOut.KeepsMem := by
  unfold lceBody
  exact .bind fun _ => .ite (.pure (EngOut.keepsMem_ofWrites _)) (.bind fun ⟨_, _⟩ => .bind fun _ =>
    .ite (.bind fun _ => .pure (EngOut.keepsMem_of_mem fun _ => rfl)) (.bind fun _ => .pure EngOut.keepsMem_id))

theorem streamDirect_keepsMem (fc : Nat) (x : EngCmd) (out : Bool) : (streamDirect fc x out).Gives EngOut.KeepsMem := by
  unfold streamDirect
  exact .bind fun ⟨_, _⟩ => .bind fun _ => .ite (.fail _ _) (.ite
    (.bind fun _ => .bind fun _ => .pure (EngOut.keepsMem_ofWrites _)) (.bind fun _ => .bind fun _ => .pure (EngOut.keepsMem_ofWrites _)))

theorem streamRing_keepsMem (fc : Nat) (x : EngCmd) (t : Stream) : (streamRing fc x t).Gives EngOut.KeepsMem := by
  unfold streamRing
  have hout {w : List Wr} {d n : Nat} {stop : Option Stop} : EngOut.KeepsMem ⟨w, fun c => (c.setCore fc ((c.core fc).setStream x.streamNum
      (((c.core fc).stream x.streamNum).passN n))).setCmd fc 0 { x with sub := [d], prog := 0 }, stop⟩ :=
    EngOut.keepsMem_of_mem fun c => by simp
  exact .bind fun ⟨_, _⟩ => .bind fun _ => .ite (.ite (.bind fun _ => .pure hout) (.bind fun _ => .pure hout))
    (.bind fun _ => .bind fun _ => .pure hout)

theorem pelotonBody_keepsMem (fc : Nat) (x : EngCmd) : (pelotonBody fc x).Gives EngOut.KeepsMem := by
  unfold pelotonBody
  exact .bind fun ⟨_, _⟩ => .bind fun _ => .bind fun _ => .ite (.fail _ _) (.bind fun _ => .bind fun _ =>
    .pure (EngOut.keepsMem_of_mem fun c => by simp))

theorem gatherOut_keepsMem (fc : Nat) (x : EngCmd) (t : Nat) (p : Positions) (rows : List (List Byte)) (mask : List Bool) :
    (gatherOut fc x t p rows mask).Gives EngOut.KeepsMem := by
  unfold gatherOut
  exact .bind fun _ => .bind fun _ => .pure (EngOut.keepsMem_of_mem fun c => by simp)

theorem rdRows_keepsMem (fc t : Nat) (p : Positions) : (rdRows fc t p).Gives fun r => ∀ out, r = .inr out → out.KeepsMem := by
  unfold rdRows
  refine .bind fun r => ?_
  dsimp only
  split
  · refine .pure fun out hout => ?_
    obtain rfl := Sum.inr.inj hout
    exact EngOut.keepsMem_of_mem fun c => by simp
  · exact .bind fun _ => .pure fun out hout => nomatch hout

theorem gatherBody_keepsMem (fc : Nat) (x : EngCmd) : (gatherBody fc x).Gives EngOut.KeepsMem := by
  unfold gatherBody
  exact .bind fun _ => .ite (.fail _ _) (.ite (.pure (EngOut.keepsMem_ofWrites _)) (.ite (.fail _ _) (.bind fun p =>
    .bind_of (rdRows_keepsMem fc _ p) fun
      | .inr out, h => .pure (h out rfl)
      | .inl _, _ => gatherOut_keepsMem fc x _ p _ _)))

theorem bagBody_keepsMem (fc : Nat) (x : EngCmd) : (bagBody fc x).Gives EngOut.KeepsMem := by
  unfold bagBody
  exact .bind fun _ => .ite (.fail _ _) (.ite (.pure (EngOut.keepsMem_ofWrites _)) (.ite (.fail _ _) (.bind fun _ => .bind fun p =>
    .bind_of (rdRows_keepsMem fc _ p) fun
      | .inr out, h => .pure (h out rfl)
      | .inl _, _ => gatherOut_keepsMem fc x _ p _ _)))

theorem hashBody_keepsMem (x : EngCmd) : (hashBody x).Gives EngOut.KeepsMem := by
  unfold hashBody
  exact .bind fun _ => .bind fun _ => .pure (EngOut.keepsMem_ofWrites _)

theorem clearBody_keepsMem (fc : Nat) (x : EngCmd) : (clearBody fc x).Gives EngOut.KeepsMem := by
  unfold clearBody
  exact .bind fun _ => .bind fun _ => .bind fun _ => .bind fun _ => .bind fun _ => .pure (EngOut.keepsMem_ofWrites _)

theorem buildBody_keepsMem (fc : Nat) (x : EngCmd) : (buildBody fc x).Gives EngOut.KeepsMem := by
  unfold buildBody
  refine .bind fun _ => .bind fun _ => .bind fun ⟨_, _, stop⟩ => .bind fun _ => ?_
  match stop with
  | none => exact .bind fun _ => .bind fun _ => .pure (EngOut.keepsMem_ofWrites _)
  | some .again => exact .stop _
  | some (.fault _ _) | some (.wait _) | some (.dead _) | some (.ask _) => exact .pure EngOut.keepsMem_id

theorem probeBody_keepsMem (fc : Nat) (x : EngCmd) : (probeBody fc x).Gives EngOut.KeepsMem := by
  unfold probeBody
  exact .bind fun _ => .bind fun _ => .bind fun _ => .bind fun _ => .bind fun _ => .pure (EngOut.keepsMem_ofWrites _)

theorem partitionBody_keepsMem (x : EngCmd) : (partitionBody x).Gives EngOut.KeepsMem := by
  unfold partitionBody
  exact .ite (.fail _ _) (.bind fun _ => .bind fun _ => .bind fun _ => .bind fun _ => .pure (EngOut.keepsMem_ofWrites _))

theorem recordBody_keepsMem (x : EngCmd) (total : Nat) : (recordBody x total).Gives EngOut.KeepsMem := by
  unfold recordBody
  exact .ite (.pure (EngOut.keepsMem_ofWrites _)) (.bind fun _ => .pure (EngOut.keepsMem_ofWrites _))

theorem selectBounded_keepsMem (fc : Nat) (x : EngCmd) : (selectBounded fc x).Gives EngOut.KeepsMem := by
  unfold selectBounded
  exact .ite (.fail _ _) (.ite (.fail _ _) (.bind fun _ => .bind fun _ => .bind fun ⟨_, _⟩ =>
    .pure (EngOut.keepsMem_of_mem fun c => by simp)))

theorem selectWrite_keepsMem (fc : Nat) (x : EngCmd) : (selectWrite fc x).Gives EngOut.KeepsMem := by
  unfold selectWrite
  exact .bind fun _ => .bind fun ⟨_, _⟩ => .pure (EngOut.keepsMem_of_mem fun c => by simp)

theorem selectRecord_keepsMem (fc : Nat) (x : EngCmd) : (selectRecord fc x).Gives EngOut.KeepsMem := by
  unfold selectRecord
  exact .bind fun _ => .pure (EngOut.keepsMem_of_mem fun c => by simp)

theorem EngOut.KeepsMem.useTile {out : EngOut} (fc : Nat) (sums : List (List Nat)) (h : out.KeepsMem) : (useTile fc sums out).KeepsMem :=
  fun c hc => h c hc

theorem mtDone_keepsMem (w : List Wr × Nat) : (mtDone w).KeepsMem := fun _ h => h

theorem gemmBody_keepsMem (fc : Nat) (x : EngCmd) : (gemmBody fc x).Gives EngOut.KeepsMem := by
  unfold gemmBody
  exact .bind fun _ => .bind fun _ => .bind fun _ => .ite (.fail _ _) (.bind fun _ => .bind fun _ => .bind fun _ => .bind fun _ =>
    .pure (.useTile fc _ (mtDone_keepsMem _)))

theorem voxClear_keepsMem (fc : Nat) (x : EngCmd) : (voxClear fc x).Gives EngOut.KeepsMem := by
  unfold voxClear
  exact .bind fun ⟨_, _⟩ => .bind fun _ => .pure (EngOut.keepsMem_of_mem fun c => by simp)

theorem voxeliseBody_keepsMem (fc : Nat) (x : EngCmd) : (voxeliseBody fc x).Gives EngOut.KeepsMem := by
  unfold voxeliseBody
  exact .bind fun ⟨_, _⟩ => .bind fun _ => .ite (.fail _ _) (.bind fun _ => .bind fun _ => .pure (EngOut.keepsMem_of_mem fun c => by simp))

theorem sweepTail_keepsMem (x : EngCmd) : (sweepTail x).Gives EngOut.KeepsMem := by
  unfold sweepTail
  exact .bind fun _ => .pure (EngOut.keepsMem_ofWrites _)

theorem rulesBody_keepsMem (fc : Nat) (x : EngCmd) : (rulesBody fc x).Gives EngOut.KeepsMem := by
  unfold rulesBody
  exact .bind fun _ => .bind fun _ => .bind fun _ => .ite (.fail _ _) (.bind fun _ => .pure (mtDone_keepsMem _))

theorem convBody_keepsMem (fc : Nat) (x : EngCmd) : (convBody fc x).Gives EngOut.KeepsMem := by
  unfold convBody
  exact .ite (.pure (EngOut.keepsMem_ofWrites _)) (.bind fun _ => .bind fun _ => .bind fun _ => .bind fun _ => .bind fun _ =>
    .pure (.useTile fc _ (mtDone_keepsMem _)))

theorem bevBody_keepsMem (x : EngCmd) : (bevBody x).Gives EngOut.KeepsMem := by
  unfold bevBody
  extract_lets
  split
  · exact .fail _ _
  · exact .bind fun _ => .bind fun _ => .bind fun _ => .pure (mtDone_keepsMem _)

theorem labelsBody_keepsMem (x : EngCmd) : (labelsBody x).Gives EngOut.KeepsMem := by
  unfold labelsBody
  exact .bind fun _ => .bind fun _ => .bind fun _ => .pure (mtDone_keepsMem _)

theorem bcastBody_keepsMem (x : EngCmd) : (bcastBody x).Gives EngOut.KeepsMem := by
  unfold bcastBody
  exact .bind fun _ => .bind fun _ => .bind fun _ => .bind fun _ => .bind fun _ => .pure (EngOut.keepsMem_ofWrites _)

theorem scatterBody_keepsMem (fc : Nat) (x : EngCmd) : (scatterBody fc x).Gives EngOut.KeepsMem := by
  unfold scatterBody
  refine .bind fun _ => .bind fun _ => .ite (.fail _ _) ?_
  split
  · refine .ite (.fail _ _) (.ite (.fail _ _) (.pure fun c hc => ?_))
    dsimp only
    have hsent {d : Chip} (hd : Mem.wf d.mem = true) (n m ctx : Nat) (l : List Chunk) :
        Mem.wf (l.foldl (fun c k => c.sendChunk n m ctx k) d).mem = true :=
      Chip.foldl_wf (fun d k hd => Chip.sendChunk_wf n m ctx k hd) l hd
    split
    · simpa using hsent (Chip.sendJoin_wf _ _ _ _ _ (by simp [hc])) _ _ _ _
    · exact hsent (Chip.sendJoin_wf _ _ _ _ _ (by simp [hc])) _ _ _ _
  · exact .fail _ _

theorem selectJoin_keepsMem (fc : Nat) (x : EngCmd) : (selectJoin fc x).Gives EngOut.KeepsMem := by
  unfold selectJoin
  refine .ite (.fail _ _) (.bind fun _ => .bind fun _ => ?_)
  split
  · exact .fail _ _
  · exact .pure fun c hc => Chip.foldl_wf (fun d k hd => by simp [hd]) _ (by simp [hc])

theorem selectPass_keepsMem (fc : Nat) (x : EngCmd) : (selectPass fc x).Gives EngOut.KeepsMem := by
  unfold selectPass
  exact .ite (.fail _ _) (.ite (.pure (EngOut.keepsMem_of_mem fun c => by simp)) (.ite
    (.bind fun _ => .bind fun _ => .pure (EngOut.keepsMem_of_mem fun c => by simp))
    (.bind fun _ => .pure fun c hc => Chip.foldl_wf (fun d k hd => by simp [hd]) _ (by simp [hc]))))

@[simp] theorem Chip.selectStep_wf {c : Chip} (fc : Nat) (x : EngCmd) (h : Mem.wf c.mem = true) :
    Mem.wf (c.selectStep fc x).mem = true := by
  have hrecord {b : Rd EngOut} (hb : b.Gives EngOut.KeepsMem) :
      Mem.wf (if (c.core fc).engineOutstanding 3 then c.stallEngine fc 3 .lateRemote else c.carry fc 3 x b).mem = true := by
    split
    · simpa using h
    · exact Chip.carry_wf fc 3 x h hb
  fun_cases Chip.selectStep c fc x
  case case1 =>
    simp +zetaDelta only
    split
    · exact Chip.carry_wf fc 3 x h (selectJoin_keepsMem fc x)
    · exact Chip.carry_wf fc 3 x h (selectBounded_keepsMem fc x)
  case case2 => exact hrecord (recordBody_keepsMem x _)
  case case5 => exact hrecord (selectRecord_keepsMem fc x)
  case case6 => exact Chip.carry_wf fc 3 x h (selectWrite_keepsMem fc x)
  case case8 => exact Chip.carry_wf fc 3 x h (selectPass_keepsMem fc x)
  all_goals simp [h]

@[simp] theorem selectRun_wf (fc : Nat) (seq : BitVec 32) (n : Nat) {c : Chip} (h : Mem.wf c.mem = true) :
    Mem.wf (selectRun fc seq n c).mem = true := by
  induction n generalizing c with
  | zero => exact h
  | succ n ih =>
    unfold selectRun
    split
    · exact h
    · next x _ =>
      have hd := Chip.selectStep_wf fc x h
      dsimp only
      repeat' split
      all_goals simp [h, hd, ih]

theorem Chip.mtCarry_wf {c : Chip} (fc : Nat) (x : EngCmd) {body : EngCmd → Rd EngOut}
    (h : Mem.wf c.mem = true) (hb : ∀ x, (body x).Gives EngOut.KeepsMem) : Mem.wf (c.mtCarry fc x body).mem = true := by
  unfold Chip.mtCarry
  dsimp only
  split
  · next ho => exact Chip.commitCmd_wf fc 5 _ _ h ((hb _).of_result ho)
  · simp [h]

theorem Chip.mtRow_wf {c : Chip} (fc opcode : Nat) (ecc : Bool) {body : EngCmd → Rd EngOut} (h : Mem.wf c.mem = true)
    (hb : ∀ x, (body x).Gives EngOut.KeepsMem) : Mem.wf (c.mtRow fc opcode ecc body).mem = true :=
  Chip.onCommand_wf h fun x => Chip.mtCarry_wf fc x h hb

@[simp] theorem Chip.voxStep_wf {c : Chip} (fc : Nat) (x : EngCmd) (h : Mem.wf c.mem = true) : Mem.wf (c.voxStep fc x).mem = true := by
  unfold Chip.voxStep
  split
  · exact Chip.mtCarry_wf fc x h (voxClear_keepsMem fc)
  · split
    · simpa using h
    · split
      · exact Chip.mtCarry_wf fc x h (voxeliseBody_keepsMem fc)
      · exact Chip.mtCarry_wf fc x h sweepTail_keepsMem

@[simp] theorem voxRun_wf (fc : Nat) (seq : BitVec 32) (n : Nat) {c : Chip} (h : Mem.wf c.mem = true) :
    Mem.wf (voxRun fc seq n c).mem = true := by
  induction n generalizing c with
  | zero => exact h
  | succ n ih =>
    unfold voxRun
    split
    · exact h
    · next x _ =>
      have hd := Chip.voxStep_wf fc x h
      dsimp only
      repeat' split
      all_goals simp [h, hd, ih]

@[simp] theorem Chip.a2aReply_wf {c : Chip} (a : A2aRecv) (h : Mem.wf c.mem = true) : Mem.wf (c.a2aReply a).mem = true := by
  fun_cases Chip.a2aReply <;> simp +zetaDelta [h, apply_ite Chip.mem, Chip.put_wf]

@[simp] theorem Chip.a2aCount_wf {c : Chip} (name part pkg rows parts rowBytes cap recv : Nat) (h : Mem.wf c.mem = true) :
    Mem.wf (c.a2aCount name part pkg rows parts rowBytes cap recv).mem = true := by
  fun_cases Chip.a2aCount <;> simp [h]

@[simp] theorem Chip.a2aStart_wf {c : Chip} (fc : Nat) (x : EngCmd) (totals : List (Nat × Nat)) (h : Mem.wf c.mem = true) :
    Mem.wf (c.a2aStart fc x totals).mem = true := by
  refine Chip.foldl_wf (fun d t hd => ?_) totals (by simp [h])
  split <;> simp [hd]

theorem a2aHead_keepsMem (fc : Nat) (x : EngCmd) : (a2aHead fc x).Gives EngOut.KeepsMem := by
  unfold a2aHead
  exact .bind fun _ => .bind fun _ => .bind fun _ => .pure fun c hc => Chip.a2aStart_wf fc x _ hc

theorem a2aRows_keepsMem (fc : Nat) (x : EngCmd) : (a2aRows fc x).Gives EngOut.KeepsMem := by
  unfold a2aRows
  refine .ite (.stop _) (.bind fun _ => .bind fun _ => .pure fun c hc => Chip.foldl_wf (fun d p hd => ?_) _ (by simp [hc]))
  split <;> simp [hd]

end Sys2Proof.Machine
end

section
/-! Memory stays canonical under messages, power, recipes, the units, start-up and register accesses (R116). -/

namespace Sys2Proof.Machine

@[simp] theorem Chip.homeWrite_wf {c : Chip} (m : Msg) (o : Nat) (data : List Byte) (h : Mem.wf c.mem = true) :
    Mem.wf (c.homeWrite m o data).mem = true := by
  unfold Chip.homeWrite
  split <;> simp [h]

@[simp] theorem Chip.serveWr_wf {c : Chip} (m : Msg) (h : Mem.wf c.mem = true) : Mem.wf (c.serveWr m).mem = true :=
  Chip.atHome_wf h (by simp [h])

@[simp] theorem Chip.serveStc_wf {c : Chip} (m : Msg) (h : Mem.wf c.mem = true) : Mem.wf (c.serveStc m).mem = true := by
  refine Chip.atHome_wf h ?_
  dsimp only
  split <;> simp [h]

@[simp] theorem Chip.takeRefuse_wf {c : Chip} (m : Msg) (h : Mem.wf c.mem = true) : Mem.wf (c.takeRefuse m).mem = true := by
  fun_cases Chip.takeRefuse c m <;> simp [h, Chip.copyAnswer_mem]

@[simp] theorem Chip.deliverSm_wf {c : Chip} (fc : Nat) (m : Msg) (h : Mem.wf c.mem = true) : Mem.wf (c.deliverSm fc m).mem = true := by
  fun_cases Chip.deliverSm <;> simp +zetaDelta [h, apply_ite Chip.mem]

@[simp] theorem Chip.takeSm_wf {c : Chip} (m : Msg) (h : Mem.wf c.mem = true) : Mem.wf (c.takeSm m).mem = true := by
  fun_cases Chip.takeSm <;> simp [h]

@[simp] theorem Chip.smDeliver_wf {c : Chip} (fc : Nat) (h : Mem.wf c.mem = true) : Mem.wf (c.smDeliver fc).mem = true := by
  unfold Chip.smDeliver
  split <;> simp [h]

@[simp] theorem Chip.takeBulk_wf {c : Chip} (m : Msg) (h : Mem.wf c.mem = true) : Mem.wf (c.takeBulk m).mem = true :=
  Chip.atHome_wf h (by simp [h])

@[simp] theorem Chip.takeBcast_wf {c : Chip} (m : Msg) (h : Mem.wf c.mem = true) : Mem.wf (c.takeBcast m).mem = true :=
  Chip.atHome_wf h (by simp [h])

@[simp] theorem Chip.serve_wf {c : Chip} (m : Msg) (ecc : Bool) (h : Mem.wf c.mem = true) : Mem.wf (c.serve m ecc).mem = true := by
  fun_cases Chip.serve c m ecc
  case case11 =>
    refine Chip.collective_wf h ?_
    split <;> simp [h]
  case case12 | case14 => exact Chip.collective_wf h (by simp [h])
  all_goals simp [h]

@[simp] theorem Chip.serveWaiting_wf {c : Chip} (h : Mem.wf c.mem = true) : Mem.wf (c.serveWaiting).mem = true := by
  fun_cases Chip.serveWaiting
  simp +zetaDelta +contextual [h, Chip.foldl_wf]

@[simp] theorem Chip.message_wf {c : Chip} (t : Nat) (m : Msg) (ecc : Bool) (h : Mem.wf c.mem = true) :
    Mem.wf (c.message t m ecc).mem = true := by
  unfold Chip.message
  split
  · exact Chip.arrive_wf h (fun q d hd => Chip.serve_wf q ecc hd) none
  · exact h

@[simp] theorem Chip.setPool_wf {c : Chip} (n : Nat) (st : DomState) (h : Mem.wf c.mem = true) :
    Mem.wf (c.setPool n st).mem = true := by
  simp [Chip.setPool, h, Chip.zeroRange_wf]

@[simp] theorem Chip.coreReset_wf {c : Chip} (n : Nat) (h : Mem.wf c.mem = true) :
    Mem.wf (c.coreReset n).mem = true := by
  simp [Chip.coreReset, h]

@[simp] theorem Chip.reachRun_wf {c : Chip} (d : Nat) (h : Mem.wf c.mem = true) : Mem.wf (c.reachRun d).mem = true := by
  fun_cases Chip.reachRun <;> simp +zetaDelta [h]

@[simp] theorem Chip.reachOff_wf {c : Chip} (d : Nat) (h : Mem.wf c.mem = true) : Mem.wf (c.reachOff d).mem = true := by
  fun_cases Chip.reachOff <;> simp +zetaDelta [h]

@[simp] theorem Chip.endTransition_wf {c : Chip} (d : Nat) (h : Mem.wf c.mem = true) : Mem.wf (c.endTransition d).mem = true := by
  unfold Chip.endTransition
  dsimp only
  repeat' split
  all_goals simp [h]

@[simp] theorem Chip.selfTestDone_wf {c : Chip} (n : Nat) (pass : Bool) (h : Mem.wf c.mem = true) :
    Mem.wf (c.selfTestDone n pass).mem = true := by
  unfold Chip.selfTestDone
  dsimp only
  repeat' split
  all_goals simp [h]

@[simp] theorem Chip.poolIdle_wf {c : Chip} (n : Nat) (h : Mem.wf c.mem = true) : Mem.wf (c.poolIdle n).mem = true := by
  unfold Chip.poolIdle
  split <;> simp [h]

@[simp] theorem Chip.startVerify_wf {c : Chip} (h : Mem.wf c.mem = true) : Mem.wf (c.startVerify).mem = true := by
  fun_cases Chip.startVerify <;> simp [h, Chip.put_wf]

@[simp] theorem Chip.rcpEffect_wf {c : Chip} (o : RcpOp) (h : Mem.wf c.mem = true) : Mem.wf (c.rcpEffect o).mem = true := by
  cases o <;> simp [Chip.rcpEffect, h]

@[simp] theorem Chip.rcpSubmit_wf {c : Chip} (o : RcpOp) (h : Mem.wf c.mem = true) : Mem.wf (c.rcpSubmit o).mem = true := by
  fun_cases Chip.rcpSubmit <;> simp [h]

@[simp] theorem Chip.commitDone_wf {c : Chip} (h : Mem.wf c.mem = true) : Mem.wf (c.commitDone).mem = true := by
  fun_cases Chip.commitDone <;> simp +zetaDelta +contextual [h, Chip.foldl_wf]

@[simp] theorem Chip.unitWrite_wf {c : Chip} (who : Holder) (ctx : Nat) (w : Wr) (h : Mem.wf c.mem = true) :
    Mem.wf (c.unitWrite who ctx w).mem = true := by
  cases w <;> simp [Chip.unitWrite, h]

@[simp] theorem Chip.unitWrites_wf {c : Chip} (who : Holder) (ctx : Nat) (l : List Wr) (h : Mem.wf c.mem = true) :
    Mem.wf (c.unitWrites who ctx l).mem = true :=
  Chip.foldl_wf (fun _ w hd => Chip.unitWrite_wf who ctx w hd) l h

@[simp] theorem Chip.unitSend_wf {c : Chip} (who : Holder) (ctx prog : Nat) (l : List Wr) (h : Mem.wf c.mem = true) :
    Mem.wf (c.unitSend who ctx prog l).1.mem = true :=
  Chip.unitWrites_wf who ctx _ h

@[simp] theorem Chip.textCarry_wf {c : Chip} (j : TextJob) (o : Except Stop (TextOut × List Nat)) (h : Mem.wf c.mem = true) :
    Mem.wf (c.textCarry j o).mem = true := by
  have hsend (w v u : List Wr) (reads : List Nat) : Mem.wf ((((c.unitSend .text j.ctx j.prog w).1.unitReads .text reads).unitWrites
     .text j.ctx v).unitWrites .text j.ctx u).mem = true :=
    Chip.unitWrites_wf _ _ _ (Chip.unitWrites_wf _ _ _ (by simp [h]))
  fun_cases Chip.textCarry c j o
  case case4 | case5 => simp +zetaDelta [hsend] 
  all_goals simp +zetaDelta [h]

@[simp] theorem Chip.textRow_wf {c : Chip} (lane op : Nat) (ecc : Bool) (body : Voc → Ctx → List Byte → Nat → Rd TextOut)
    (h : Mem.wf c.mem = true) : Mem.wf (c.textRow lane op ecc body).mem = true := by
  unfold Chip.textRow
  dsimp only
  repeat' split
  all_goals simp [h]

@[simp] theorem Chip.vidFinish_wf {c : Chip} (x : Ctx) (j : VidJob) (h : Mem.wf c.mem = true) : Mem.wf (c.vidFinish x j).mem = true := by
  unfold Chip.vidFinish
  dsimp only
  repeat' split
  all_goals simp [h]

@[simp] theorem Chip.settleUnit_wf {c : Chip} (x : Ctx) (j : VidJob) (u : DecUnit) (h : Mem.wf c.mem = true) :
    Mem.wf (c.settleUnit x j u).mem = true := by
  fun_cases Chip.settleUnit <;> simp +zetaDelta [h]

@[simp] theorem Chip.decodeShape_wf {c : Chip} (ctx stage : Nat) (ecc : Bool) (h : Mem.wf c.mem = true) :
    Mem.wf (c.decodeShape ctx stage ecc).mem = true := by
  fun_cases Chip.decodeShape <;> simp +zetaDelta [h]

@[simp] theorem Chip.keepPictures_wf {c : Chip} (n : Nat) (u : VidUnit) (h : Mem.wf c.mem = true) :
    Mem.wf (c.keepPictures n u).mem = true := by
  simp [Chip.keepPictures, h, Chip.put_wf]

@[simp] theorem Chip.unitStart_wf {c : Chip} (h : Mem.wf c.mem = true) : Mem.wf (c.unitStart).mem = true := by
  fun_cases Chip.unitStart <;> simp [h]

@[simp] theorem Chip.emerged_wf {c : Chip} (x : Ctx) (j : VidJob) (d : List Byte) (u : DecUnit) (i : Nat) (h : Mem.wf c.mem = true) :
    Mem.wf (c.emerged x j d u i).mem = true := by
  unfold Chip.emerged
  split <;> simp [h]

@[simp] theorem Chip.sampleEmerge_wf {c : Chip} (ctx stage i : Nat) (ecc : Bool) (h : Mem.wf c.mem = true) :
    Mem.wf (c.sampleEmerge ctx stage i ecc).mem = true := by
  have hsend (n : Nat) (w v : List Wr) (reads : List Nat) : Mem.wf (((c.unitSend .video ctx n w).1.unitReads .video reads).unitWrites
     .video ctx v).mem = true := Chip.unitWrites_wf _ _ _ (by simp [h])
  fun_cases Chip.sampleEmerge c ctx stage i ecc
  all_goals simp +zetaDelta [h, hsend]

theorem Chip.hbmWrite_wf {c d : Chip} {o : Nat} {data : List Byte} (h : Mem.wf c.mem = true) (hd : c.hbmWrite o data = some d) :
    Mem.wf d.mem = true := by
  unfold Chip.hbmWrite at hd
  split at hd
  · obtain rfl := Option.some.inj hd
    simp [h]
  · exact nomatch hd

@[simp] theorem Chip.bar4Write_wf {c : Chip} (n o : Nat) (data : List Byte) (poisoned : Bool) (h : Mem.wf c.mem = true) :
    Mem.wf (c.bar4Write n o data poisoned).mem = true := by
  unfold Chip.bar4Write
  extract_lets p a
  split
  · simp [h, Chip.portErr_mem]
  · split
    · exact h
    · cases hw : c.hbmWrite a data with
      | none => simp [h, Chip.portErr_mem]
      | some d => exact Chip.hbmWrite_wf h hw

@[simp] theorem Chip.cold_wf (c : Chip) : Mem.wf c.cold.mem = true := rfl

@[simp] theorem Chip.porFall_wf (c : Chip) : Mem.wf (c.porFall).mem = true := by
  unfold Chip.porFall
  split <;> simp

@[simp] theorem Chip.hold_wf (c : Chip) : Mem.wf (c.hold).mem = true := by simp [Chip.hold]

@[simp] theorem Chip.porRise_wf {c : Chip} (bringupN : Bool) (h : Mem.wf c.mem = true) : Mem.wf (c.porRise bringupN).mem = true := by
  unfold Chip.porRise
  split <;> simp [h]

@[simp] theorem Chip.railsFail_wf {c : Chip} (rail enabled : Nat) (h : Mem.wf c.mem = true) :
    Mem.wf (c.railsFail rail enabled).mem = true := by
  simp [Chip.railsFail, h, Chip.lose_wf]

@[simp] theorem Chip.railTimeout_wf {c : Chip} (rail : Nat) (h : Mem.wf c.mem = true) : Mem.wf (c.railTimeout rail).mem = true := by
  fun_cases Chip.railTimeout <;> simp [h]

@[simp] theorem Chip.fillDone_wf {c : Chip} (h : Mem.wf c.mem = true) : Mem.wf (c.fillDone).mem = true := by
  unfold Chip.fillDone
  split <;> simp [h, Chip.zeroFill_wf]

@[simp] theorem Chip.warmRestart_wf {c : Chip} (h : Mem.wf c.mem = true) : Mem.wf (c.warmRestart).mem = true := by
  unfold Chip.warmRestart
  split <;> simp [h, Chip.lose_wf]

@[simp] theorem Chip.thermtrip_wf {c : Chip} (sensor : Nat) (h : Mem.wf c.mem = true) : Mem.wf (c.thermtrip sensor).mem = true := by
  unfold Chip.thermtrip
  split <;> simp [h, Chip.lose_wf]

@[simp] theorem Chip.railCrit_wf {c : Chip} (j : Nat) (low : Bool) (h : Mem.wf c.mem = true) : Mem.wf (c.railCrit j low).mem = true := by
  fun_cases Chip.railCrit <;> simp [h]

@[simp] theorem Chip.voltSample_wf {c : Chip} (j v : Nat) (h : Mem.wf c.mem = true) : Mem.wf (c.voltSample j v).mem = true := by
  fun_cases Chip.voltSample <;> simp +zetaDelta [h]

@[simp] theorem Chip.railSamples_wf {c : Chip} (volts currents : List Nat) (h : Mem.wf c.mem = true) :
    Mem.wf (c.railSamples volts currents).mem = true := by
  fun_cases Chip.railSamples
  simp +zetaDelta +contextual [h, Chip.foldl_wf]

@[simp] theorem Chip.writeRcp_wf {c : Chip} (o : Nat) (v reach : Word) (h : Mem.wf c.mem = true) :
    Mem.wf (c.writeRcp o v reach).mem = true := by
  fun_cases Chip.writeRcp <;> simp [h]

@[simp] theorem Chip.regPut_wf {c : Chip} (allowed : Bool) (o : Nat) (v reach : Word) (h : Mem.wf c.mem = true) :
    Mem.wf (c.regPut allowed o v reach).mem = true := by
  fun_cases Chip.regPut <;> simp [h]

@[simp] theorem Chip.regStore_wf {c : Chip} (allowed : Bool) (o size : Nat) (v : Word) (h : Mem.wf c.mem = true) :
    Mem.wf (c.regStore allowed o size v).mem = true := by
  simp [Chip.regStore, h]

@[simp] theorem Chip.barStore_wf {c : Chip} (n : Nat) (allowed : Bool) (o size : Nat) (v : Word) (h : Mem.wf c.mem = true) :
    Mem.wf (c.barStore n allowed o size v).mem = true := by
  unfold Chip.barStore
  split <;> simp [h, Chip.portErr_mem]

@[simp] theorem Chip.pathWrite_wf {c : Chip} (p : Path) (o size : Nat) (v : Word) (h : Mem.wf c.mem = true) :
    Mem.wf (c.pathWrite p o size v).mem = true := by
  fun_cases Chip.pathWrite <;> simp [h]

@[simp] theorem Chip.bar5_wf {c : Chip} (n o size : Nat) (write : Option Word) (h : Mem.wf c.mem = true) :
    Mem.wf (c.bar5 n o size write).mem = true := by
  fun_cases Chip.bar5 <;> simp +zetaDelta [h, apply_ite Chip.mem, Chip.portErr_mem]

@[simp] theorem Chip.serveRegWr_wf {c : Chip} (m : Msg) (h : Mem.wf c.mem = true) :
    Mem.wf (c.serveRegWr m).mem = true := by
  simp [Chip.serveRegWr, h]

@[simp] theorem Chip.serveAny_wf {c : Chip} (m : Msg) (h : Mem.wf c.mem = true) : Mem.wf (c.serveAny m).mem = true := by
  fun_cases Chip.serveAny <;> simp [h]

@[simp] theorem Chip.regMessage_wf {c : Chip} (t : Nat) (m : Msg) (h : Mem.wf c.mem = true) : Mem.wf (c.regMessage t m).mem = true := by
  unfold Chip.regMessage
  split
  · exact Chip.arrive_wf h (fun q d hd => Chip.serveAny_wf q hd) none
  · exact h

@[simp] theorem Chip.regFill_wf {c : Chip} (o : Nat) (b : List Byte) (n : Nat) (h : Mem.wf c.mem = true) :
    Mem.wf (c.regFill o b n).mem = true := by
  induction n generalizing c o b with
  | zero => exact h
  | succ n ih => exact ih _ _ (Chip.regStore_wf true o 8 _ h)

@[simp] theorem Chip.mgmtWrite_wf {c : Chip} (offset : Word) (payload : List Byte) (h : Mem.wf c.mem = true) :
    Mem.wf (c.mgmtWrite offset payload).mem = true := by
  unfold Chip.mgmtWrite
  dsimp only
  split <;> simp [h]

@[simp] theorem Chip.mgmtHbm_wf {c : Chip} (offset : Word) (payload : List Byte) (h : Mem.wf c.mem = true) :
    Mem.wf (c.mgmtHbm offset payload).mem = true := by
  unfold Chip.mgmtHbm
  split
  · simp [h]
  · split
    · simp [h]
    · split
      · exact h
      · split
        · next d hd => simp [Chip.hbmWrite_wf h hd]
        · simp [h]

@[simp] theorem Chip.dispatch_wf {c : Chip} (n cls : Nat) (m : Msg) (h : Mem.wf c.mem = true) : Mem.wf (c.dispatch n cls m).mem = true := by
  unfold Chip.dispatch
  split
  · exact h
  · exact Chip.arrive_wf h (fun q d hd => Chip.serveAny_wf q hd) _

@[simp] theorem Chip.takeData437_wf {c : Chip} (n : Nat) (f : List Byte) (h : Mem.wf c.mem = true) :
    Mem.wf (c.takeData437 n f).mem = true := by
  have hjoin (d : Chip) : (d.joinFlit f).2.mem = d.mem := by simp
  fun_cases Chip.takeData437 c n f
  case case4 hf | case5 hf => 
    have := hjoin (c.setLink n ((c.link n).acceptFlit f))
    rw [hf] at this
    simp at this
    simp [this, h]
  all_goals simp +zetaDelta [h]

@[simp] theorem Chip.takeFlit_wf {c : Chip} (n : Nat) (f : List Byte) (h : Mem.wf c.mem = true) : Mem.wf (c.takeFlit n f).mem = true := by
  fun_cases Chip.takeFlit <;> simp +zetaDelta [h]

@[simp] theorem Chip.takeHeld_wf {c : Chip} (n : Nat) (h : Mem.wf c.mem = true) : Mem.wf (c.takeHeld n).mem = true := by
  fun_cases Chip.takeHeld <;> simp +zetaDelta +contextual [h, Chip.foldl_wf]

@[simp] theorem Chip.takeSet_wf {c : Chip} (n : Nat) (t : List Byte) (h : Mem.wf c.mem = true) :
    Mem.wf (c.takeSet n t).mem = true := by
  simp [Chip.takeSet, h]

@[simp] theorem Chip.codeword_wf {c : Chip} (n : Nat) (w : Codeword) (h : Mem.wf c.mem = true) : Mem.wf (c.codeword n w).mem = true := by
  fun_cases Chip.codeword <;> simp +zetaDelta +contextual [h, Chip.foldl_wf]

@[simp] theorem Chip.sendSets_wf {c : Chip} (n : Nat) (k : Link) (h : Mem.wf c.mem = true) :
    Mem.wf (c.sendSets n k).mem = true := by
  simp [Chip.sendSets, h]

@[simp] theorem Chip.sendCodeword_wf {c : Chip} (n : Nat) (done : BitVec 8) (req : BitVec 48) (h : Mem.wf c.mem = true) :
    Mem.wf (c.sendCodeword n done req).mem = true := by
  fun_cases Chip.sendCodeword <;> simp [h]

end Sys2Proof.Machine
end

section
/-! Every command keeps memory canonical (R116). -/

namespace Sys2Proof.Machine

/-- Memory is canonical wherever a command leads. -/
def KeepsMem (o : Host.Outcome State Fault Refusal) : Prop := ∀ t, o = .next t → t.memOk

theorem State.run_keepsMem {s : State} {f : Chip → Chip} (h : Mem.wf (f s.chip).mem = true) : KeepsMem (s.run f) := by
  intro t ht
  obtain rfl := Host.Outcome.next.inj ht
  exact h

theorem State.runIf_keepsMem {s : State} {ok : Bool} {f : Chip → Chip} (h : Mem.wf (f s.chip).mem = true) : KeepsMem (s.runIf ok f) := by
  cases ok with
  | true => exact State.run_keepsMem h
  | false => intro t ht; exact nomatch (show Host.Outcome.fault Fault.noSuchUnit = Host.Outcome.next t from ht)

theorem State.run_issue_keepsMem {s : State} {l : Loc} {f : Chip → Slot → Chip} (h : Mem.wf s.chip.mem = true)
    (hf : ∀ x d, f s.chip x = d → Mem.wf d.mem = true) : KeepsMem (s.run fun c => c.issue l (f c)) :=
  State.run_keepsMem (Chip.issue_wf h hf)

section
variable {s : State} (h : Mem.wf s.chip.mem = true)
include h

theorem execTend_keepsMem (l : Loc) : KeepsMem (execTend l s) := by
  refine State.run_issue_keepsMem h fun x d hd => ?_
  dsimp only at hd
  split at hd
  · split at hd <;> simp [← hd, h]
  · simp [← hd, h, Chip.stallSlot_mem]

theorem execEret_keepsMem (l : Loc) : KeepsMem (execEret l s) := by
  refine State.run_issue_keepsMem h fun x d hd => ?_
  split at hd
  · simp [← hd, h]
  · split at hd
    · simp [← hd, h]
    · split at hd <;> simp [← hd, h]

theorem execMts_keepsMem (l : Loc) (rs : Reg) (snum : BitVec 12) : KeepsMem (execMts l rs snum s) := by
  refine State.run_issue_keepsMem h fun x d hd => ?_
  extract_lets n k at hd
  repeat' split at hd
  all_goals simp +zetaDelta [← hd, h]

theorem execPfh_keepsMem (l : Loc) (hint ra : Reg) (imm : BitVec 16) : KeepsMem (execPfh l hint ra imm s) := by
  refine State.run_issue_keepsMem h fun x d hd => ?_
  generalize effAddr (x.xr ra) (sext16 imm) = ea at hd
  cases hu : s.chip.access (some l.fc.toNat) ea 1 false with
  | none =>
    simp only [hu] at hd
    simp [← hd, h]
  | some u =>
    simp only [hu] at hd
    split at hd
    · split at hd <;> simp [← hd, h]
    · simp [← hd, h]

theorem execVld_keepsMem (l : Loc) (vd ra rb : Reg) (mask : BitVec 3) (ty mode : BitVec 4) (ecc : Bool) :
    KeepsMem (execVld l vd ra rb mask ty mode ecc s) := by
  refine State.run_issue_keepsMem h fun x d hd => ?_
  extract_lets t m fc u w active reads addr key src at hd
  repeat' split at hd
  all_goals simp +zetaDelta [← hd, h, Chip.stallSlot_mem, Chip.heres_mem]

theorem execVst_keepsMem (l : Loc) (vd ra rb : Reg) (mask : BitVec 3) (ty mode : BitVec 4) :
    KeepsMem (execVst l vd ra rb mask ty mode s) := by
  refine State.run_issue_keepsMem h fun x d hd => ?_
  extract_lets t m fc u w active addr at hd
  repeat' split at hd
  all_goals simp +zetaDelta [← hd, h, Chip.stallSlot_mem, Chip.heres_mem, Chip.put_wf]

theorem execDoubleFaultService_keepsMem (l : Loc) : KeepsMem (execDoubleFaultService l s) := by
  refine State.run_keepsMem ?_
  dsimp only
  split
  · split <;> simp [h]
  · exact h

theorem execPmcWrapInterrupt_keepsMem (fc : BitVec 6) : KeepsMem (execPmcWrapInterrupt fc s) := by
  refine State.run_keepsMem ?_
  dsimp only
  repeat' split
  all_goals simp [h]

theorem execStream_keepsMem (fc : BitVec 6) (ecc : Bool) : KeepsMem (execStream fc ecc s) := by
  refine State.run_keepsMem (Chip.onCommand_wf h fun x => ?_)
  extract_lets t count
  split
  · exact h
  · split
    · simp [h]
    · exact Chip.carry_wf fc.toNat 0 x h (.ite (pelotonBody_keepsMem _ x) (.ite (streamDirect_keepsMem _ x _) (streamRing_keepsMem _ x _)))

theorem execA2a_keepsMem (fc : BitVec 6) (ecc : Bool) : KeepsMem (execA2a fc ecc s) := by
  refine State.run_keepsMem (Chip.onCommand_wf h fun x => ?_)
  split
  · exact Chip.carry_wf fc.toNat 0 x h (a2aHead_keepsMem fc.toNat x)
  · split
    · exact Chip.carry_wf fc.toNat 0 x h (a2aRows_keepsMem fc.toNat x)
    · simp [h]

end


theorem exec_keepsMem (i : Instr) {s : State} (h : Mem.wf s.chip.mem = true) : KeepsMem (exec i s) := by
  unfold exec
  cases i with
  | tend l => exact execTend_keepsMem h l
  | eret l => exact execEret_keepsMem h l
  | mts l rs snum => exact execMts_keepsMem h l rs snum
  | pfh l hint ra imm => exact execPfh_keepsMem h l hint ra imm
  | vld l vd ra rb mask ty mode ecc => exact execVld_keepsMem h l vd ra rb mask ty mode ecc
  | vst l vd ra rb mask ty mode => exact execVst_keepsMem h l vd ra rb mask ty mode
  | doubleFaultService l => exact execDoubleFaultService_keepsMem h l
  | pmcWrapInterrupt fc => exact execPmcWrapInterrupt_keepsMem h fc
  | stream fc ecc => exact execStream_keepsMem h fc ecc
  | a2a fc ecc => exact execA2a_keepsMem h fc ecc
  | bcast => exact State.run_keepsMem (Chip.engineRow_wf _ _ _ _ _ h bcastBody_keepsMem)
  | layoutCopy => exact State.run_keepsMem (Chip.startRow_wf _ _ _ _ _ _ h (lceBody_keepsMem _))
  | gather => exact State.run_keepsMem (Chip.gatherRow_wf _ _ _ h (gatherBody_keepsMem _))
  | bag => exact State.run_keepsMem (Chip.gatherRow_wf _ _ _ h (bagBody_keepsMem _))
  | hash => exact State.run_keepsMem (Chip.hjRow_wf _ _ _ h hashBody_keepsMem)
  | hjuClear => exact State.run_keepsMem (Chip.hjRow_wf _ _ _ h (clearBody_keepsMem _))
  | build => exact State.run_keepsMem (Chip.hjRow_wf _ _ _ h (buildBody_keepsMem _))
  | probe => exact State.run_keepsMem (Chip.hjRow_wf _ _ _ h (probeBody_keepsMem _))
  | partition => exact State.run_keepsMem (Chip.hjRow_wf _ _ _ h partitionBody_keepsMem)
  | scatter => exact State.run_keepsMem (Chip.hjRow_wf _ _ _ h (scatterBody_keepsMem _))
  | gemm => exact State.run_keepsMem (Chip.mtRow_wf _ _ _ h (gemmBody_keepsMem _))
  | rules => exact State.run_keepsMem (Chip.mtRow_wf _ _ _ h (rulesBody_keepsMem _))
  | conv => exact State.run_keepsMem (Chip.mtRow_wf _ _ _ h (convBody_keepsMem _))
  | bev => exact State.run_keepsMem (Chip.mtRow_wf _ _ _ h bevBody_keepsMem)
  | labels => exact State.run_keepsMem (Chip.mtRow_wf _ _ _ h labelsBody_keepsMem)
  | select => exact State.run_keepsMem (Chip.onCommand_wf h fun x => selectRun_wf _ x.seq 16 h)
  | voxelise => exact State.run_keepsMem (Chip.onCommand_wf h fun x => voxRun_wf _ x.seq 3 h)
  | vhist => exact State.run_keepsMem (Chip.sweep_wf _ _ _ _ _ _ _ _ (fun _ x hc => vhistStep_keepsMem _ _ _ _ _ x hc) h)
  | vscan => exact State.run_keepsMem (Chip.sweep_wf _ _ _ _ _ _ _ _ (fun _ x hc => vscanStep_keepsMem _ _ _ _ _ x hc) h)
  | vfill => exact State.run_keepsMem (Chip.sweep_wf _ _ _ _ _ _ _ _ (fun _ x hc => vfillStep_keepsMem _ _ _ _ _ x hc) h)
  | bsrch => exact State.run_keepsMem (Chip.sweep_wf _ _ _ _ _ _ _ _ (fun _ x hc => bsrchStep_keepsMem _ _ _ _ _ x hc) h)
  | jal | jalr | yield | trap | strCfgWrite | strRingRead | strRingHandover | fenceL | fenceG | fenceE =>
    refine State.run_issue_keepsMem h fun x d hd => ?_
    repeat' split at hd
    all_goals simp [← hd, h, Chip.stallSlot_mem]
  | mfs | enq | hqput | hqget | smsg | vsel | vfredsum | vcvt =>
    refine State.run_issue_keepsMem h fun x d hd => ?_
    extract_lets at hd
    repeat' split at hd
    all_goals simp [← hd, h, Chip.stallSlot_mem]
  | pmcWrap | cwbTimer | irqDelayExpiry =>
    refine State.run_keepsMem ?_
    extract_lets
    split <;> simp [h]
  | kill | pelotonMemberComplete =>
    refine State.run_keepsMem ?_
    repeat' split
    all_goals simp [h]
  | shi =>
    refine State.run_keepsMem ?_
    split
    · exact Chip.issue_wf h fun x d hd => by simp [← hd, h]
    · simp [h]
  | illegalWord =>
    refine State.run_keepsMem ?_
    split
    · exact h
    · exact Chip.issue_wf h fun x d hd => by simp [← hd, h]
  | intakeWrite =>
    refine State.runIf_keepsMem ?_
    repeat' split
    all_goals simp [h, Chip.portErr_mem]
  | windowAtomicop | windowReset | ringConfigWrite | functionLevelReset | pcieLinkDown | bar5Access | registerWrite | quiesce |
      resume | stageRegWrite | tableRegWrite | powerCapSample | logRd | mgmtRegRead | mgmtRegWrite | mgmtHbmWrite | i3cSummaryRead |
      i3cThrottle | smbusBlockRead | cfgApply | msixVectorUnmask | busMasterDisable | i3cSetPointer | jtagInstruction =>
    refine State.run_keepsMem ?_
    split <;> simp [h]
  | thermalSample | sensorSampleTemp | sensorSampleRail | railPoll | railFault | signalDetect =>
    refine State.runIf_keepsMem ?_
    split <;> simp [h]
  | startHandleTake | engineCommandComplete | doneHandlePut | pcieReadCompletion | bar4Write | bar4Read | arbGrant | codewordSend |
      codewordReceive | replayTimeout | lossOfLock | laneFrame | trainingSet | pollTimeout | eqTimeout | configTimeout | retrainTimeout
      | linkTest | linkTestDone | linkRetrain | linkDisable | linkEnable | epochReport | pwrReqRun | pwrReqFreewheel | pwrReqOff |
      powerTransitionBegin | powerTransitionDone | thermtrip | railPowerGood | railEnableTimeout | pcieLinkUp =>
    exact State.runIf_keepsMem (by simp [h])
  | _ => exact State.run_keepsMem (by simp [h])

/-- Settles O60: bytes are put by `Chip.put` and lost by a filter, and no other function of the model touches memory. -/
theorem everyStepKeepsMemoryCanonical : Obligations.EveryStepKeepsMemoryCanonical := by
  unfold Obligations.EveryStepKeepsMemoryCanonical Keeps
  intro s t h hs
  cases hq : s.pending with
  | nil =>
    have hm : s.chip.tick.mem = s.chip.mem := (congrArg Chip.mem s.chip.tick_rest :)
    rw [step_of_no_command hq] at hs
    exact State.run_keepsMem (by rw [hm]; exact h) t hs
  | cons i rest =>
    have hx : step s = exec i (s.withPending rest) := by rw [step, hq]
    exact exec_keepsMem i (s := s.withPending rest) h t (hx ▸ hs)

end Sys2Proof.Machine
end

section
/-! What a change of one engine leaves as it is, and a command whose work is done (R205, R246). -/

namespace Sys2Proof.Machine

/-- A command whose unit the package has runs. -/
theorem Completes.of_runIf {s : State} {i : Instr} {post : Chip → Prop} {ok : Bool} {f : Chip → Chip} (h : exec i s = s.runIf ok f)
    (hok : ok = true) (hp : post (f s.chip)) : Completes s i post :=
  .of_run (h.trans (if_pos hok)) hp

/-! Handle Queues (R87). -/

@[simp] theorem Chip.hq_setHq (c : Chip) (fc q : Nat) (l : List Handle) : (c.setHq fc q l).hq fc q = l := by
  unfold Chip.hq Chip.setHq
  split <;> simp

@[simp] theorem Chip.hq_hqAdd (c : Chip) (fc q : Nat) (v : Word) (ctx : Option Nat) :
    (c.hqAdd fc q v ctx).hq fc q = c.hq fc q ++ [{ val := w64 (bits v 62 0), ctx := ctx }] :=
  c.hq_setHq fc q _

/-- A Handle Queue holds no engine's state. -/
@[simp] theorem Chip.engine_setHq (c : Chip) (fc q : Nat) (l : List Handle) (n e : Nat) :
    ((c.setHq fc q l).core n).engine e = (c.core n).engine e := by
  unfold Chip.setHq
  split
  · by_cases hn : n = fc
    · subst hn
      simp [Core.engine]
    · rw [Chip.core_setCore_other _ _ hn]
  · rfl

@[simp] theorem Chip.engine_hqAdd (c : Chip) (fc q : Nat) (v : Word) (ctx : Option Nat) (n e : Nat) :
    ((c.hqAdd fc q v ctx).core n).engine e = (c.core n).engine e :=
  c.engine_setHq fc q _ n e

/-! What a change of one engine leaves as it is. -/

/-- Of the package one engine's state has changed, and the performance counters of its core, which count its stalls (R248). -/
structure EngineChanged (c d : Chip) (fc e : Nat) : Prop where
  engines : ∀ g, g ≠ e → (d.core fc).engine g = (c.core fc).engine g
  cores : ∀ n, { (d.core n).perfOf (c.core n) with engines := (c.core n).engines } = c.core n
  others : ∀ n, n ≠ fc → d.core n = c.core n
  rest : { d with cores := c.cores } = c

namespace EngineChanged
variable {a b c d : Chip} {fc e : Nat}

theorem refl (c : Chip) (fc e : Nat) : EngineChanged c c fc e := ⟨fun _ _ => rfl, fun _ => rfl, fun _ _ => rfl, rfl⟩

theorem trans (h1 : EngineChanged a b fc e) (h2 : EngineChanged b c fc e) : EngineChanged a c fc e where
  engines g hg := (h2.engines g hg).trans (h1.engines g hg)
  cores n := (congrArg (fun k : Core => { k.perfOf (a.core n) with engines := (a.core n).engines }) (h2.cores n)).trans (h1.cores n)
  others n hn := (h2.others n hn).trans (h1.others n hn)
  rest := (congrArg (fun x : Chip => { x with cores := a.cores }) h2.rest).trans h1.rest

/-- A core of which one engine and the performance counters have changed. -/
theorem of_core {k : Core} (hengines : ∀ g, g ≠ e → k.engine g = (c.core fc).engine g)
    (hk : { k.perfOf (c.core fc) with engines := (c.core fc).engines } = c.core fc) : EngineChanged c (c.setCore fc k) fc e where
  engines g hg := by rw [Chip.core_setCore, hengines g hg]
  cores n := by
    by_cases hn : n = fc
    · subst hn
      rw [Chip.core_setCore, hk]
    · rw [Chip.core_setCore_other _ _ hn]
      rfl
  others n hn := Chip.core_setCore_other _ _ hn
  rest := rfl

theorem setEngine (c : Chip) (fc e : Nat) (g : Engine) : EngineChanged c (c.setCore fc ((c.core fc).setEngine e g)) fc e :=
  of_core (fun _ hf => Core.engine_setEngine_other _ _ hf) rfl

theorem setCmd (c : Chip) (fc e : Nat) (x : EngCmd) : EngineChanged c (c.setCmd fc e x) fc e := setEngine c fc e _

theorem count (c : Chip) (fc e event n : Nat) : EngineChanged c (c.setCore fc ((c.core fc).count event n)) fc e :=
  of_core (fun _ _ => Core.count_engine _ _ _ _) (by rw [Core.count_perfOf])

theorem stallEngine (c : Chip) (fc e : Nat) (why : Cause) : EngineChanged c (c.stallEngine fc e why) fc e := by
  unfold Chip.stallEngine
  dsimp only
  split
  · exact refl c fc e
  · refine of_core (fun g hg => ?_) ?_
    · rw [Core.count_engine, Core.engine_setEngine_other _ _ hg]
    · have hcount := Core.count_perfOf ((c.core fc).setEngine e { (c.core fc).engine e with wait := some why }) (0x10 + why.index) 1
      exact congrArg (fun k : Core => { k.perfOf (c.core fc) with engines := (c.core fc).engines }) hcount

theorem hqs (h : EngineChanged c d fc e) (n : Nat) : (d.core n).hqs = (c.core n).hqs := (congrArg Core.hqs (h.cores n) :)

theorem hq (h : EngineChanged c d fc e) (n q : Nat) : d.hq n q = c.hq n q := by
  have hdie : d.dieHqs = c.dieHqs := (congrArg Chip.dieHqs h.rest :)
  unfold Chip.hq
  rw [h.hqs, hdie]

theorem trks (h : EngineChanged c d fc e) (n : Nat) : (d.core n).trks = (c.core n).trks := (congrArg Core.trks (h.cores n) :)

end EngineChanged

/-! An engine after a command is replaced, stalls or has done its work. -/

@[simp] theorem Chip.engine_setCmd (c : Chip) (fc e : Nat) (x : EngCmd) :
    ((c.setCmd fc e x).core fc).engine e = { (c.core fc).engine e with queue := putCmd ((c.core fc).engine e).queue x } := by
  simp [Chip.setCmd]

@[simp] theorem Chip.engine_stallEngine (c : Chip) (fc e : Nat) (why : Cause) :
    ((c.stallEngine fc e why).core fc).engine e = { (c.core fc).engine e with wait := some why } := by
  unfold Chip.stallEngine
  dsimp only
  split
  · next h => rw [← h]
  · simp [Core.count_engine]

/-- A finished command is marked, what was answered to its engine is let go, and the engine waits while the command's writes are unanswered and it
has no other command (R246). -/
theorem Chip.finishCmd_worked (c : Chip) (fc e : Nat) (x : EngCmd) : Worked c (c.finishCmd fc e x) fc e x := by
  unfold Chip.finishCmd
  extract_lets c1 k g c2
  have h1 : EngineChanged c c1 fc e := .setCmd c fc e _
  have h2 : EngineChanged c c2 fc e := h1.trans (.setEngine c1 fc e _)
  have hengine : (c2.core fc).engine e = { (c.core fc).engine e with
      queue := putCmd ((c.core fc).engine e).queue { x with phase := .worked, start := [], seen := none }, got := [], asked := [], wait := none } := by
    simp [c2, g, k, c1]
  have hout : k.engineOutstanding e = (c.core fc).engineOutstanding e := by
    unfold Core.engineOutstanding
    rw [h1.trks fc]
  have hwork : g.inWork = ((c2.core fc).engine e).inWork := by simp [c2, Engine.inWork]
  have hiff : (k.engineOutstanding e && g.inWork.isNone) = true ↔
      (c.core fc).engineOutstanding e = true ∧ ((c2.core fc).engine e).inWork = none := by
    rw [hout, hwork, Bool.and_eq_true, Option.isNone_iff_eq_none]
  split
  · next hwait =>
    have h3 := h2.trans (.stallEngine c2 fc e .lateRemote)
    refine ⟨?_, ?_, h3.engines, h3.cores, h3.others, h3.rest⟩
    · rw [Chip.engine_stallEngine, hengine]
    · rw [Chip.engine_stallEngine]
      exact (if_pos (hiff.mp hwait)).symm
  · next hwait =>
    refine ⟨?_, ?_, h2.engines, h2.cores, h2.others, h2.rest⟩
    · rw [hengine]
    · rw [if_neg (fun h => hwait (hiff.mpr h)), hengine]

end Sys2Proof.Machine
end

section
/-! The life of an engine command around its work (R137, R205 to R207, R227). -/

namespace Sys2Proof.Machine

/-! START, completion and DONE (R137, R206, R207). -/

section
variable {c : Chip} {fc e : Nat} {x : EngCmd}

theorem Chip.takeStart_of_handle {h : Handle} {rest : List Handle} (hx : ((c.core fc).engine e).current = some x) (hs : x.startEn = true)
    (hp : x.phase = .queued) (hr : c.fcRuns fc = true) (hq : c.hq fc (x.field 5 1 % 128) = h :: rest) :
    let y := { x with phase := .started, handle := some h.val, bytes := putB x.bytes 0x20 (leBytes 8 h.val.toNat) }
    (c.takeStart fc e).hq fc (x.field 5 1 % 128) = rest ∧
      ((c.takeStart fc e).core fc).engine e = { (c.core fc).engine e with queue := putCmd ((c.core fc).engine e).queue y, wait := none } := by
  intro y
  have htake : c.takeStart fc e =
      let c1 := (c.setHq fc (x.field 5 1 % 128) rest).setCmd fc e y
      c1.setCore fc ((c1.core fc).setEngine e { (c1.core fc).engine e with wait := none }) := by
    simp [Chip.takeStart, hx, hs, hp, hr, hq, y]
  constructor
  · rw [htake, (EngineChanged.setEngine _ fc e _).hq, (EngineChanged.setCmd _ fc e y).hq, Chip.hq_setHq]
  · rw [htake, Chip.core_setCore, Core.engine_setEngine, Chip.engine_setCmd, Chip.engine_setHq]

theorem Chip.takeStart_of_no_handle (hx : ((c.core fc).engine e).current = some x) (hs : x.startEn = true)
    (hp : x.phase = .queued) (hr : c.fcRuns fc = true) (hq : c.hq fc (x.field 5 1 % 128) = []) :
    c.takeStart fc e = c.stallEngine fc e .hqEmpty := by
  simp [Chip.takeStart, hx, hs, hp, hr, hq]

section
variable (hk : x.killed = false)
include hk

/-- A command that KILL did not end leaves its engine and nothing else. -/
theorem Chip.dropHead_of_not_killed :
    c.dropHead fc e x = c.setCore fc ((c.core fc).setEngine e { (c.core fc).engine e with
      queue := ((c.core fc).engine e).queue.tail,
      wait := if ((c.core fc).engine e).putWaits then none else ((c.core fc).engine e).wait }) := by
  simp [Chip.dropHead, hk]

theorem Chip.queue_dropHead : (((c.dropHead fc e x).core fc).engine e).queue = ((c.core fc).engine e).queue.tail := by
  rw [Chip.dropHead_of_not_killed hk, Chip.core_setCore, Core.engine_setEngine]

theorem EngineChanged.dropHead : EngineChanged c (c.dropHead fc e x) fc e := by
  rw [Chip.dropHead_of_not_killed hk]
  exact .setEngine c fc e _

variable {tail : List EngCmd} (hq : ((c.core fc).engine e).queue = x :: tail)
include hq

theorem Chip.queue_completeCmd (hp : x.phase = .worked) (ho : (c.core fc).engineOutstanding e = false) :
    (((c.completeCmd fc e).core fc).engine e).queue =
      if x.doneEn then putCmd ((c.core fc).engine e).queue { x with phase := .complete } else tail := by
  have hcomplete : c.completeCmd fc e =
      let c1 := c.setCore fc ((c.core fc).count (0x20 + e) 1)
      if x.doneEn then c1.setCmd fc e { x with phase := .complete } else c1.dropHead fc e x := by
    simp [Chip.completeCmd, hq, hp, ho, hk]
  rw [hcomplete]
  dsimp only
  split
  · rw [Chip.engine_setCmd, Chip.core_setCore, Core.count_engine]
  · rw [Chip.queue_dropHead hk, Chip.core_setCore, Core.count_engine, hq, List.tail_cons]

theorem Chip.putDone_of_room (hp : x.phase = .complete) (hroom : c.hqRoom fc (x.field 4 1 % 128) = true) :
    let h := if x.pass then x.handle.getD (x.addr 8) else x.addr 8
    (((c.putDone fc e).core fc).engine e).queue = tail ∧
      (c.putDone fc e).hq fc (x.field 4 1 % 128) = c.hq fc (x.field 4 1 % 128) ++ [{ val := w64 (bits h 62 0), ctx := some x.ctx }] := by
  intro h
  have hput : c.putDone fc e = (c.hqAdd fc (x.field 4 1 % 128) h (some x.ctx)).dropHead fc e x := by
    cases hh : x.handle <;> simp [Chip.putDone, hq, hp, hroom, hh, h]
  constructor
  · rw [hput, Chip.queue_dropHead hk, Chip.engine_hqAdd, hq, List.tail_cons]
  · rw [hput, (EngineChanged.dropHead hk).hq, Chip.hq_hqAdd]

end
end

/-! The members of a Peloton (R227). -/

theorem Chip.pelotonMember_of_room {c : Chip} {fc : Nat} {x : EngCmd} {m a : Nat} {ms : List Nat} (hx : x.sub = m :: ms) (hm : 1 ≤ m)
    (ha : ms[m - 1]? = some a) (hroom : c.hqRoom ((a - poolBase) / poolSize) (x.field 0x2E 1 % 128) = true) :
    let put := c.hqAdd ((a - poolBase) / poolSize) (x.field 0x2E 1 % 128) (x.addr 8) (some x.ctx)
    let y := { x with sub := (m + 1) :: ms }
    c.pelotonMember fc x = if m < ms.length then put.setCmd fc 0 y else put.finishCmd fc 0 y := by
  obtain ⟨n, rfl⟩ : ∃ n, m = n + 1 := ⟨m - 1, by omega⟩
  replace ha : ms[n]? = some a := ha
  simp [Chip.pelotonMember, hx, ha, hroom, setAt]

theorem Worked.engineChanged {c d : Chip} {fc e : Nat} {x : EngCmd} (h : Worked c d fc e x) : EngineChanged c d fc e :=
  ⟨h.engines, h.cores, h.others, h.rest⟩

/-- Settles O27: each row is one update of the engine's queue beside one of a Handle Queue, and neither reaches the other. -/
theorem engineCommandLifecycle : Obligations.EngineCommandLifecycle := by
  unfold Obligations.EngineCommandLifecycle
  constructor
  · intro s fc e x h rest tail he c f g
    have hok : decide (e < 6) = true := decide_eq_true he
    refine ⟨fun hx hs hp hr hq => ?_, fun hx hs hp hr hq => ?_, fun hq hp ho hk => ?_, fun hq hp hk hroom => ?_⟩
    · obtain ⟨hhq, hengine⟩ := Chip.takeStart_of_handle hx hs hp hr hq
      exact .of_runIf (f := fun c => c.takeStart f e) rfl hok ⟨hhq, hengine, c.takeStart_mem f e⟩
    · exact .of_runIf (f := fun c => c.takeStart f e) rfl hok (Chip.takeStart_of_no_handle hx hs hp hr hq)
    · have hqueue := Chip.queue_completeCmd hk hq hp ho
      exact .of_runIf (f := fun c => c.completeCmd f e) rfl hok
        ⟨c.completeCmd_mem f e, fun hd => by rw [hqueue, hd]; rfl, fun hd => by rw [hqueue, hd]; rfl⟩
    · obtain ⟨hqueue, hhq⟩ := Chip.putDone_of_room hk hq hp hroom
      exact .of_runIf (f := fun c => c.putDone f e) rfl hok ⟨hqueue, c.putDone_mem f e, hhq⟩
  · intro s fc x m ms a c f q member hx hr hop hbit hsub hm ha hroom put
    have hch : (x.chained && c.fcRuns f) = true := by simp [EngCmd.chained, hop, hbit, hsub, hr]
    have hd : EngineChanged put (c.pelotonMember f x) f 0 := by
      rw [Chip.pelotonMember_of_room hsub hm ha hroom]
      split
      · exact .setCmd put f 0 _
      · exact (put.finishCmd_worked f 0 _).engineChanged
    refine .of_run (f := fun c => c.pelotonMember f x) ?_ ⟨?_, c.pelotonMember_mem f x, fun hlt => ?_, fun heq => ?_⟩
    · simp only [exec, execPelotonMemberComplete, State.run]
      rw [hx]
      simp [hch, c, f]
    · rw [hd.hq, Chip.hq_hqAdd]
      rfl
    · rw [Chip.pelotonMember_of_room hsub hm ha hroom, if_pos hlt, Chip.engine_setCmd, Chip.engine_hqAdd]
    · rw [Chip.pelotonMember_of_room hsub hm ha hroom, if_neg (by omega)]
      exact put.finishCmd_worked f 0 _

end Sys2Proof.Machine
end

section
/-! What a command writes (R137, R190, R219, R289). -/

namespace Sys2Proof.Machine

/-! Memory after a command's writes (R137, R219). -/

theorem mem_cellsAt {o : Nat} {data : List Byte} {p : Nat × Byte} (h : p ∈ cellsAt o data) : o ≤ p.1 ∧ p.1 < o + data.length := by
  induction data generalizing o with
  | nil => exact nomatch h
  | cons b t ih =>
    rw [List.length_cons]
    obtain rfl | h := List.mem_cons.mp h
    · exact ⟨Nat.le_refl o, by omega⟩
    · have := ih h
      omega

theorem Chip.putAt_read_other {c : Chip} (hm : Mem.wf c.mem = true) {o a : Nat} {data : List Byte} (h : a < o ∨ o + data.length ≤ a) :
    Mem.read (c.putAt o data).mem a = Mem.read c.mem a := by
  have hwake : Mem.wf (c.wakePool o).mem = true := by simpa using hm
  have hput := Chip.put_read_other hwake (cellsAt o data) (b := a) fun p hp => by
    have := mem_cellsAt hp
    omega
  rwa [Chip.wakePool_mem] at hput

/-- A write leaves a byte alone that it does not name. -/
def Wr.leaves (w : Wr) (a : Nat) : Prop := ∀ o data, w = .here o data → a < o ∨ o + data.length ≤ a

theorem Wr.leaves_of_isRemote {w : Wr} (h : w.isRemote = true) (a : Nat) : w.leaves a := by
  rintro o data rfl
  exact nomatch h

section
variable {c : Chip} (fc e : Nat) (x : EngCmd) (n : Nat) {a : Nat}

theorem Chip.doWrite_read_other (hm : Mem.wf c.mem = true) {w : Wr} (h : w.leaves a) :
    Mem.read (c.doWrite fc e x n w).mem a = Mem.read c.mem a := by
  cases w with
  | here o data =>
    have hhere : (c.here fc (.engine e) true (c.emptyAt fc e x n) o).mem = c.mem := c.here_mem _ _ _ _ _
    have hput := Chip.putAt_read_other (c := c.here fc (.engine e) true (c.emptyAt fc e x n) o) (by rw [hhere]; exact hm) (h o data rfl)
    rwa [hhere] at hput
  | remote t p data => simp [Chip.doWrite]
  | bulk kind t p data => simp [Chip.doWrite]
  | bus port addr data => simp [Chip.doWrite]

theorem Chip.doWrites_read_other (hm : Mem.wf c.mem = true) {ws : List Wr} (h : ∀ w ∈ ws, w.leaves a) :
    Mem.read (c.doWrites fc e x n ws).mem a = Mem.read c.mem a := by
  induction ws generalizing c n with
  | nil => rfl
  | cons w t ih =>
    obtain ⟨hw, ht⟩ := List.forall_mem_cons.mp h
    exact (ih _ (Chip.doWrite_wf fc e x n w hm) ht).trans (Chip.doWrite_read_other fc e x n hm hw)

theorem Chip.written_read_of_leaves (hm : Mem.wf c.mem = true) {out : EngOut} (reads : List Nat) (h : out.leaves a) :
    Mem.read (c.written fc e x out reads).mem a = Mem.read c.mem a := by
  have hheres : (c.heres fc (.engine e) false (c.emptyAt fc e x 0) reads).mem = c.mem := c.heres_mem _ _ _ _ _
  have hm0 : Mem.wf (c.heres fc (.engine e) false (c.emptyAt fc e x 0) reads).mem = true := by rw [hheres]; exact hm
  have hfar : ∀ w ∈ out.far x, w.leaves a := fun w hw => Wr.leaves_of_isRemote (List.mem_filter.mp (List.mem_of_mem_drop hw)).2 a
  have hnear : ∀ w ∈ out.near, w.leaves a := fun w hw o data hwd => h o data (hwd ▸ (List.mem_filter.mp hw).1)
  rw [Chip.written, Chip.doWrites_read_other fc e x _ (Chip.doWrites_wf fc e x 0 _ hm0) hnear,
    Chip.doWrites_read_other fc e x 0 hm0 hfar, hheres]

end

/-! The bytes that a command keeps from its start do not matter to its writes (R190, R289). -/

section
variable (c : Chip) (fc e : Nat) (x : EngCmd) (b : List Byte)

theorem Chip.doWrite_start (n : Nat) (w : Wr) : c.doWrite fc e { x with start := b } n w = c.doWrite fc e x n w := by
  cases w <;> rfl

theorem Chip.doWrites_start (n : Nat) (ws : List Wr) : c.doWrites fc e { x with start := b } n ws = c.doWrites fc e x n ws := by
  induction ws generalizing c n with
  | nil => rfl
  | cons w t ih => rw [Chip.doWrites, Chip.doWrites, Chip.doWrite_start c fc e x b, ih]

theorem Chip.written_start (out : EngOut) (reads : List Nat) :
    c.written fc e { x with start := b } out reads = c.written fc e x out reads := by
  rw [Chip.written, Chip.doWrites_start _ fc e x b, Chip.doWrites_start _ fc e x b]
  rfl

theorem EngCmd.begun_eq (first : EngCmd → Rd (List Byte)) (r : Reader) : ∃ b, x.begun first r = { x with start := b } := by
  unfold EngCmd.begun
  split
  · exact ⟨x.start, rfl⟩
  · split
    · exact ⟨_, rfl⟩
    · exact ⟨x.start, rfl⟩

end

end Sys2Proof.Machine
end

section
/-! A row of the table on a command whose computation meets no fault (R204, R205). -/

namespace Sys2Proof.Machine

section
variable {c : Chip} {fc e : Nat} {x : EngCmd} {out : EngOut} {reads : List Nat}

theorem Chip.commitCmd_of_fits (h : c.Fits fc e x out) :
    c.commitCmd fc e x out reads =
      match out.stop with
      | none => (out.effect (c.written fc e x out reads)).finishCmd fc e x
      | some st => (out.effect (c.written fc e x out reads)).engineStop fc e { x with prog := x.prog + (out.far x).length } st := by
  unfold Chip.commitCmd
  exact if_pos (.inl h)

variable {f : EngCmd → Chip}

theorem Chip.onCommand_of_worksOn {opcode : Option Nat} {known : List Nat} (h : c.WorksOn fc e opcode x)
    (hk : ∀ n, opcode = some n → n ∈ known) : c.onCommand fc e opcode known false f = f x := by
  obtain ⟨hx, hs, hr, hop⟩ := h
  have hgo : (x.startEn && x.phase = .queued || !c.fcRuns fc) = false := by rw [hs, hr]; rfl
  cases opcode with
  | none => simp [Chip.onCommand, hx, hgo]
  | some n => simp [Chip.onCommand, hx, hgo, hop n rfl, hk n rfl]

end

/-- What a command does whose computation gave an output: no byte outside its writes changes, and then its work is done, it goes on with its next
part, or it waits. -/
def DoesWork (s : State) (i : Instr) (fc e : Nat) (x : EngCmd) (out : EngOut) (reads : List Nat) : Prop :=
  let w := s.chip.written fc e x out reads
  (s.memOk → ∀ a, out.leaves a → Mem.read w.mem a = Mem.read s.chip.mem a) ∧
  (out.stop = none → Completes s i (fun d => Worked (out.effect w) d fc e x)) ∧
  (out.stop = some .again → Completes s i (fun d => d = out.effect w)) ∧
  (∀ why, out.stop = some (.wait why) → Completes s i (fun d => d = (out.effect w).stallEngine fc e why))

section
variable {s : State} {i : Instr} {fc e : Nat} {x : EngCmd} {out : EngOut} {reads : List Nat} {f : Chip → Chip}

/-- A row that performs an output's writes as the command, or as the command with the bytes that it read when it started. -/
theorem DoesWork.of_commit (hexec : exec i s = s.run f) (hf : ∃ b, f s.chip = s.chip.commitCmd fc e { x with start := b } out reads)
    (hfits : s.chip.Fits fc e x out) : DoesWork s i fc e x out reads := by
  obtain ⟨b, hb⟩ := hf
  have hcommit := hb.trans (Chip.commitCmd_of_fits (x := { x with start := b }) hfits)
  rw [Chip.written_start] at hcommit
  refine ⟨fun hm a ha => Chip.written_read_of_leaves fc e x hm reads ha, fun hs => .of_run hexec ?_, fun hs => .of_run hexec ?_,
    fun why hs => .of_run hexec ?_⟩
  · rw [hcommit, hs]
    exact Chip.finishCmd_worked _ fc e x
  · rw [hcommit, hs]
    rfl
  · rw [hcommit, hs]
    rfl

end

section
variable {c : Chip} {fc e : Nat} {x : EngCmd} {out : EngOut} {reads : List Nat}

theorem Chip.carry_of_result {body : Rd EngOut} (hb : body.result (c.reader fc e x) = .ok (out, reads)) :
    c.carry fc e x body = c.commitCmd fc e x out reads := by
  rw [Chip.carry, hb]

theorem Chip.startCarry_of_result {first : EngCmd → Rd (List Byte)} {body : EngCmd → Rd EngOut}
    (hb : (body x).result (c.reader fc e x) = .ok (out, reads)) :
    ∃ b, c.startCarry fc e x first body = c.commitCmd fc e { x with start := b } out reads := by
  obtain ⟨b, hbegun⟩ := x.begun_eq first (c.reader fc e x)
  refine ⟨b, ?_⟩
  rw [Chip.startCarry, hb, hbegun]

theorem Chip.mtCarry_of_result {body : EngCmd → Rd EngOut}
    (hb : (body { x with seen := some (x.seen.getD c.mem) }).result (c.reader fc 5 { x with seen := some (x.seen.getD c.mem) }) = .ok (out, reads)) :
    c.mtCarry fc x body = c.commitCmd fc 5 { x with seen := some (x.seen.getD c.mem) } out reads := by
  rw [Chip.mtCarry, hb]

/-- A row of the Hash-Join Unit on a command that has its work still to do. -/
theorem Chip.hjRow_of_worksOn {opcode : Nat} {body : EngCmd → Rd EngOut} (h : c.WorksOn fc 2 (some opcode) x)
    (hk : opcode ∈ [1, 2, 3, 4, 5, 6]) (hsub : x.sub = []) (hin : opcode = 1 ∨ opcode = 3 → x.inCount ≠ 0)
    (hb : (body x).result (c.reader fc 2 x) = .ok (out, reads)) :
    ∃ b, c.hjRow fc opcode false body = c.commitCmd fc 2 { x with start := b } out reads := by
  have hrow := Chip.onCommand_of_worksOn (known := [1, 2, 3, 4, 5, 6]) h (fun n hn => Option.some.inj hn ▸ hk) (f := fun x =>
    if x.sub ≠ [] then c
    else if x.inCount = 0 ∧ (opcode = 1 ∨ opcode = 3) then c.finishCmd fc 2 x
    else if opcode = 2 ∨ opcode = 3 ∨ opcode = 4 then c.startCarry fc 2 x (headerBytes fc) body
    else c.carry fc 2 x (body x))
  rw [Chip.hjRow, hrow, if_neg (not_not_intro hsub), if_neg fun hz => hin hz.2 hz.1]
  split
  · exact Chip.startCarry_of_result hb
  · exact ⟨x.start, Chip.carry_of_result hb⟩

end

section
variable {s : State} {i : Instr} {fc : Nat} {x : EngCmd} {opcode : Nat} {body : EngCmd → Rd EngOut} {out : EngOut} {reads : List Nat}

theorem DoesWork.of_mtRow (hexec : exec i s = s.run fun c => c.mtRow fc opcode false body) (hk : opcode ∈ mtOpcodes) :
    let y := { x with seen := some (x.seen.getD s.chip.mem) }
    s.chip.WorksOn fc 5 (some opcode) x → (body y).result (s.chip.reader fc 5 y) = .ok (out, reads) → s.chip.Fits fc 5 y out →
      DoesWork s i fc 5 y out reads := by
  intro y h hb hfits
  refine .of_commit hexec ⟨y.start, ?_⟩ hfits
  rw [Chip.mtRow, Chip.onCommand_of_worksOn h (fun n hn => Option.some.inj hn ▸ hk), Chip.mtCarry_of_result hb]

end

/-- Settles O28: every row commits its body's output, for the command as it stands, with the bytes of its start, or with the memory that the
Matrix Tile saw. -/
theorem engineCommandsDoTheirWork : Obligations.EngineCommandsDoTheirWork := by
  unfold Obligations.EngineCommandsDoTheirWork
  intro s fc x c f does tile t
  have hdoes {i : Instr} {e : Nat} {opcode : Option Nat} {body : Rd EngOut} {g : Chip → Chip} (hexec : exec i s = s.run g)
      (hg : c.WorksOn f e opcode x → ∀ out reads, body.result (c.reader f e x) = .ok (out, reads) →
        ∃ b, g c = c.commitCmd f e { x with start := b } out reads) : does i e opcode body :=
    fun out reads hw hb hfits => DoesWork.of_commit hexec (hg hw out reads hb) hfits
  have htile {i : Instr} {opcode : Nat} {body : EngCmd → Rd EngOut} (hexec : exec i s = s.run fun c => c.mtRow f opcode false body)
      (hk : opcode ∈ mtOpcodes) : tile i opcode body := by
    intro out reads hw hb hfits
    obtain ⟨hleaves, hdone, -, -⟩ := DoesWork.of_mtRow hexec hk hw hb hfits
    exact ⟨hleaves, hdone⟩
  have hjoin {i : Instr} {opcode : Nat} {body : EngCmd → Rd EngOut} (hexec : exec i s = s.run fun c => c.hjRow f opcode false body)
      (hk : opcode ∈ [1, 2, 3, 4, 5, 6]) (hsub : x.sub = []) (hin : opcode = 1 ∨ opcode = 3 → x.inCount ≠ 0) :
      does i 2 (some opcode) (body x) :=
    hdoes hexec fun hw out reads hb => Chip.hjRow_of_worksOn hw hk hsub hin hb
  have hcarry {op : Nat} {g : EngCmd → Chip} {body : Rd EngOut} (hop : op ∈ [1, 2, 3]) (hg : g x = c.carry f 0 x body) :
      c.WorksOn f 0 (some op) x → ∀ out reads, body.result (c.reader f 0 x) = .ok (out, reads) →
        ∃ b, c.onCommand f 0 (some op) [1, 2, 3] false g = c.commitCmd f 0 { x with start := b } out reads :=
    fun hw out reads hb => ⟨x.start, by
      rw [Chip.onCommand_of_worksOn hw (fun n hn => Option.some.inj hn ▸ hop), hg, Chip.carry_of_result hb]⟩
  refine ⟨hdoes (g := fun c => c.startRow f 4 none [] false (lceStart f) (lceBody f)) rfl fun hw out reads hb => ?_,
    hdoes (g := fun c => c.engineRow f 0 (some 3) [1, 2, 3] false bcastBody) rfl (hcarry (by decide) rfl),
    htile rfl (by decide), htile rfl (by decide), htile rfl (by decide), htile rfl (by decide), htile rfl (by decide),
    fun hch hne => ?_, fun hsub => hjoin rfl (by decide) hsub (by omega), fun hsub hin => ⟨hjoin rfl (by decide) hsub fun _ => hin,
      hjoin rfl (by decide) hsub fun _ => hin⟩,
    fun hsub => ⟨hjoin rfl (by decide) hsub (by omega), hjoin rfl (by decide) hsub (by omega), hjoin rfl (by decide) hsub (by omega)⟩,
    fun hsub => ?_, fun hsub hplan => ?_⟩
  · rw [Chip.startRow, Chip.onCommand_of_worksOn hw (by simp)]
    exact Chip.startCarry_of_result hb
  · have hexec : exec (.stream fc false) s = execStream fc false s := rfl
    rw [execStream] at hexec
    refine hdoes hexec (hcarry (by decide) ?_)
    have hcount : ¬ ((if x.bit 0x2C 0 then 1 else x.field 0x28 4) = 0 ∧ x.bit 0x2C 1 = false) := by
      rintro ⟨hzero, hbit⟩
      cases h0 : x.bit 0x2C 0 with
      | true => simp [h0] at hzero
      | false => exact hne ⟨h0, by simpa [h0] using hzero, hbit⟩
    simp only [hch, Bool.false_eq_true, if_false, if_neg hcount]
    rfl
  · have hexec : exec (.a2a fc false) s = execA2a fc false s := rfl
    rw [execA2a] at hexec
    exact hdoes hexec (hcarry (by decide) (if_pos hsub))
  · have hexec : exec (.a2a fc false) s = execA2a fc false s := rfl
    rw [execA2a] at hexec
    exact hdoes hexec (hcarry (by decide) ((if_neg hsub).trans (if_pos hplan)))

end Sys2Proof.Machine
end

section
/-! A WR_ACK while a frame store waits for room in the store buffer (R131, R132, R165). -/

namespace Sys2Proof.Machine

/-- A store of slot 0, on its way to package 1 with tracker 1 or still in the buffer. -/
def bufferedStore (sent : Bool) : SbEntry :=
  { slot := 0, addr := 0, size := 8, data := 0, strict := false, sent := sent, trk := 1, ctx := 0 }

/-- The tracker of the store that is on its way. -/
def storeTracker : Trk := { id := 1, holder := .slot 0, kind := .storeBuf, addr := 0, size := 8, pkg := 1, ctx := 0, stream := none }

/-- A core whose store buffer is full, with a store of an exception's frame waiting for an entry (R131, R165). -/
def fullStoreBuffer : Core :=
  { Core.reset with
    storeBuf := bufferedStore true :: List.replicate 15 (bufferedStore false), frameQ := [bufferedStore false], trks := [storeTracker] }

/-- A running package with that core. -/
def fullStoreBufferChip : Chip :=
  { Chip.reset with rst := { Rst.reset with por := true, phase := .discovered }, cores := [(0, fullStoreBuffer)] }

/-- The acknowledgement of the store that is on its way. -/
def storeAck : Msg :=
  { mtype := 0x12, src := 1, dest := 0, addr := 0, lockTag := 0, txn := 1, len := 0, cause := 0, position := 0, final := 0, ctx := 0, data := [] }

/-- A Request in use. -/
def someRequest : Ctx :=
  { desc := [], port := 0, window := 0, arrival := 0, area := 0, digest := [], tag := 0, stages := [], drops := 0, ended := none,
    delivering := false, recordBytes := 0, seq := 0, cut := false, gone := false }

/-- The store of the frame takes the entry that the acknowledged store leaves. -/
theorem wrAck_refills_storeBuf : ((fullStoreBufferChip.message 0x12 storeAck false).core 0).storeBuf = List.replicate 16 (bufferedStore false) := by
  decide +kernel

/-- Refutes O45: a WR_ACK also lets a frame's store that waits for room into the store buffer (R131), so that the buffer then
holds more than what it held beside the acknowledged store. -/
theorem not_answersReachTheirIssuers : ¬ Obligations.AnswersReachTheirIssuers := by
  unfold Obligations.AnswersReachTheirIssuers
  intro h
  have hreceives : fullStoreBufferChip.Receives storeAck := by unfold Chip.Receives; decide
  obtain ⟨-, -, hack, -⟩ := h { pending := [], chip := fullStoreBufferChip } storeAck storeTracker { fc := 0, slot := 0 } 0 8 false
    someRequest rfl rfl
  obtain ⟨t, ht, -, -, hbuf⟩ := hack hreceives rfl
  have hchip : t.chip = fullStoreBufferChip.message 0x12 storeAck false := (congrArg State.chip (Host.Outcome.next.inj ht)).symm
  rw [hchip] at hbuf
  have hkept : (fullStoreBuffer.storeBuf.filter fun e => !(e.sent && e.trk = 1)).length = 15 := by decide
  have hlen := congrArg List.length (wrAck_refills_storeBuf.symm.trans hbuf)
  exact absurd (hlen.trans hkept) (by decide)

end Sys2Proof.Machine
end

section
/-! What Double Fault records, and what ERET restores (R162 to R169). -/

namespace Sys2Proof.Machine

/-! Double Fault (R166, R167, R169). -/

/-- Double Fault stops its slot for the Management Controller. -/
theorem Chip.slot_doubleFault (c : Chip) (l : Loc) (reason : Nat) (cause epc addr : Word) :
    (c.doubleFault l reason cause epc addr).slot l = { c.slot l with stopped := true, doubleFault := true, wait := none } :=
  c.slot_setSlot l _

theorem Chip.slot_doubleFault_other (c : Chip) {l m : Loc} (h : m ≠ l) (reason : Nat) (cause epc addr : Word) :
    (c.doubleFault l reason cause epc addr).slot m = c.slot m :=
  c.slot_setSlot_other _ h

theorem Chip.storeBuf_doubleFault (c : Chip) (l : Loc) (reason : Nat) (cause epc addr : Word) :
    ((c.doubleFault l reason cause epc addr).core l.fc.toNat).storeBuf = (c.core l.fc.toNat).storeBuf :=
  (congrArg Core.storeBuf (c.core_setCore l.fc.toNat _) :)

/-- The six registers of the slot's Core Fault Record entry (R169). -/
theorem Chip.cfr_doubleFault (c : Chip) (l : Loc) (reason : Nat) (cause epc addr : Word) :
    let r := fun i => SMap.get 0 (c.doubleFault l reason cause epc addr).cfr (cfrKey l i)
    r 0 = BitVec.ofNat 64 (2 ^ 63 + reason * 2 ^ 16 + depthOf (c.slot l).xstatus * 256 + bits cause 7 0) ∧
      r 1 = epc ∧ r 2 = cause ∧ r 3 = addr ∧ r 4 = (c.slot l).xsp ∧ r 5 = BitVec.ofNat 64 (c.slot l).ctxNum := by
  simp [Chip.doubleFault, SMap.get_set, cfrKey]

/-- An exception whose frame has no valid place, or that finds DEPTH at 15, is a Double Fault; the place is looked at first. -/
theorem Chip.exc_eq_doubleFault {c : Chip} {l : Loc} (hv : (c.slot l).handler ≠ 0) (cause epc addr : Word)
    (h : c.frameOk l.fc.toNat ((c.slot l).xsp - 128) = false ∨ depthOf (c.slot l).xstatus = 15) :
    c.exc l cause epc addr =
      c.doubleFault l (if c.frameOk l.fc.toNat ((c.slot l).xsp - 128) = false then 1 else 2) cause epc addr := by
  unfold Slot.handler at hv
  unfold Chip.exc
  rw [if_neg hv]
  cases hf : c.frameOk l.fc.toNat ((c.slot l).xsp - 128) with
  | false => rfl
  | true =>
    have hd : depthOf (c.slot l).xstatus = 15 := h.resolve_left (by rw [hf]; decide)
    simp [hd]

/-- An undefined word raises ILLEGAL at its own address (R75). -/
theorem Completes.illegalWord_of_exc {s : State} {l : Loc} {word : BitVec 32} {post : Chip → Prop} (hi : s.chip.Issues l)
    (hw : legalWord word = false) (h : post (s.chip.exc l 1 (s.chip.slot l).pc (word.setWidth 64))) :
    Completes s (.illegalWord l word) post := by
  refine .of_run (f := fun c => if legalWord word then c else c.issue l (fun _ => c.illegal l (word.setWidth 64))) rfl ?_
  rw [hw, if_neg Bool.false_ne_true, Chip.issue_of hi]
  exact h

/-- Settles O14: the exception is a Double Fault, which is one update of the slot beside one of the record. -/
theorem doubleFaultFillsTheRecord : Obligations.DoubleFaultFillsTheRecord := by
  unfold Obligations.DoubleFaultFillsTheRecord
  intro s l word hi hw hv c x bad reason hdouble
  refine .illegalWord_of_exc hi hw ?_
  rw [Chip.exc_eq_doubleFault hv _ _ _ hdouble]
  obtain ⟨hstate, hepc, hcause, haddr, hxsp, hctx⟩ := c.cfr_doubleFault l reason 1 x.pc (word.setWidth 64)
  have hslot := c.slot_doubleFault l reason 1 x.pc (word.setWidth 64)
  exact ⟨congrArg Slot.stopped hslot, congrArg Slot.doubleFault hslot, c.doubleFault_mem l reason 1 x.pc _,
    c.storeBuf_doubleFault l reason 1 x.pc _, hstate, hepc, hcause, haddr, hxsp, hctx,
    fun _ hm => c.slot_doubleFault_other hm reason 1 x.pc _⟩

/-! ERET (R162, R164, R165). -/

/-- What can be fetched does not depend on the cores. -/
theorem Chip.fetchable_of_rest {c d : Chip} (h : { d with cores := c.cores } = c) (a : Word) : d.fetchable a = c.fetchable a :=
  (congrArg (fun b : Chip => b.fetchable a) h :)

/-- A slot that has retired to an address that can be fetched goes on there (R107). -/
theorem Retired.landed {c d : Chip} {l : Loc} {x : Slot} {pc : Word} (h : Retired c d l x pc) (hf : c.fetchable pc = true) :
    d.landed l = d := by
  have hpc : (d.slot l).pc = pc := congrArg Slot.pc h.slot
  have hgo : d.fetchable (d.slot l).pc = true := by rw [hpc, Chip.fetchable_of_rest h.rest, hf]
  exact if_pos hgo

/-- The registers x1 to xn of a slot as a frame holds them. -/
def Slot.restoreX (s : Slot) (word : Nat → Word) (n : Nat) : Slot :=
  (List.range n).foldl (fun (t : Slot) i => t.setX (BitVec.ofNat 5 (i + 1)) (word (8 + i))) s

theorem Slot.restoreX_succ (s : Slot) (word : Nat → Word) (n : Nat) :
    s.restoreX word (n + 1) = (s.restoreX word n).setX (BitVec.ofNat 5 (n + 1)) (word (8 + n)) := by
  rw [restoreX, List.range_succ, List.foldl_append]
  rfl

/-- Restoring scalar registers changes no other part of the slot. -/
theorem Slot.restoreX_rest (s : Slot) (word : Nat → Word) (n : Nat) : ∃ x, s.restoreX word n = { s with x := x } := by
  induction n with
  | zero => exact ⟨s.x, rfl⟩
  | succ n ih =>
    obtain ⟨x, hx⟩ := ih
    rw [restoreX_succ, hx, setX]
    split
    · exact ⟨x, rfl⟩
    · exact ⟨_, rfl⟩

theorem Slot.xr_restoreX (s : Slot) (word : Nat → Word) {n : Nat} (hn : n < 32) (r : Reg) :
    (s.restoreX word n).xr r = if 1 ≤ r.toNat ∧ r.toNat ≤ n then word (7 + r.toNat) else s.xr r := by
  induction n with
  | zero => rw [if_neg (by omega)]; rfl
  | succ n ih =>
    have hreg : (BitVec.ofNat 5 (n + 1)).toNat = n + 1 := Nat.mod_eq_of_lt hn
    rw [restoreX_succ, xr_setX, ih (by omega)]
    by_cases hr : r.toNat = n + 1
    · have heq : r = BitVec.ofNat 5 (n + 1) := BitVec.eq_of_toNat_eq (hr.trans hreg.symm)
      have hne : BitVec.ofNat 5 (n + 1) ≠ 0 := fun h => by simpa [hreg] using congrArg BitVec.toNat h
      rw [if_pos ⟨heq, hne⟩, if_pos (by omega), hr]
      congr 1
      omega
    · have hne : r ≠ BitVec.ofNat 5 (n + 1) := fun h => hr (by rw [h, hreg])
      rw [if_neg fun h => hne h.1]
      have hiff : (1 ≤ r.toNat ∧ r.toNat ≤ n) ↔ (1 ≤ r.toNat ∧ r.toNat ≤ n + 1) := by omega
      simp only [hiff]

theorem depthOf_setBits (w : Word) {d : Nat} (hd : d < 16) : depthOf (setBits w 8 4 d) = d := by
  have hie : depthOf (setBits w 8 4 d) = depthOf (setBits (setBits w 8 4 d) 0 1 0) := bits_eq_of_bit rfl fun i hi => by
    unfold bit
    rw [setBits_bit (setBits w 8 4 d) 0 1 0 _ (by omega), if_neg (by omega)]
  exact hie.trans (depth_set w d hd)

/-- The low three bits of XSTATUS come back from the frame (R162, Table 4). -/
theorem bit_leave_xstatus (w : Word) (d : Nat) {i : Nat} (hi : i < 3) : bit (setBits (w &&& 7) 8 4 d) i = bit w i := by
  obtain rfl | rfl | rfl : i = 0 ∨ i = 1 ∨ i = 2 := by omega
  all_goals
    unfold bit
    rw [setBits_bit _ _ _ _ _ (by omega), if_neg (by omega)]
    simp

theorem Slot.leave_eq (s : Slot) (word : Nat → Word) : s.leave word = { s.restoreX word 8 with
    fpflags := word 4 &&& 0x1F, swpShift := word 5 &&& 0x3F, bsrchBase := word 6, bsrchEdges := word 7 &&& 0x1FFFF,
    xstatus := setBits (word 3 &&& 7) 8 4 (depthOf s.xstatus - 1), xsp := s.xsp + 128 } := rfl

theorem Slot.xr_leave (s : Slot) (word : Nat → Word) (r : Reg) :
    (s.leave word).xr r = if 1 ≤ r.toNat ∧ r.toNat ≤ 8 then word (7 + r.toNat) else s.xr r :=
  s.xr_restoreX word (by decide) r

/-- What a frame does not hold stays as it is. -/
theorem Slot.leave_rest (s : Slot) (word : Nat → Word) :
    let y := s.leave word
    y.v = s.v ∧ y.m = s.m ∧ y.xvec = s.xvec ∧ y.task = s.task ∧ y.rsv = s.rsv := by
  obtain ⟨x, hx⟩ := s.restoreX_rest word 8
  rw [leave_eq, hx]
  exact ⟨rfl, rfl, rfl, rfl, rfl⟩

/-- ERET from a handler whose frame is valid and does not ask for the end of the Request goes on at the frame's address. -/
theorem execEret_retires {s : State} {l : Loc} (hi : s.chip.Issues l) :
    let x := s.chip.slot l
    let w := s.chip.frameRead l x.xsp
    let dest := w 0 &&& ~~~(3 : Word)
    depthOf x.xstatus ≠ 0 → s.chip.frameOk l.fc.toNat x.xsp = true → bit (w 3) 2 = false → s.chip.fetchable dest = true →
      Retires s (.eret l) l (x.leave w) dest := by
  intro x w dest hd hf ha hgo
  have hexec : exec (.eret l) s = execEret l s := rfl
  rw [execEret] at hexec
  refine .of_run hexec ?_
  have hretired := s.chip.retireAt_retired l (x.leave w) dest false
  rw [Chip.issue_of hi, if_neg hd, hf, ha, if_neg (by decide), if_neg (by decide), hretired.landed hgo]
  exact hretired

/-- ERET outside any handler raises ILLEGAL with its own word (R164). -/
theorem Completes.eret_of_illegal {s : State} {l : Loc} {post : Chip → Prop} (hi : s.chip.Issues l)
    (hd : depthOf (s.chip.slot l).xstatus = 0)
    (h : post (s.chip.exc l 1 (s.chip.slot l).pc (BitVec.ofNat 64 (0x27 * 2 ^ 26 + 3)))) : Completes s (.eret l) post := by
  have hexec : exec (.eret l) s = execEret l s := rfl
  rw [execEret] at hexec
  refine .of_run hexec ?_
  rw [Chip.issue_of hi, if_pos hd]
  exact h

/-- Settles O15: ERET retires with the slot that the frame restores, and at DEPTH 0 it enters the handler. -/
theorem eretRestoresTheFrame : Obligations.EretRestoresTheFrame := by
  unfold Obligations.EretRestoresTheFrame
  intro s l hi c x w dest
  refine ⟨fun hd hf ha hgo => ?_, fun hd he => .eret_of_illegal hi hd (Chip.exc_entered he _ _ _)⟩
  obtain ⟨t, ht, hp, hr⟩ := execEret_retires hi hd hf ha hgo
  have hdepth : depthOf x.xstatus < 16 := Nat.mod_lt _ (by decide)
  exact ⟨t, ht, hp, x.leave w, hr, x.xr_leave w, rfl, rfl, rfl, rfl, depthOf_setBits _ (by omega),
    bit_leave_xstatus _ _ (by decide), bit_leave_xstatus _ _ (by decide), rfl, x.leave_rest w⟩

end Sys2Proof.Machine
end

section
/-! HASH of a key beyond the core's own Pool while its stream's LIMIT leaves no tracker (R219). -/

namespace Sys2Proof.Machine

/-- HASH of the one byte at offset 0 of HBM to offset 0x2000, under stream 0. -/
def hashOfOneByte : EngCmd :=
  { seq := 0, slot := 0, ctx := 0, bytes := putB (putB (putB (List.replicate 64 0) 0 [1]) 0x18 [1]) 0x20 (leBytes 8 0x2000), phase := .queued,
    handle := none, start := [], seen := none, prog := 0, sub := [], killed := false }

/-- A write of the Layout Copy Engine to package 1, under stream 0 as well. -/
def streamTracker : Trk := { id := 0, holder := .engine 4, kind := .write, addr := 0, size := 64, pkg := 1, ctx := 0, stream := some 0 }

/-- A running package whose core 0 has the HASH to do, its stream 0 being at its LIMIT of 1. -/
def limitedHashChip : Chip :=
  { Chip.reset with
    rst := { Rst.reset with por := true, phase := .discovered }
    cores := [(0, { Core.reset with engines := [(2, { Engine.reset with queue := [hashOfOneByte] })], trks := [streamTracker] })] }

theorem limitedHashChip_worksOn : limitedHashChip.WorksOn 0 2 (some 1) hashOfOneByte := by
  unfold Chip.WorksOn
  decide +kernel

/-- HBM of this package at an offset. -/
def hbmTarget (o : Nat) : Target := { pkg := none, off := o, row := .hbm, ty := 0, wp := false }

theorem limitedHashChip_key : limitedHashChip.LineAt 0
    (effAddr (hashOfOneByte.addr 0x10) (BitVec.ofNat 64 (hashOfOneByte.field 0x1E 1))) hashOfOneByte.keyLen false 0 :=
  ⟨hbmTarget 0, by decide +kernel⟩

theorem limitedHashChip_out : limitedHashChip.LineAt 0 (hashOfOneByte.addr 0x20) 8 true 0x2000 := ⟨hbmTarget 0x2000, by decide +kernel⟩

/-- The command waits for a tracker, its work not done. -/
theorem limitedHashChip_waits : ((limitedHashChip.hjRow 0 1 false hashBody).core 0).engine 2 =
    { Engine.reset with queue := [hashOfOneByte], wait := some .trackerFull } := by
  decide +kernel

/-- Refutes O30: its first clause does not ask that a tracker is free for the read of the key, which beyond the core's own Pool is a transaction
under the LIMIT of the command's stream (R219). While another engine's transaction uses up that LIMIT, HASH stalls with TRACKER_FULL: its
work is not done. -/
theorem not_engineEdges : ¬ Obligations.EngineEdges := by
  unfold Obligations.EngineEdges
  rintro ⟨hhash, -⟩
  obtain ⟨t, ht, -, -, -, hqueue⟩ := hhash { pending := [], chip := limitedHashChip } 0 hashOfOneByte 0 0x2000 rfl limitedHashChip_worksOn rfl
    (by decide) limitedHashChip_key limitedHashChip_out
  have hchip : t.chip = limitedHashChip.hjRow 0 1 false hashBody := (congrArg State.chip (Host.Outcome.next.inj ht)).symm
  rw [hchip] at hqueue
  have hwaits := congrArg Engine.queue limitedHashChip_waits
  exact absurd (hwaits.symm.trans hqueue) (by decide)

end Sys2Proof.Machine
end

section
/-! Which of the accesses that wait an arbiter grants, and where the access goes (R241, R242, R249, R250). -/

namespace Sys2Proof.Machine

/-! The choice among accesses that wait. -/

theorem anyOf_eq_getElem? (pick : Nat) (l : List Waiting) : anyOf pick l = l[pick % l.length]? := by
  fun_cases anyOf pick l
  · simp [Nat.mod_one]
  · rfl

/-- Where an access waits one is chosen, and it is one of those that wait. -/
theorem exists_anyOf_eq_some (pick : Nat) {l : List Waiting} (h : l ≠ []) : ∃ y ∈ l, anyOf pick l = some y := by
  have hlt : pick % l.length < l.length := Nat.mod_lt _ (List.length_pos_iff.mpr h)
  exact ⟨_, List.getElem_mem hlt, by rw [anyOf_eq_getElem?, List.getElem?_eq_getElem hlt]⟩

/-- A tagged access that comes before another does not come after it. -/
theorem tagBefore_asymm {x y : Waiting} (h : tagBefore x y = true) : tagBefore y x = false := by
  simp only [tagBefore, Bool.or_eq_true, Bool.and_eq_true, decide_eq_true_eq] at h
  simp only [tagBefore, Bool.or_eq_false_iff, Bool.and_eq_false_iff, decide_eq_false_iff_not]
  omega

/-- The earlier of the best access so far and the next one. -/
def earlierTagged (best : Option Waiting) (y : Waiting) : Option Waiting :=
  match best with
  | none => some y
  | some z => if tagBefore y z then some y else some z

theorem firstTagged_eq_foldl (l : List Waiting) :
    firstTagged l = (l.filter (fun y => y.emptyAt.isSome)).foldl earlierTagged none := rfl

section
variable {x : Waiting}

/-- An access that comes before what was best takes its place. -/
theorem earlierTagged_of_first {best : Option Waiting} (h : ∀ z, best = some z → z ≠ x → tagBefore x z = true) :
    earlierTagged best x = some x := by
  cases best with
  | none => rfl
  | some z =>
    by_cases hz : z = x
    · simp [earlierTagged, hz]
    · simp [earlierTagged, h z rfl hz]

/-- An access that is best stays so beside a later one. -/
theorem earlierTagged_some_of_first {y : Waiting} (h : y ≠ x → tagBefore x y = true) : earlierTagged (some x) y = some x := by
  by_cases hy : y = x
  · simp [earlierTagged, hy]
  · simp [earlierTagged, tagBefore_asymm (h hy)]

theorem foldl_earlierTagged_some {l : List Waiting} (h : ∀ y ∈ l, y ≠ x → tagBefore x y = true) :
    l.foldl earlierTagged (some x) = some x := by
  induction l with
  | nil => rfl
  | cons y t ih =>
    rw [List.foldl_cons, earlierTagged_some_of_first (h y (by simp))]
    exact ih fun z hz => h z (by simp [hz])

/-- The best of two accesses is one of them. -/
theorem earlierTagged_mem {best : Option Waiting} {y z : Waiting} (h : earlierTagged best y = some z) : z = y ∨ best = some z := by
  cases best with
  | none => exact .inl (Option.some.inj h).symm
  | some x =>
    simp only [earlierTagged] at h
    split at h
    · exact .inl (Option.some.inj h).symm
    · exact .inr h

theorem foldl_earlierTagged {l : List Waiting} (h : ∀ y ∈ l, y ≠ x → tagBefore x y = true) (hx : x ∈ l) {best : Option Waiting}
    (hbest : ∀ z, best = some z → z ≠ x → tagBefore x z = true) : l.foldl earlierTagged best = some x := by
  induction l generalizing best with
  | nil => simp at hx
  | cons y t ih =>
    have ht : ∀ z ∈ t, z ≠ x → tagBefore x z = true := fun z hz => h z (by simp [hz])
    rw [List.foldl_cons]
    rcases List.mem_cons.mp hx with rfl | hxt
    · rw [earlierTagged_of_first hbest, foldl_earlierTagged_some ht]
    · refine ih ht hxt fun z hz hne => ?_
      rcases earlierTagged_mem hz with rfl | hz
      · exact h z (by simp) hne
      · exact hbest z hz hne

/-- The tagged access that comes before all others is the first. -/
theorem firstTagged_eq_some {l : List Waiting} (hx : x ∈ l) (htag : x.emptyAt.isSome = true)
    (h : ∀ y ∈ l, y.emptyAt.isSome = true → y ≠ x → tagBefore x y = true) : firstTagged l = some x := by
  rw [firstTagged_eq_foldl]
  refine foldl_earlierTagged (fun y hy => ?_) (List.mem_filter.mpr ⟨hx, htag⟩) (by simp)
  exact h y (List.mem_filter.mp hy).1 (List.mem_filter.mp hy).2

end

theorem firstTagged_eq_none {l : List Waiting} (h : ∀ y ∈ l, y.emptyAt = none) : firstTagged l = none := by
  rw [firstTagged_eq_foldl, List.filter_eq_nil_iff.mpr fun y hy => by simp [h y hy]]
  rfl

/-! DEADLINE and SPLIT. -/

/-- One of finitely many numbers is no less than any other. -/
theorem exists_greatest (f : Nat → Int) (n : Nat) : ∃ k, k ≤ n ∧ ∀ j, j ≤ n → f j ≤ f k := by
  induction n with
  | zero =>
    refine ⟨0, Nat.le_refl 0, fun j hj => ?_⟩
    obtain rfl := Nat.le_zero.mp hj
    exact Int.le_refl _
  | succ n ih =>
    obtain ⟨k, hk, hmax⟩ := ih
    rcases Int.le_total (f k) (f (n + 1)) with hle | hle
    · refine ⟨n + 1, Nat.le_refl _, fun j hj => ?_⟩
      rcases Nat.le_succ_iff.mp hj with hj | rfl
      · exact Int.le_trans (hmax j hj) hle
      · exact Int.le_refl _
    · refine ⟨k, Nat.le_succ_of_le hk, fun j hj => ?_⟩
      rcases Nat.le_succ_iff.mp hj with hj | rfl
      · exact hmax j hj
      · exact hle

namespace Arbiter

/-- The accesses without a tag. -/
abbrev untagged (l : List Waiting) : List Waiting := l.filter (fun y => y.emptyAt.isNone)

/-- The untagged grants of the run of 64 that a tagged grant would end; a grant that has not been counts as untagged. -/
abbrev untaggedGiven (b : Arbiter) : Nat := (b.recent.filter (fun k => !k.2)).length + (63 - b.recent.length)

variable (b : Arbiter) (pick : Nat) {l : List Waiting}

/-- A tagged access is granted where the untagged ones have had their FLOOR. -/
theorem deadlineGrant_of_tagged {x : Waiting} (hx : firstTagged l = some x) (h : untagged l = [] ∨ b.floor ≤ b.untaggedGiven) :
    b.deadlineGrant pick l = some x := by
  simp only [deadlineGrant, hx]
  refine if_neg ?_
  rcases h with h | h
  · simp [h]
  · simp [Nat.not_lt.mpr h]

/-- An untagged access is granted where none is tagged or the run would hold too few untagged ones. -/
theorem deadlineGrant_of_untagged (h : firstTagged l = none ∨ (untagged l ≠ [] ∧ b.untaggedGiven < b.floor)) :
    b.deadlineGrant pick l = anyOf pick (untagged l) := by
  unfold deadlineGrant
  dsimp only
  split
  · rfl
  · next x hx =>
    obtain ⟨hne, hlt⟩ := h.resolve_left (by simp [hx])
    exact if_pos (by simp [hlt, hne])

theorem mem_due {k : Nat} : k ∈ b.due ↔ k ≤ 2 ∧ ∀ j, j ≤ 2 → b.behind j ≤ b.behind k := by
  have hcls (k : Nat) : k ∈ [0, 1, 2] ↔ k ≤ 2 := by
    simp only [List.mem_cons, List.not_mem_nil, or_false]
    omega
  simp only [due, List.mem_filter, List.all_eq_true, decide_eq_true_eq, hcls]

/-- Some class is furthest behind. -/
theorem due_ne_nil : b.due ≠ [] := by
  obtain ⟨k, hk, hmax⟩ := exists_greatest b.behind 2
  exact List.ne_nil_of_mem (b.mem_due.mpr ⟨hk, hmax⟩)

/-- Where every class that is furthest behind has an access, one of these is granted to its own class. -/
theorem exists_splitGrant_eq (h : ∀ k, k ≤ 2 → k ∈ b.due → ∃ y ∈ l, y.cls = k) :
    ∃ y ∈ l, y.cls ∈ b.due ∧ b.splitGrant pick l = (y.cls, some y) := by
  have hlt : pick % b.due.length < b.due.length := Nat.mod_lt _ (List.length_pos_iff.mpr b.due_ne_nil)
  have hown : b.due.getD (pick % b.due.length) 0 ∈ b.due := by
    rw [List.getD_eq_getElem?_getD, List.getElem?_eq_getElem hlt]
    exact List.getElem_mem hlt
  generalize hk : b.due.getD (pick % b.due.length) 0 = own at hown
  obtain ⟨y, hy, hcls⟩ := h own (b.mem_due.mp hown).1 hown
  have hwaits : (l.any fun z => z.cls = own) = true := List.any_eq_true.mpr ⟨y, hy, by simp [hcls]⟩
  have hne : (l.filter fun z => z.cls = own) ≠ [] := List.ne_nil_of_mem (List.mem_filter.mpr ⟨hy, by simp [hcls]⟩)
  obtain ⟨z, hz, hany⟩ := exists_anyOf_eq_some (pick / 3) hne
  obtain ⟨hzl, hzown⟩ := List.mem_filter.mp hz
  obtain rfl : z.cls = own := by simpa using hzown
  refine ⟨z, hzl, hown, ?_⟩
  simp only [splitGrant, hk, List.find?_cons_of_pos (p := fun k => l.any fun x => x.cls = k) hwaits, hany]

theorem choose_of_deadline {x : Waiting} (hmode : bits b.ctl 33 32 ≠ 1) (h : b.deadlineGrant pick l = some x) :
    b.choose pick l = some (x.cls, x) := by
  simp [choose, split, hmode, h]

theorem choose_of_split {k : Nat} {x : Waiting} (hmode : bits b.ctl 33 32 = 1) (h : b.splitGrant pick l = (k, some x)) :
    b.choose pick l = some (k, x) := by
  simp [choose, split, hmode, h]

end Arbiter

/-! What a grant does. -/

@[simp] theorem Chip.countFor_arbs (c : Chip) (x : Waiting) (event : Nat) : (c.countFor x event).arbs = c.arbs := by
  unfold Chip.countFor
  split <;> rfl

@[simp] theorem Chip.countFor_traffic (c : Chip) (x : Waiting) (event : Nat) : (c.countFor x event).traffic = c.traffic := by
  unfold Chip.countFor
  split <;> rfl

@[simp] theorem Chip.serveSliceAt_arbs (c : Chip) (s pick : Nat) (x : Waiting) : (c.serveSliceAt s pick x).arbs = c.arbs := by
  fun_cases Chip.serveSliceAt
  · simp
  · rfl

/-- An access that its slice serves or passes on comes to no arbiter but that of its channel. -/
theorem Chip.serveSliceAt_waiting_other (c : Chip) (s pick : Nat) {x : Waiting} {b : Nat} (h : b ≠ channelOf x.off) :
    (c.serveSliceAt s pick x).waitingAt b = c.waitingAt b := by
  fun_cases Chip.serveSliceAt
  · simp [Chip.waitingAt]
  · exact Chip.queueAt_waiting_other _ x h

/-- An access whose line the slice does not hold waits at the arbiter of its channel. -/
theorem Chip.serveSliceAt_waiting_of_miss (c : Chip) (s pick : Nat) {x : Waiting} (h : x.off / 64 ∉ c.linesOf s) :
    (c.serveSliceAt s pick x).waitingAt (channelOf x.off) = c.waitingAt (channelOf x.off) ++ [{ x with arrival := c.traffic.arrivals }] := by
  fun_cases Chip.serveSliceAt
  case case1 line held hhit => exact absurd hhit.1 h
  · exact Chip.queueAt_waiting _ _ _

theorem channelOf_lt (o : Nat) : channelOf o < 96 := Nat.mod_lt _ (by decide)

/-- The package once arbiter a has granted an access as one of class k. -/
def Chip.Granted (c d : Chip) (a k : Nat) (y : Waiting) : Prop :=
  d.arb a = (c.arb a).granted k y ∧ (∀ j, j ≠ a → d.arb j = c.arb j) ∧ d.mem = c.mem ∧
  (a < 96 → d.waitingAt a = (c.waitingAt a).erase y ∧ (∀ j, j ≠ a → d.waitingAt j = c.waitingAt j)) ∧
  (96 ≤ a → d.waitingAt a = (c.waitingAt a).erase y ∧
    (y.off / 64 ∉ c.linesOf (a - 96) → ∃ i, d.waitingAt (channelOf y.off) = c.waitingAt (channelOf y.off) ++ [{ y with arrival := i }]))

/-- The package as the granted access leaves its arbiter, not served yet. -/
def Chip.takeWaiting (c : Chip) (a k : Nat) (y : Waiting) : Chip :=
  { c.spend with
    arbs := SMap.set c.arbs a ((c.arb a).granted k y),
    traffic := { c.traffic with waiting := SMap.set c.traffic.waiting a ((c.waitingAt a).erase y) } }

theorem Chip.takeWaiting_waitingAt_same (c : Chip) (a k : Nat) (y : Waiting) : (c.takeWaiting a k y).waitingAt a = (c.waitingAt a).erase y :=
  SMap.get_set_same _ _ _ _

theorem Chip.takeWaiting_waitingAt_other (c : Chip) {a j : Nat} (k : Nat) (y : Waiting) (h : j ≠ a) :
    (c.takeWaiting a k y).waitingAt j = c.waitingAt j :=
  SMap.get_set_other _ _ _ h

theorem Chip.arb_of_arbs {c d : Chip} (h : d.arbs = c.arbs) (j : Nat) : d.arb j = c.arb j := congrArg (SMap.get Arbiter.reset · j) h

section
variable {c : Chip} {a k : Nat} {y : Waiting}

theorem Chip.grantNext_of_choose (h : (c.arb a).choose c.free.toNat (c.waitingAt a) = some (k, y)) :
    c.grantNext a = if 96 ≤ a then (c.takeWaiting a k y).serveSliceAt (a - 96) (c.free.toNat / 128) y
      else (c.takeWaiting a k y).countFor y 0x32 := by
  simp only [Chip.grantNext, h]
  rfl

theorem Chip.grantNext_arbs (h : (c.arb a).choose c.free.toNat (c.waitingAt a) = some (k, y)) :
    (c.grantNext a).arbs = (c.takeWaiting a k y).arbs := by
  rw [Chip.grantNext_of_choose h]
  split
  · exact Chip.serveSliceAt_arbs _ _ _ _
  · exact Chip.countFor_arbs _ _ _

/-- What an arbiter chooses is granted: it leaves the arbiter, and a slice without its line passes it on to its channel. -/
theorem Chip.grantNext_granted (h : (c.arb a).choose c.free.toNat (c.waitingAt a) = some (k, y)) : c.Granted (c.grantNext a) a k y := by
  have harb (j : Nat) : (c.grantNext a).arb j = (c.takeWaiting a k y).arb j := Chip.arb_of_arbs (Chip.grantNext_arbs h) j
  refine ⟨(harb a).trans (SMap.get_set_same _ _ _ _),
    fun j hj => (harb j).trans (SMap.get_set_other _ _ _ hj), c.grantNext_mem a, fun hch => ?_, fun hsl => ?_⟩
  · rw [Chip.grantNext_of_choose h, if_neg (by omega)]
    have hwaits (j : Nat) : ((c.takeWaiting a k y).countFor y 0x32).waitingAt j = (c.takeWaiting a k y).waitingAt j := by
      simp [Chip.waitingAt]
    exact ⟨(hwaits a).trans (c.takeWaiting_waitingAt_same a k y), fun j hj => (hwaits j).trans (c.takeWaiting_waitingAt_other k y hj)⟩
  · rw [Chip.grantNext_of_choose h, if_pos hsl]
    have hne : channelOf y.off ≠ a := by have := channelOf_lt y.off; omega
    refine ⟨(Chip.serveSliceAt_waiting_other _ _ _ hne.symm).trans (c.takeWaiting_waitingAt_same a k y), fun hmiss => ⟨c.traffic.arrivals, ?_⟩⟩
    rw [← c.takeWaiting_waitingAt_other k y hne]
    exact Chip.serveSliceAt_waiting_of_miss _ _ _ hmiss

end

/-- An arbiter that the package has grants what it chooses. -/
theorem Completes.arbGrant_of_choose {s : State} {home : ArbHome} {n k : Nat} {y : Waiting} {post : Chip → Prop} (hn : n < home.count)
    (h : (s.chip.arb (home.index n)).choose s.chip.free.toNat (s.chip.waitingAt (home.index n)) = some (k, y))
    (hpost : ∀ d, s.chip.Granted d (home.index n) k y → post d) : Completes s (.arbGrant home n) post :=
  .of_runIf (f := fun c => c.grantNext (home.index n)) rfl (decide_eq_true hn) (hpost _ (Chip.grantNext_granted h))

/-- Settles O43: each mode's choice among the accesses that wait, then the one effect that every grant has. -/
theorem arbiterGrants : Obligations.ArbiterGrants := by
  unfold Obligations.ArbiterGrants
  intro s home n x a c b l plain given goes hn _ hx
  refine ⟨fun hmode => ⟨fun htag hfirst hfloor => ?_, fun huntagged => ?_⟩, fun hmode hwaits => ?_⟩
  · have hgrant := b.deadlineGrant_of_tagged c.free.toNat (firstTagged_eq_some hx htag hfirst) hfloor
    exact .arbGrant_of_choose hn (b.choose_of_deadline _ hmode hgrant) fun _ hd => hd
  · have hne : plain ≠ [] := by
      rcases huntagged with hall | ⟨hne, -⟩
      · exact List.ne_nil_of_mem (List.mem_filter.mpr ⟨hx, by simp [hall x hx]⟩)
      · exact hne
    have hgrant := b.deadlineGrant_of_untagged c.free.toNat (huntagged.imp_left firstTagged_eq_none)
    obtain ⟨y, hy, hany⟩ := exists_anyOf_eq_some c.free.toNat hne
    exact .arbGrant_of_choose hn (b.choose_of_deadline _ hmode (hgrant.trans hany)) fun _ hd => ⟨y, hy, hd⟩
  · obtain ⟨y, hy, hdue, hgrant⟩ := b.exists_splitGrant_eq c.free.toNat hwaits
    exact .arbGrant_of_choose hn (b.choose_of_split _ hmode hgrant) fun _ hd => ⟨y, hy, hdue, hd⟩

end Sys2Proof.Machine
end

section
/-! A bounded SELECT whose entry is unanswered when its result record's turn comes (R219, R246, R316, R319). -/

namespace Sys2Proof.Machine

/-- What holds after a command that runs holds of the package that it leaves. -/
theorem Completes.post_of_run {s : State} {i : Instr} {post : Chip → Prop} {f : Chip → Chip} (h : exec i s = s.run f)
    (hc : Completes s i post) : post (f s.chip) := by
  obtain ⟨t, ht, -, hp⟩ := hc
  obtain rfl : { s with chip := f s.chip } = t := Host.Outcome.next.inj (h.symm.trans ht)
  exact hp

/-- A bounded SELECT of one U8 key at offset 0 of HBM: its entry goes to offset 0x2000 of package 1, its result record into the core's own Pool. -/
def farSelect : EngCmd :=
  { seq := 0, slot := 0, ctx := 0,
    bytes := putB (putB (putB (putB (putB (putB (List.replicate 64 0) 0 [1]) 0x18 [1]) 0x1C [2]) 0x20 (leBytes 8 (gaOf 1 0x2000).toNat)) 0x30 [1])
      0x38 (leBytes 8 selfBase),
    phase := .queued, handle := none, start := [], seen := none, prog := 0, sub := [], killed := false }

/-- The command after its first part. -/
def farSelectNext : EngCmd := { farSelect with sub := [2] }

/-- A running package whose core 0 has that SELECT to do, with package 1 behind its link in direction +Z. -/
def farSelectChip : Chip :=
  { Chip.reset with
    rst := { Rst.reset with por := true, phase := .discovered }
    net := { Net.reset with links := [(0, 16)], live := [0, 1] }
    links := [(16, { Link.reset with state := .active })]
    cores := [(0, { Core.reset with engines := [(3, { Engine.reset with queue := [farSelect] })] })] }

theorem farSelectChip_worksOn : farSelectChip.WorksOn 0 3 (some 1) farSelect := by
  unfold Chip.WorksOn
  decide +kernel

/-- What the first part gives: the entry, and the command with its record still to write. -/
def farSelectOut : EngOut where
  writes := [.remote { pkg := some 1, off := 0x2000, row := .hbm, ty := 0, wp := false } 1 [0]]
  effect c := ({ c with freeCtr := c.freeCtr + 0 }).setCmd 0 3 { farSelect with prog := 0, sub := [2] }
  stop := some .again

theorem farSelect_first :
    (selectBounded 0 farSelect).result (farSelectChip.reader 0 3 farSelect) = .ok (farSelectOut, [0]) := rfl

/-- The package once the entry is on its way. -/
def farSelectSent : Chip := farSelectOut.effect (farSelectChip.written 0 3 farSelect farSelectOut [0])

/-- The result record: one element in the row, one entry written (R316). -/
def farSelectRecord : EngOut := .ofWrites [.here poolBase (leBytes 8 1 ++ leBytes 8 1)]

theorem farSelect_second :
    (recordBody farSelectNext farSelectNext.rowLen).result (farSelectSent.reader 0 3 farSelectNext) = .ok (farSelectRecord, []) := rfl

/-- The command waits for the acknowledgement of its entry, its record unwritten. -/
theorem farSelect_waits : ((selectRun 0 farSelect.seq 16 farSelectChip).core 0).engine 3 =
    { Engine.reset with queue := [farSelectNext], wait := some .lateRemote } := by
  decide +kernel

/-- The command runs as the engine's current one. -/
theorem farSelect_runs : farSelectChip.onCommand 0 3 (some 1) [1] false (fun x => selectRun 0 x.seq 16 farSelectChip) =
    selectRun 0 farSelect.seq 16 farSelectChip :=
  Chip.onCommand_of_worksOn farSelectChip_worksOn (by simp)

/-- Refutes O29: its SELECT clause does not ask that the entries are written when the result record's turn comes. The record is written after
every entry (R316), so while an entry on its way to package 1 is unanswered the command waits, counting LATE_REMOTE: its work is not done. -/
theorem not_engineCommandsOfTwoParts : ¬ Obligations.EngineCommandsOfTwoParts := by
  unfold Obligations.EngineCommandsOfTwoParts
  intro h
  obtain ⟨-, hselect, -⟩ := h { pending := [], chip := farSelectChip } 0 farSelect farSelectNext
  have hworked := Completes.post_of_run (f := fun c => c.onCommand 0 3 (some 1) [1] false fun x => selectRun 0 x.seq 16 c) rfl
    (hselect rfl rfl farSelectOut farSelectRecord [0] [] farSelectChip_worksOn rfl farSelect_first rfl (by decide +kernel) (by decide +kernel) rfl
      (by decide) farSelect_second rfl (by decide +kernel) rfl)
  rw [farSelect_runs] at hworked
  have hqueue := congrArg Engine.queue hworked.engine
  have hsent : ((farSelectSent.written 0 3 farSelectNext farSelectRecord []).core 0).engine 3 =
      { Engine.reset with queue := [farSelectNext] } := by decide +kernel
  have hdone : [farSelectNext] = putCmd [farSelectNext] { farSelectNext with phase := .worked, start := [], seen := none } :=
    (congrArg Engine.queue farSelect_waits).symm.trans (hqueue.trans (congrArg (putCmd · _) (congrArg Engine.queue hsent)))
  exact absurd hdone (by decide)

end Sys2Proof.Machine
end

section
/-! SLICE_DATA that brings more bytes than a slice of this package's table holds (R253, R254). -/

namespace Sys2Proof.Machine

/-- GATHER of one row of table 0. -/
def gatherOfOneRow : EngCmd :=
  { seq := 0, slot := 0, ctx := 0, bytes := putB (putB (List.replicate 64 0) 0 [1]) 0x18 [1], phase := .queued, handle := none, start := [],
    seen := none, prog := 0, sub := [], killed := false }

/-- The place of the slice of row 0 among the answers. -/
def shortSliceKey : Nat := sliceKey 0 0 0 0

/-- A running package in groups of one, where table 0 has 32 columns of I8 and lies in group 16, that of package 1; core 0 waits for its row 0. -/
def shortSliceChip : Chip :=
  { Chip.reset with
    rst := { Rst.reset with por := true, phase := .discovered }
    net := { Net.reset with live := [0, 1] }
    emb := { Emb.reset with tables := [(0, { Table.reset with cfg := 0x8010000010000020, rows := 4 })] }
    cores := [(0, { Core.reset with engines := [(1, { Engine.reset with queue := [gatherOfOneRow], asked := [shortSliceKey] })] })] }

/-- The row from package 1, whose own registers give table 0 64 columns. -/
def longSlice : Msg :=
  { mtype := 0x51, src := 1, dest := 0, addr := 0, lockTag := 0, txn := 0, len := 0, cause := 0, position := 0, final := 0, ctx := 0,
    data := List.replicate 64 7 }

theorem shortSliceChip_receives : shortSliceChip.Receives longSlice := by
  unfold Chip.Receives
  decide

/-- The engine keeps the 32 bytes of a slice of its own table, and no byte 32. -/
theorem longSlice_byte32_not_kept :
    SMap.find (((shortSliceChip.message 0x51 longSlice false).core 0).engine 1).got (sliceAt shortSliceKey + 32) = none := by
  decide +kernel

/-- Refutes O42: its last clause says that the engine that asked holds every byte of the answer, without asking that the answer is no longer
than the slice. The slice length is that of the asking package's own registers (R254); where a member's registers differ and it returns more
bytes, those beyond that length are not kept. -/
theorem not_sliceReads : ¬ Obligations.SliceReads := by
  unfold Obligations.SliceReads
  intro h
  obtain ⟨-, -, hdata⟩ := h { pending := [], chip := shortSliceChip } longSlice 0 gatherOfOneRow shortSliceKey shortSliceChip_receives
  obtain ⟨hgot, -⟩ := Completes.post_of_run (f := fun c => c.message 0x51 longSlice false) rfl
    (hdata (by decide) rfl (by decide +kernel) (by decide +kernel) rfl rfl (by decide +kernel) (by decide +kernel))
  exact absurd (longSlice_byte32_not_kept.symm.trans (hgot 32 (by decide))) (by decide)

end Sys2Proof.Machine
end

section
/-! Embedding tables: their registers, the end of a measurement epoch, and a migration (R253, R256, R258, R259, R271, R273, R274). -/

namespace Sys2Proof.Machine

/-! Table registers (R258, R259). -/

theorem Chip.table_setTable_other (c : Chip) {t u : Nat} (x : Table) (h : u ≠ t) : (c.setTable t x).table u = c.table u :=
  SMap.get_set_other _ _ _ h

/-- What is dropped of a table leaves every table's registers as they are. -/
@[simp] theorem Chip.table_purgeTable (c : Chip) (t u : Nat) : (c.purgeTable t).table u = c.table u := rfl

/-- A table with one register written. -/
def Table.withReg (t : Table) (v : Word) : TableReg → Table
  | .cfg => { t with cfg := setBits v 13 15 0 }
  | .rows => { t with rows := w64 (bits v 39 0) }
  | .base => { t with base := w64 (bits v 49 0) }
  | .salt => { t with salt := v }
  | .spare => { t with spare := w64 (bits v 16 0) }

theorem Chip.tableWrite_of_unlocked {c : Chip} (h : c.locked = false) (n : Nat) (reg : TableReg) (v : Word) :
    c.tableWrite n reg v = (c.setTable n { (c.table n).withReg v reg with version := 0 }).purgeTable n := by
  rw [Chip.tableWrite, h]
  cases reg <;> rfl

/-- Bits 27:13 of TBLt_CFG are reserved: a write clears them. -/
theorem bit_setBits_reserved (v : Word) (i : Nat) : bit (setBits v 13 15 0) i = (bit v i && !decide (13 ≤ i ∧ i ≤ 27)) := by
  unfold bit
  by_cases hi : i < 64
  · rw [setBits_bit v 13 15 0 i hi]
    by_cases hfield : 13 ≤ i ∧ i ≤ 27
    · rw [if_pos (by omega), decide_eq_true hfield, Nat.zero_testBit, Bool.not_true, Bool.and_false]
    · rw [if_neg (by omega), decide_eq_false hfield, Bool.not_false, Bool.and_true]
  · rw [BitVec.getLsbD_of_ge _ _ (by omega), BitVec.getLsbD_of_ge v _ (by omega), Bool.false_and]

/-! The end of a measurement epoch (R271, R273). -/

theorem SMap.get_map_snd {α β : Type} (f : α → β) (d : α) (m : SMap α) (k : Nat) :
    SMap.get (f d) (m.map fun p => (p.1, f p.2)) k = f (SMap.get d m k) := by
  induction m with
  | nil => rfl
  | cons p t ih =>
    rw [List.map_cons, SMap.get, SMap.get, ih]
    split <;> rfl

theorem mem_insertTrack {x y : Track} {l : List Track} : y ∈ insertTrack x l ↔ y = x ∨ y ∈ l := by
  induction l with
  | nil => simp [insertTrack]
  | cons z t ih =>
    rw [insertTrack]
    split
    · simp
    · rw [List.mem_cons, ih, List.mem_cons]
      exact or_left_comm

theorem mem_sortTracks {y : Track} {l : List Track} : y ∈ sortTracks l ↔ y ∈ l := by
  induction l with
  | nil => rfl
  | cons x t ih => rw [sortTracks, List.foldr_cons, mem_insertTrack, List.mem_cons, ← ih, sortTracks]

/-- What fills the Hot Row Cache are rows of the list. -/
theorem exists_of_mem_fillHot {c : Chip} {space : Nat} {l : List Track} {q : Nat × Nat} (h : q ∈ fillHot c space l) :
    ∃ x ∈ l, x.table = q.1 ∧ x.row = q.2 := by
  induction l generalizing space with
  | nil => exact nomatch h
  | cons x t ih =>
    rw [fillHot] at h
    split at h
    · obtain rfl | h := List.mem_cons.mp h
      · exact ⟨x, List.mem_cons_self, rfl, rfl⟩
      · obtain ⟨y, hy, hq⟩ := ih h
        exact ⟨y, List.mem_cons_of_mem _ hy, hq⟩
    · exact nomatch h

/-- A row of the hot set is a tracked one, of a table with HRC_EN, at or above its threshold (R271). -/
theorem Chip.exists_of_mem_hotSet {c : Chip} {l : List Track} {q : Nat × Nat} (h : q ∈ c.hotSet (sortTracks l)) :
    ∃ x ∈ l, x.table = q.1 ∧ x.row = q.2 ∧ bit (c.table x.table).cfg 61 = true ∧ (c.table x.table).threshold ≤ x.count := by
  obtain ⟨x, hx, htable, hrow⟩ := exists_of_mem_fillHot h
  obtain ⟨hmem, hhot⟩ := List.mem_filter.mp hx
  rw [Bool.and_eq_true, decide_eq_true_eq] at hhot
  exact ⟨x, mem_sortTracks.mp hmem, htable, hrow, hhot⟩

/-- Picking a row for migration changes the moves under way, the tables whose migration stopped and the spare slots in use alone. -/
theorem Chip.pickMove_rest (c : Chip) (x : Track) (load : SMap Nat) :
    let d := (c.pickMove x load).1
    { d with emb := { d.emb with moves := c.emb.moves, stopped := c.emb.stopped, usedSpare := c.emb.usedSpare } } = c := by
  fun_cases Chip.pickMove c x load <;> rfl

theorem pickMoves_rest (sources : List Nat) (hot : List (Nat × Nat)) (xs : List Track) (n : Nat) (c : Chip) (load : SMap Nat) :
    let d := pickMoves sources hot xs n c load
    { d with emb := { d.emb with moves := c.emb.moves, stopped := c.emb.stopped, usedSpare := c.emb.usedSpare } } = c := by
  intro d
  induction xs generalizing n c load with
  | nil => rfl
  | cons x t ih =>
    unfold d
    rw [pickMoves]
    split
    · rfl
    · split
      · exact (congrArg (fun b : Chip => { b with emb := { b.emb with
          moves := c.emb.moves, stopped := c.emb.stopped, usedSpare := c.emb.usedSpare } }) (ih _ _ _)).trans (c.pickMove_rest x load)
      · exact ih n c load

/-- The embedding block after a measurement epoch, but for the migration that it begins. -/
theorem Chip.measEnd_emb {c : Chip} (h : c.measuring = true) :
    { c.measEnd.emb with moves := c.emb.moves, stopped := c.emb.stopped, usedSpare := c.emb.usedSpare } =
      { c.emb with hot := c.hotSet (sortTracks c.emb.tracker), hotBad := [], tracker := [], load := [],
                   shload := c.emb.load.map fun p => (p.1, w64 p.2) } := by
  rw [Chip.measEnd, h]
  exact congrArg Chip.emb (pickMoves_rest _ _ _ _ _ _)

/-! A migration (R256, R274). -/

/-- Different bytes of a channel's part of a table lie at different offsets (R256). -/
theorem Table.offset_injective (t : Table) (ch : Nat) : Function.Injective (t.offset ch) := by
  intro p q h
  unfold Table.offset at h
  omega

theorem Chip.placeOffsets_nodup (c : Chip) (t : Nat) (place : Nat × Nat) (s : Nat) : (c.placeOffsets t place s).Nodup := by
  refine List.Pairwise.map _ (fun i j hij h => hij ?_) List.nodup_range
  have hbyte := Table.offset_injective _ _ h
  omega

/-- Of stores at different addresses each is read back. -/
theorem Mem.read_writeAll_of_mem {m : List Host.Cell} (hm : Mem.wf m = true) {l : List (Nat × Byte)} (hl : (l.map Prod.fst).Nodup)
    {a : Nat} {v : Byte} (h : (a, v) ∈ l) : Mem.read (Mem.writeAll m l) a = v := by
  induction l generalizing m with
  | nil => exact nomatch h
  | cons p t ih =>
    rw [List.map_cons, List.nodup_cons] at hl
    obtain ⟨hp, ht⟩ := hl
    have hwf := Mem.wf_write p.1 p.2 hm
    obtain rfl | h := List.mem_cons.mp h
    · have hother : ∀ q ∈ t, q.1 ≠ a := fun q hq e => hp (List.mem_map.mpr ⟨q, hq, e⟩)
      rw [Mem.writeAll, Mem.read_writeAll_other hwf t hother, Mem.read_write hm, if_pos rfl]
    · exact ih hwf ht h

/-- Of bytes put at different offsets below the Basin control range each is read back. -/
theorem Chip.put_read_of_mem {c : Chip} (hm : Mem.wf c.mem = true) {cells : List (Nat × Byte)} (hn : (cells.map Prod.fst).Nodup)
    {a : Nat} {v : Byte} (h : (a, v) ∈ cells) (ha : a < basinBase) : Mem.read (c.put cells).mem a = v := by
  have hreal : ((cells.filter fun p => p.1 < basinBase).map Prod.fst).Nodup := hn.sublist (List.filter_sublist.map _)
  exact Mem.read_writeAll_of_mem hm hreal (List.mem_filter.mpr ⟨h, decide_eq_true ha⟩)

section
variable {c : Chip} {m : Remap} {rest : List Remap} (h : c.emb.moves = m :: rest)
include h

/-- The bytes of a slice that moves, at its new slot (R274). -/
theorem Chip.commitMove_mem_eq :
    let s := (c.table m.table).slice c.groupSize
    c.commitMove.mem = (c.put ((c.placeOffsets m.table (m.channel, m.place) s).zip
      ((c.placeOffsets m.table (c.rowPlace m.table m.row) s).map fun o => Mem.read c.mem o))).mem := by
  rw [Chip.commitMove, h]
  rfl

theorem Chip.rowPlace_commitMove : c.commitMove.rowPlace m.table m.row = (m.channel, m.place) := by
  rw [Chip.commitMove, h]
  simp [Chip.rowPlace]

theorem Chip.moves_commitMove : c.commitMove.emb.moves = rest := by
  rw [Chip.commitMove, h]

theorem Chip.version_commitMove : (c.commitMove.table m.table).version = (c.table m.table).version + 1 := by
  have htable : c.commitMove.table m.table = { c.table m.table with version := (c.table m.table).version + 1 } := by
    rw [Chip.commitMove, h]
    exact Chip.table_setTable _ _ _
  rw [htable]

end

/-- Settles O41: a register write is one update of the table beside what it purges, the end of an epoch leaves all but the migration as it sets it,
and a move copies between two lists of different offsets. -/
theorem embeddingTables : Obligations.EmbeddingTables := by
  unfold Obligations.EmbeddingTables
  intro s table v hm c n t e purged
  have hwrite (hb : c.blackout = false) (hl : c.locked = false) (reg : TableReg) : Completes s (.tableRegWrite table reg v) fun d =>
      purged d ∧ d.table n = { t.withReg v reg with version := 0 } := by
    refine .of_run (f := fun c => if c.blackout then c else c.tableWrite n reg v) rfl ?_
    have hgoes : (if c.blackout then c else c.tableWrite n reg v) = c.tableWrite n reg v := by rw [hb]; rfl
    rw [hgoes, Chip.tableWrite_of_unlocked hl]
    exact ⟨⟨rfl, rfl, rfl, rfl, fun k hk => c.table_setTable_other _ hk, rfl⟩, c.table_setTable n _⟩
  refine ⟨fun hb hl => ⟨hwrite hb hl .rows, hwrite hb hl .base, hwrite hb hl .salt, hwrite hb hl .spare, ?_⟩,
    fun hb hl r => ?_, fun hmeas => ?_, ?_⟩
  · obtain ⟨u, hu, hp, hpurged, htable⟩ := hwrite hb hl .cfg
    refine ⟨u, hu, hp, hpurged, by rw [htable], fun i => ?_⟩
    rw [htable]
    exact bit_setBits_reserved v i
  · refine .of_run (f := fun c => if c.blackout then c else c.tableWrite n r v) rfl ?_
    have hlocked : c.tableWrite n r v = c := if_pos hl
    rw [hb]
    exact hlocked
  · refine .of_run (f := fun c => c.measEnd) rfl ?_
    have hemb := Chip.measEnd_emb hmeas
    have hhot : c.measEnd.emb.hot = c.hotSet (sortTracks e.tracker) := (congrArg Emb.hot hemb :)
    have hshload : c.measEnd.emb.shload = e.load.map fun p => (p.1, w64 p.2) := (congrArg Emb.shload hemb :)
    refine ⟨(congrArg Emb.tracker hemb :), (congrArg Emb.load hemb :), (congrArg Emb.hotBad hemb :), fun ch => ?_, fun q hq => ?_,
      (congrArg Emb.remap hemb :), c.measEnd_mem⟩
    · rw [hshload]
      exact SMap.get_map_snd w64 0 e.load ch
    · rw [hhot] at hq
      exact Chip.exists_of_mem_hotSet hq
  · intro m rest hmoves len from_ to_ hto
    refine .of_run (f := fun c => c.commitMove) rfl
      ⟨Chip.rowPlace_commitMove hmoves, Chip.moves_commitMove hmoves, Chip.version_commitMove hmoves, fun i o q ho hq => ?_, fun a ha => ?_⟩
    · rw [Chip.commitMove_mem_eq hmoves]
      have hcell : (o, Mem.read c.mem q) ∈ to_.zip (from_.map fun o => Mem.read c.mem o) :=
        List.mem_of_getElem? (List.getElem?_zip_eq_some.mpr ⟨ho, by rw [List.getElem?_map, hq]; rfl⟩)
      have hnodup : ((to_.zip (from_.map fun o => Mem.read c.mem o)).map Prod.fst).Nodup := by
        rw [List.map_fst_zip (by simp [to_, from_, Chip.placeOffsets])]
        exact c.placeOffsets_nodup _ _ _
      exact Chip.put_read_of_mem hm hnodup hcell (hto o (List.mem_of_getElem? ho))
    · rw [Chip.commitMove_mem_eq hmoves]
      exact Chip.put_read_other hm _ fun p hp heq => ha (heq ▸ (List.of_mem_zip hp).1)

end Sys2Proof.Machine
end

section
/-! Messages of collectives and of an all-to-all at the package that they are for (R308, R474, R475, R480). -/

namespace Sys2Proof.Machine

/-! A message that reaches its package. -/

theorem Chip.message_received {c : Chip} {m : Msg} (h : c.Receives m) (t : Nat) (ecc : Bool) :
    c.message t m ecc = c.serve { m with mtype := BitVec.ofNat 8 t } ecc := by
  obtain ⟨hhub, hdest, hway⟩ := h
  have hway' : c.atWaypoint { m with mtype := BitVec.ofNat 8 t } = false := hway
  simp [Chip.message, Chip.arrive, hhub, hdest, hway']

/-- A row of a message is what its type does at the package. -/
theorem Completes.of_serve {s : State} {i : Instr} {m : Msg} {t : Nat} {d : Chip} {post : Chip → Prop} (hr : s.chip.Receives m)
    (hexec : exec i s = s.run fun c => c.message t m false) (hserve : s.chip.serve { m with mtype := BitVec.ofNat 8 t } false = d)
    (h : post d) : Completes s i post :=
  .of_run hexec (by rw [Chip.message_received hr, hserve]; exact h)

section
variable {c : Chip} {m : Msg}

theorem Chip.collective_of_tagOk (h : c.tagOk m = true) (f : Chip → Chip) : c.collective m f = f c := if_pos h

/-- A chunk or a JOIN with a wrong tag is refused (R51). -/
theorem Chip.serve_wrong_tag (h : c.tagOk m = false) {t : Nat} (ht : t = 0x21 ∨ t = 0x23) :
    c.serve { m with mtype := BitVec.ofNat 8 t } false = c.refuseTag { m with mtype := BitVec.ofNat 8 t } true := by
  have hwrong : ¬ c.tagOk { m with mtype := BitVec.ofNat 8 t } = true := fun hok => Bool.false_ne_true (h.symm.trans hok)
  obtain rfl | rfl := ht
  · exact if_neg hwrong
  · exact if_neg hwrong

section
variable (htag : c.tagOk m = true)
include htag

theorem Chip.serve_contrib : c.serve { m with mtype := 0x21 } false = c.rootChunk (Msg.name m) (chunkOf { m with mtype := 0x21 }) :=
  Chip.collective_of_tagOk htag fun c => c.rootChunk (Msg.name m) (chunkOf { m with mtype := 0x21 })

/-- A HIST carries a list or a chunk (R320). -/
theorem Chip.serve_hist : c.serve { m with mtype := 0x22 } false =
    if bits m.position 20 16 = 31 then c.rootList (Msg.name m) ((List.range (m.data.length / 8)).map fun i => fieldB m.data (8 * i) 8)
    else c.rootChunk (Msg.name m) (chunkOf { m with mtype := 0x22 }) := by
  have hserve := Chip.collective_of_tagOk (m := { m with mtype := 0x22 }) htag fun c =>
    if decide (bits m.position 20 16 = 31) then c.rootList (Msg.name m) ((List.range (m.data.length / 8)).map fun i => fieldB m.data (8 * i) 8)
    else c.rootChunk (Msg.name m) (chunkOf { m with mtype := 0x22 })
  exact hserve.trans (by simp only [decide_eq_true_eq])

theorem Chip.serve_join : c.serve { m with mtype := 0x23 } false = c.rootJoin (m.cause = 1) (Msg.name m) (joinerOf m) :=
  Chip.collective_of_tagOk htag fun c => c.rootJoin (m.cause = 1) (Msg.name m) (joinerOf m)

theorem Chip.serve_a2aCount : c.serve { m with mtype := 0x25 } false =
    c.a2aCount (Msg.name m) (fieldB m.data 0 2) m.src.toNat (fieldB m.data 4 4) (fieldB m.data 2 2) (fieldB m.data 8 2) (fieldB m.data 12 4)
      (fieldB m.data 16 8 % 2 ^ 50) :=
  Chip.collective_of_tagOk htag fun c => c.a2aCount (Msg.name m) (fieldB m.data 0 2) m.src.toNat (fieldB m.data 4 4) (fieldB m.data 2 2)
    (fieldB m.data 8 2) (fieldB m.data 12 4) (fieldB m.data 16 8 % 2 ^ 50)

end

/-- A RESULT of a reduction, kind 0, or of a selection's pass 0, kind 1: POSITION is the kind alone. -/
theorem Chip.serve_result {kind : Nat} (hpos : m.position = BitVec.ofNat 64 kind) (hkind : kind < 2) :
    c.serve { m with mtype := 0x24 } false = c.resultHere kind (Msg.root m) (Msg.name m) 0 m.cause.toNat m.data := by
  have hserve : c.serve { m with mtype := 0x24 } false = c.takeResult { m with mtype := 0x24 } := rfl
  rw [hserve, Chip.takeResult]
  obtain rfl | rfl : kind = 0 ∨ kind = 1 := by omega
  all_goals
    simp only [hpos]
    rfl

end

/-! The root of a collective (R474, R475). -/

theorem Chip.root_of_find {c : Chip} {hist : Bool} {name : Nat} {r : Root}
    (h : c.conf.roots.find? (fun q => q.hist = hist ∧ q.name = name) = some r) : c.root hist name = r := by
  rw [Chip.root, h]
  rfl

/-- A collective that has not ended and that not every participant has joined only waits, whatever has come. -/
theorem Chip.tryRoot_of_waiting (c : Chip) {r : Root} (pass : Nat) (hended : r.ended = none) (hseen : r.allSeen = false) :
    c.tryRoot r pass = c.setRoot r false := by
  cases hhist : r.hist <;> simp [Chip.tryRoot, Chip.tryPass, Chip.tryReduce, hended, hseen, hhist]

section
variable {c : Chip} {name : Nat} {r : Root} {k : Chunk} (hended : r.ended = none) (hseen : r.allSeen = false)
include hended hseen

/-- A chunk of a reduction counts its leaves, and takes its number beyond 65,536 from the chunks that wait. -/
theorem Chip.rootChunk_of_reduction (hroot : c.root false name = r) (hhist : k.hist = false) : c.rootChunk name k = c.setRoot { r with
    leaves := r.leaves + k.leafCount, chunks := climb 32 { k with chunk := r.chunkNumber k } r.chunks } false := by
  rw [← c.tryRoot_of_waiting 0 (by exact hended) (by exact hseen)]
  simp [Chip.rootChunk, hhist, hroot, hended]

/-- A chunk of a selection's first pass counts its leaves. -/
theorem Chip.rootChunk_of_first_pass (hroot : c.root true name = r) (hhist : k.hist = true) (hpass : k.chunk / 1024 = 0) :
    c.rootChunk name k = c.setRoot { r with leaves := r.leaves + k.leafCount, chunks := climb 32 k r.chunks } false := by
  rw [← c.tryRoot_of_waiting 0 (by exact hended) (by exact hseen)]
  simp [Chip.rootChunk, hhist, hroot, hended, hpass]

/-- A chunk of a later pass reaches a selection whose first pass is over. -/
theorem Chip.rootChunk_of_later_pass (hroot : c.root true name = r) (hhist : k.hist = true) (hpass : k.chunk / 1024 ≠ 0)
    (hover : r.pass ≠ 0) : c.rootChunk name k = c.setRoot { r with chunks := climb 32 k r.chunks } false := by
  rw [← c.tryRoot_of_waiting (k.chunk / 1024) (by exact hended) (by exact hseen)]
  simp [Chip.rootChunk, hhist, hroot, hended, hpass, hover]

end

/-- A participant's list waits for the others' (R320). -/
theorem Chip.rootList_of_missing {c : Chip} {name : Nat} {r : Root} (hroot : c.root true name = r) (hended : r.ended = none)
    (hover : r.pass ≠ 0) (l : List Nat) (hmissing : r.lists.length + 1 < r.count) :
    c.rootList name l = c.setRoot { r with lists := l :: r.lists } false := by
  simp [Chip.rootList, hroot, hended, hover, hmissing]

/-- A collective that its first JOIN opens. -/
def Root.opened (hist : Bool) (name : Nat) (j : Joiner) : Root :=
  { hist := hist, name := name, count := j.count, joins := [j], absent := 0, chunks := [], pass := 0, leaves := 0, lists := [], ended := none }

/-- One participant among several breaks nothing and is not all of them. -/
theorem Root.opened_broken {j : Joiner} (hpart : j.part < j.count) (hist : Bool) (name : Nat) : (Root.opened hist name j).broken = false := by
  simp [Root.opened, Root.broken, hpart, List.eraseDups_cons]

theorem Root.opened_allSeen {j : Joiner} (hcount : 2 ≤ j.count) (hist : Bool) (name : Nat) : (Root.opened hist name j).allSeen = false := by
  simp [Root.opened, Root.allSeen]
  omega

theorem Chip.rootJoin_of_first {c : Chip} {j : Joiner} (hroots : c.conf.roots = []) (hcount : 2 ≤ j.count) (hpart : j.part < j.count)
    (hist : Bool) (name : Nat) :
    c.rootJoin hist name j = { c with conf := { c.conf with roots := [Root.opened hist name j] } } := by
  have hroot : c.root hist name =
      { hist := hist, name := name, count := 0, joins := [], absent := 0, chunks := [], pass := 0, leaves := 0, lists := [], ended := none } := by
    rw [Chip.root, hroots]
    rfl
  have hmax : Nat.max 1 j.count = j.count := Nat.max_eq_right (by omega)
  have hjoined : { (c.root hist name).told j.count with joins := j :: (c.root hist name).joins } = Root.opened hist name j := by
    simp [hroot, Root.told, Root.opened, hmax]
  have hended : (c.root hist name).ended = none := by rw [hroot]
  have hset : c.setRoot (Root.opened hist name j) false = { c with conf := { c.conf with roots := [Root.opened hist name j] } } := by
    simp [Chip.setRoot, hroots]
  rw [← hset, ← c.tryRoot_of_waiting 0 rfl (Root.opened_allSeen hcount hist name), Chip.rootJoin]
  simp [hjoined, hended, Root.opened_broken hpart]

/-! The receiver of an all-to-all (R480). -/

/-- The first A2A_COUNT of several opens a receiver, which waits for the others. -/
theorem Chip.a2aCount_of_first {c : Chip} {parts : Nat} (hnone : c.conf.a2a = []) (hparts : 2 ≤ parts)
    (name part pkg rows rowBytes cap recv : Nat) : c.a2aCount name part pkg rows parts rowBytes cap recv = { c with conf := { c.conf with
      a2a := [{ name := name, recv := recv, cap := cap, parts := parts, rowBytes := rowBytes, counts := [(part, pkg, rows)], replied := false,
                left := 0 }] } } := by
  have hwaits : ¬ parts ≤ 1 := by omega
  simp [Chip.a2aCount, Chip.setA2a, hnone, hwaits]

/-- The one command of an all-to-all on this package keeps the offset that a receiver names it. -/
theorem Chip.a2aOffsetHere_of_single {c : Chip} {name part fc : Nat} {x : EngCmd} (hcmds : c.a2aCmds name = [(fc, x)])
    (hpart : x.field 0x32 2 = part) (receiver off : Nat) : c.a2aOffsetHere receiver name part off = c.setCmd fc 0 { x with
      sub := planNums ((planOf x.sub.tail).map fun p => if p.1 = receiver ∧ p.2.1 = 0 then (p.1, 1, off) else p) } := by
  simp [Chip.a2aOffsetHere, hcmds, hpart]

/-! A RESULT at the one core whose engine has joined (R475). -/

theorem foldl_eq_self {α β : Type} {f : β → α → β} {l : List α} {b : β} (h : ∀ y ∈ l, f b y = b) : l.foldl f b = b := by
  induction l with
  | nil => rfl
  | cons y t ih => rw [List.foldl_cons, h y List.mem_cons_self, ih fun z hz => h z (List.mem_cons_of_mem y hz)]

/-- A fold in which one entry alone does something is that entry's step. -/
theorem foldl_eq_of_single {α β : Type} {f : β → α → β} {l : List α} {a : α} {b : β} (hnodup : l.Nodup) (ha : a ∈ l)
    (hbefore : ∀ y ∈ l, y ≠ a → f b y = b) (hafter : ∀ y ∈ l, y ≠ a → f (f b a) y = f b a) : l.foldl f b = f b a := by
  obtain ⟨l₁, l₂, rfl⟩ := List.append_of_mem ha
  obtain ⟨-, htail, hdisjoint⟩ := List.nodup_append.mp hnodup
  obtain ⟨hout, -⟩ := List.nodup_cons.mp htail
  have hfirst : l₁.foldl f b = b := foldl_eq_self fun y hy =>
    hbefore y (List.mem_append_left _ hy) (hdisjoint y hy a List.mem_cons_self)
  have hlast : l₂.foldl f (f b a) = f b a := foldl_eq_self fun y hy =>
    hafter y (List.mem_append_right _ (List.mem_cons_of_mem a hy)) fun heq => hout (heq ▸ hy)
  rw [List.foldl_append, List.foldl_cons, hfirst, hlast]

/-- What a core has joined depends on that core alone. -/
theorem Chip.joined_of_core_eq {c d : Chip} {n : Nat} (h : d.core n = c.core n) (e root name : Nat) :
    d.joined n e root name = c.joined n e root name := by
  rw [Chip.joined, h]
  rfl

@[simp] theorem Chip.core_endReq (c : Chip) (k status : Nat) (detail : BitVec 32) (n : Nat) : (c.endReq k status detail).core n = c.core n := by
  have hcores : (c.endReq k status detail).cores = c.cores := (congrArg Chip.cores (c.endReq_rest k status detail).1 :)
  rw [Chip.core, hcores]
  rfl

theorem Chip.core_failCmd_other (c : Chip) {n fc : Nat} (e : Nat) (x : EngCmd) (status code : Nat) (h : n ≠ fc) :
    (c.failCmd fc e x status code).core n = c.core n := by
  rw [Chip.failCmd, Chip.engineError, Chip.core_endReq]
  exact (EngineChanged.setCmd c fc e _).others n h

section
variable {c : Chip} {fc kind root name : Nat} {x : EngCmd} (hfc : fc < 64) (hjoined : c.joined fc (collEngine kind) root name = some x)
  (halone : ∀ f, f < 64 → f ≠ fc → c.joined f (collEngine kind) root name = none)
include hfc hjoined halone

theorem Chip.resultHere_of_single {pass code : Nat} {data : List Byte} {d : Chip} (hfor : c.resultFor fc kind pass code data x = d)
    (hothers : ∀ n, n ≠ fc → d.core n = c.core n) : c.resultHere kind root name pass code data = d := by
  have hlater : ∀ f, f < 64 → f ≠ fc → d.joined f (collEngine kind) root name = none := by
    intro f hf hne
    rw [Chip.joined_of_core_eq (hothers f hne), halone f hf hne]
  unfold Chip.resultHere
  refine (foldl_eq_of_single (a := fc) List.nodup_range (List.mem_range.mpr hfc) (fun f hf hne => ?_) fun f hf hne => ?_).trans ?_
  · rw [halone f (List.mem_range.mp hf) hne]
  · simp only [hjoined, hfor]
    rw [hlater f (List.mem_range.mp hf) hne]
  · simp only [hjoined, hfor]

/-- An error ends the Request of the participant here. -/
theorem Chip.resultHere_of_error {code : Nat} (hcode : code ≠ 0) (pass : Nat) (data : List Byte) :
    c.resultHere kind root name pass code data = c.failCmd fc (collEngine kind) x.apart 0x14 code :=
  Chip.resultHere_of_single hfc hjoined halone (if_pos hcode) fun _ hn => c.core_failCmd_other _ _ _ _ hn

/-- A reduction's RESULT without error completes the participant here. -/
theorem Chip.resultHere_of_reduction {code : Nat} (hcode : code = 0) (hkind : kind = 0) (pass : Nat) (data : List Byte) :
    c.resultHere kind root name pass code data = c.finishCmd fc (collEngine kind) x :=
  Chip.resultHere_of_single hfc hjoined halone (by simp [Chip.resultFor, hcode, hkind]) (c.finishCmd_worked fc _ x).others

end

/-- Settles O46: each row is what the message's type does at the package, and the lemmas on the root, on the receiver and on a RESULT say what
that is. -/
theorem collectiveMessages : Obligations.CollectiveMessages := by
  unfold Obligations.CollectiveMessages
  intro s m r fc x hr c name root typed known tree chunk counts j e
  refine ⟨fun htag => ⟨?_, ?_, ?_, ?_, ?_, ?_⟩, fun hfc hjoined halone => ⟨?_, ?_⟩, fun hcmds hpart => ?_, fun htag => ⟨?_, ?_⟩⟩
  · rintro ⟨hfind, -, hended⟩ hseen
    exact .of_serve hr rfl (Chip.serve_contrib htag) (Chip.rootChunk_of_reduction hended hseen (Chip.root_of_find hfind) rfl)
  · rintro ⟨hfind, -, hended⟩ hseen hlevel hpass
    exact .of_serve hr rfl ((Chip.serve_hist htag).trans (if_neg hlevel))
      (Chip.rootChunk_of_first_pass hended hseen (Chip.root_of_find hfind) rfl hpass)
  · rintro ⟨hfind, -, hended⟩ hseen hlevel hpass hover
    exact .of_serve hr rfl ((Chip.serve_hist htag).trans (if_neg hlevel))
      (Chip.rootChunk_of_later_pass hended hseen (Chip.root_of_find hfind) rfl hpass hover)
  · rintro ⟨hfind, -, hended⟩ hlevel hover hmissing
    exact .of_serve hr rfl ((Chip.serve_hist htag).trans (if_pos hlevel))
      (Chip.rootList_of_missing (Chip.root_of_find hfind) hended hover _ hmissing)
  · intro hroots hcount hpart
    exact .of_serve hr rfl (Chip.serve_join htag) (Chip.rootJoin_of_first hroots hcount hpart _ name)
  · intro hnone hparts
    exact .of_serve hr rfl (Chip.serve_a2aCount htag) (Chip.a2aCount_of_first hnone hparts name _ _ _ _ _ _)
  · intro hcause hpos
    have he : e = collEngine 0 := if_pos hpos
    rw [he] at hjoined halone
    have hcode : m.cause.toNat = 0 := by rw [hcause]; rfl
    exact .of_serve hr rfl ((Chip.serve_result hpos (by decide)).trans (Chip.resultHere_of_reduction hfc hjoined halone hcode rfl 0 m.data))
      (c.finishCmd_worked fc 2 x)
  · intro hcause hpos
    obtain ⟨kind, hkind, hposition, he⟩ : ∃ kind, kind < 2 ∧ m.position = BitVec.ofNat 64 kind ∧ e = collEngine kind := by
      obtain hzero | hone := hpos
      · exact ⟨0, by decide, hzero, if_pos hzero⟩
      · exact ⟨1, by decide, hone, if_neg (by rw [hone]; decide)⟩
    rw [he] at hjoined halone ⊢
    have hcode : m.cause.toNat ≠ 0 := fun h => hcause (BitVec.eq_of_toNat_eq h)
    exact .of_serve hr rfl (Chip.serve_result hposition hkind) (Chip.resultHere_of_error hfc hjoined halone hcode 0 m.data)
  · exact .of_serve hr rfl rfl (Chip.a2aOffsetHere_of_single hcmds hpart _ _)
  · exact .of_serve hr rfl (Chip.serve_wrong_tag htag (.inl rfl)) rfl
  · exact .of_serve hr rfl (Chip.serve_wrong_tag htag (.inr rfl)) rfl

end Sys2Proof.Machine
end

section
/-! What a unit changes when it reads, and when it writes to this package or to the far side of a port (R140, R358, R419). -/

namespace Sys2Proof.Machine

/-- From one package to the other, only memory with its reservations, the accesses that wait, the power state and what is driven out differ. -/
def Chip.AccessedTo (c d : Chip) : Prop :=
  { d with mem := c.mem, rsvs := c.rsvs, traffic := c.traffic, pwr := c.pwr, out := c.out } = c

namespace Chip.AccessedTo

theorem refl (c : Chip) : c.AccessedTo c := rfl

theorem trans {c d e : Chip} (h : c.AccessedTo d) (h' : d.AccessedTo e) : c.AccessedTo e := by
  have hrest : { { e with mem := d.mem, rsvs := d.rsvs, traffic := d.traffic, pwr := d.pwr, out := d.out } with
    mem := c.mem, rsvs := c.rsvs, traffic := c.traffic, pwr := c.pwr, out := c.out } = c := by rw [h']; exact h
  exact hrest

theorem foldl {α : Type} {f : Chip → α → Chip} {l : List α} (hf : ∀ c : Chip, ∀ a ∈ l, c.AccessedTo (f c a)) (c : Chip) :
    c.AccessedTo (l.foldl f c) := by
  induction l generalizing c with
  | nil => exact refl c
  | cons a t ih =>
    exact (hf c a List.mem_cons_self).trans (ih (fun c b hb => hf c b (List.mem_cons_of_mem a hb)) (f c a))

theorem memAccess (c : Chip) (requester cls : Nat) (tag : Option Word) (o : Nat) : c.AccessedTo (c.memAccess requester cls tag o) := by
  have hrest : { { c.memAccess requester cls tag o with traffic := c.traffic, pwr := c.pwr } with mem := c.mem, rsvs := c.rsvs, out := c.out } = c := by
    rw [c.memAccess_rest]
  exact hrest

theorem putAt (c : Chip) (o : Nat) (data : List Byte) : c.AccessedTo (c.putAt o data) := by
  have hrest : { { c.wakePool o with pwr := c.pwr } with mem := c.mem, rsvs := c.rsvs, traffic := c.traffic, out := c.out } = c := by
    rw [c.wakePool_rest]
  exact hrest

theorem unitReads (c : Chip) (who : Holder) (reads : List Nat) : c.AccessedTo (c.unitReads who reads) :=
  foldl (fun c o _ => memAccess c _ 0 none o) c

theorem unitWrite (c : Chip) (who : Holder) (ctx : Nat) {w : Wr} (h : w.isRemote = false) : c.AccessedTo (c.unitWrite who ctx w) := by
  cases w with
  | here o data => exact (memAccess c _ 1 none o).trans (putAt _ o data)
  | remote t p data => exact nomatch h
  | bulk kind t p data => exact nomatch h
  | bus port addr data => exact refl c

theorem unitWrites (c : Chip) (who : Holder) (ctx : Nat) {l : List Wr} (h : ∀ w ∈ l, w.isRemote = false) :
    c.AccessedTo (c.unitWrites who ctx l) :=
  foldl (fun c w hw => unitWrite c who ctx (h w hw)) c

theorem unitReads_unitWrites (c : Chip) (who : Holder) (ctx : Nat) (reads : List Nat) {l : List Wr} (h : ∀ w ∈ l, w.isRemote = false) :
    c.AccessedTo ((c.unitReads who reads).unitWrites who ctx l) :=
  (unitReads c who reads).trans (unitWrites _ who ctx h)

variable {c d : Chip} (h : c.AccessedTo d)
include h

theorem txu : d.txu = c.txu := (congrArg Chip.txu h :)

theorem ctx (n : Nat) : d.ctx n = c.ctx n := (congrArg (Chip.ctx · n) h :)

theorem unitQuiet (who : Holder) (n : Nat) : d.unitQuiet who n = c.unitQuiet who n := (congrArg (Chip.unitQuiet · who n) h :)

end Chip.AccessedTo

/-! Memory after a unit's writes depends on memory before them alone. -/

theorem Chip.unitWrite_mem_congr {c d : Chip} (h : c.mem = d.mem) (who : Holder) (ctx : Nat) (w : Wr) :
    (c.unitWrite who ctx w).mem = (d.unitWrite who ctx w).mem := by
  cases w <;> simp [Chip.unitWrite, Chip.putAt, Chip.put, h]

theorem Chip.unitWrites_mem_congr {c d : Chip} (h : c.mem = d.mem) (who : Holder) (ctx : Nat) (l : List Wr) :
    (c.unitWrites who ctx l).mem = (d.unitWrites who ctx l).mem := by
  induction l generalizing c d with
  | nil => exact h
  | cons w t ih => exact ih (Chip.unitWrite_mem_congr h who ctx w)

theorem Chip.unitWrites_append (c : Chip) (who : Holder) (ctx : Nat) (l m : List Wr) :
    c.unitWrites who ctx (l ++ m) = (c.unitWrites who ctx l).unitWrites who ctx m := List.foldl_append

theorem Chip.unitSend_of_near {l : List Wr} (h : farWrites l = []) (c : Chip) (who : Holder) (ctx prog : Nat) :
    c.unitSend who ctx prog l = (c, prog) := by
  simp [Chip.unitSend, Chip.unitWrites, h]

/-- A computation that gives a value gives it with the offsets that it has read. -/
theorem Rd.result_of_value {α : Type} {m : Rd α} {r : Reader} {a : α} (h : m.value r = .ok a) : ∃ reads, m.result r = .ok (a, reads) := by
  unfold Rd.value at h
  unfold Rd.result
  split at h
  next b l hm =>
    obtain rfl := Except.ok.inj h
    exact ⟨l.reverse, rfl⟩
  next => exact nomatch h

end Sys2Proof.Machine
end

section
/-! Vocabulary slots, text jobs and the released stream (R353, R356, R359, R364, R366, R367, R370). -/

namespace Sys2Proof.Machine

/-! Vocabulary slots (R353, R356, R370). -/

@[simp] theorem Chip.voc_setVoc (c : Chip) (n : Nat) (v : Voc) : (c.setVoc n v).txu.voc n = v := SMap.get_set_same _ _ n v

section
variable {c : Chip} {n : Nat}

theorem Chip.vocLoad_of_free (hb : c.blackout = false) (hl : c.locked = false) (hs : (c.txu.voc n).state ≠ 1) :
    c.vocLoad n = c.setVoc n { c.txu.voc n with
      state := if (c.txu.voc n).start + (c.txu.voc n).size ≤ storeBase then 1 else 3, digest := [], image := [] } := by
  simp only [Chip.vocLoad, hb, hl, hs, Bool.or_self, decide_false, Bool.false_eq_true, if_false]

theorem Chip.vocClear_of_free (hb : c.blackout = false) (hl : c.locked = false) :
    c.vocClear n = c.setVoc n { c.txu.voc n with state := 0, digest := [], image := [] } := by
  simp [Chip.vocClear, hb, hl]

theorem Chip.vocLoad_of_locked (hl : c.locked = true) : c.vocLoad n = c := by simp [Chip.vocLoad, hl]

theorem Chip.vocClear_of_locked (hl : c.locked = true) : c.vocClear n = c := by simp [Chip.vocClear, hl]

theorem Chip.vocLoaded_of_format (hs : (c.txu.voc n).state = 1) (hf : c.vocFormat (c.txu.voc n) = true) :
    c.vocLoaded n = c.setVoc n { c.txu.voc n with
      state := 2, digest := sha384 (c.bytes (c.txu.voc n).start (c.txu.voc n).size),
      image := c.bytes (c.txu.voc n).start (c.txu.voc n).size } := by
  simp [Chip.vocLoaded, hs, hf]

theorem Chip.vocLoaded_of_bad_format (hs : (c.txu.voc n).state = 1) (hf : c.vocFormat (c.txu.voc n) = false) :
    c.vocLoaded n = c.setVoc n { c.txu.voc n with state := 3 } := by
  simp [Chip.vocLoaded, hs, hf]

end

/-! Text jobs (R357, R359, R367). -/

theorem Chip.textStart_of_lane {c : Chip} {j : TextJob} {i : Nat} (hj : c.txu.jobs.find? (fun q => q.lane.isNone) = some j) (hi : i < 4)
    (hfree : c.laneFree i = true) (hlow : ∀ k, k < i → c.laneFree k = false) : c.textStart = c.setTextJob { j with lane := some i } := by
  have hlane : (List.range 4).find? (fun i => c.laneFree i) = some i :=
    List.find?_range_eq_some.mpr ⟨hfree, List.mem_range.mpr hi, fun k hk => by simp [hlow k hk]⟩
  simp only [Chip.textStart, hj, hlane]

/-- The package after a job's reads and writes, with what the job adds to the unit's counts of bytes. -/
def Chip.textWritten (c : Chip) (j : TextJob) (o : TextOut) (reads : List Nat) : Chip :=
  let d := (c.unitReads .text reads).unitWrites .text j.ctx (o.outs ++ o.record)
  { d with txu := { d.txu with byteCount := d.txu.byteCount + w64 o.bytes, replaced := d.txu.replaced + w64 o.replaced }, freeCtr := d.freeCtr + o.free }

section
variable {c : Chip} {j : TextJob} {o : TextOut} (hnear : ∀ w ∈ o.outs ++ o.record, w.isRemote = false)
include hnear

theorem Chip.textCarry_of_near (hquiet : c.unitQuiet .text j.ctx = true) (reads : List Nat) :
    c.textCarry j (.ok (o, reads)) = (c.textWritten j o reads).endTextJob j := by
  have houts : ∀ w ∈ o.outs, w.isRemote = false := fun w hw => hnear w (List.mem_append_left _ hw)
  have hfar : farWrites o.outs = [] := List.filter_eq_nil_iff.mpr fun w hw => by simp [houts w hw]
  have hall : o.outs.filter (fun w => !w.isRemote) = o.outs := List.filter_eq_self.mpr fun w hw => by simp [houts w hw]
  have hdone : (c.textWritten j o reads).unitQuiet .text j.ctx = true :=
    ((Chip.AccessedTo.unitReads_unitWrites c .text j.ctx reads hnear).unitQuiet .text j.ctx).trans hquiet
  rw [Chip.textWritten, Chip.unitWrites_append] at hdone
  simp only [Chip.textCarry, Chip.unitSend_of_near hfar, hfar, hall, hquiet, List.length_nil, Nat.not_lt_zero, Bool.true_eq_false, or_self, if_false]
  rw [if_pos hdone, Chip.textWritten, Chip.unitWrites_append]

theorem Chip.textWritten_txu (reads : List Nat) : (c.textWritten j o reads).txu =
    { c.txu with byteCount := c.txu.byteCount + w64 o.bytes, replaced := c.txu.replaced + w64 o.replaced } := by
  have htxu := (Chip.AccessedTo.unitReads_unitWrites c .text j.ctx reads hnear).txu
  simp only [Chip.textWritten, htxu]

theorem Chip.textWritten_ctx (reads : List Nat) (n : Nat) : (c.textWritten j o reads).ctx n = c.ctx n :=
  (Chip.AccessedTo.unitReads_unitWrites c .text j.ctx reads hnear).ctx n

end

theorem Chip.textWritten_mem (c : Chip) (j : TextJob) (o : TextOut) (reads : List Nat) :
    (c.textWritten j o reads).mem = (c.unitWrites .text j.ctx (o.outs ++ o.record)).mem :=
  Chip.unitWrites_mem_congr (c.unitReads_mem .text reads) .text j.ctx _

@[simp] theorem Chip.setStage_txu (c : Chip) (ctx stage : Nat) (st : StageState) : (c.setStage ctx stage st).txu = c.txu := by
  unfold Chip.setStage
  split <;> rfl

theorem Chip.stageState_setStage {c : Chip} {ctx : Nat} {x : Ctx} (hx : c.ctx ctx = some x) (stage : Nat) (st : StageState) :
    ∃ y, (c.setStage ctx stage st).ctx ctx = some y ∧ y.stageState stage = st := by
  refine ⟨{ x with stages := SMap.set x.stages stage st }, ?_, SMap.get_set_same _ _ stage st⟩
  rw [Chip.setStage, hx]
  exact Chip.ctx_setCtx c ctx _

theorem Chip.endTextJob_txu (c : Chip) (j : TextJob) : (c.endTextJob j).txu =
    { c.txu with jobs := c.txu.jobs.filter (fun q => !(q.ctx = j.ctx && q.stage = j.stage)), jobCount := c.txu.jobCount + 1 } := by
  simp [Chip.endTextJob]

theorem Chip.endTextJob_reported {c : Chip} {j : TextJob} {x : Ctx} (hx : c.ctx j.ctx = some x) :
    ∃ y, (c.endTextJob j).ctx j.ctx = some y ∧ y.stageState j.stage = .reported := by
  unfold Chip.endTextJob
  exact Chip.stageState_setStage (by exact hx) j.stage .reported

/-- A job has written its output and its record, is counted and gone, and its stage reports. -/
structure Chip.TextDone (c d : Chip) (j : TextJob) (o : TextOut) : Prop where
  mem : d.mem = (c.unitWrites .text j.ctx (o.outs ++ o.record)).mem
  jobs : d.txu.jobs = c.txu.jobs.filter (fun q => !(q.ctx = j.ctx && q.stage = j.stage))
  jobCount : d.txu.jobCount = c.txu.jobCount + 1
  byteCount : d.txu.byteCount = c.txu.byteCount + BitVec.ofNat 64 o.bytes
  replaced : d.txu.replaced = c.txu.replaced + BitVec.ofNat 64 o.replaced
  reported : ∃ y, d.ctx j.ctx = some y ∧ y.stageState j.stage = .reported

section
variable {c : Chip} {lane op : Nat} {j : TextJob} {x : Ctx} {o : TextOut} {body : Voc → Ctx → List Byte → Nat → Rd TextOut}

/-- A row of a lane carries its job on while the Request runs, its stage has the row's OP and the record is not out. -/
theorem Chip.textRow_of_op (hj : c.txu.jobs.find? (fun q => q.lane = some lane) = some j) (hx : c.ctx j.ctx = some x) (hrun : x.ended = none)
    (hop : fieldB (c.stageArgs x.area j.stage) 0 1 = op) (hknown : op = 1 ∨ op = 2) (hsent : j.sent = false) :
    c.textRow lane op false body =
      c.textCarry j ((body (c.txu.voc (fieldB x.desc 0x09 1)) x (c.stageArgs x.area j.stage) j.ctx).result (c.unitReader j.got)) := by
  have hlive : c.live j.ctx = some x := by simp [Chip.live, hx, hrun]
  have hdefined : ¬(op ≠ 1 ∧ op ≠ 2) := by omega
  simp [Chip.textRow, hj, hlive, hop, hdefined, hsent]

theorem Chip.textRow_done (hknown : op = 1 ∨ op = 2) (hj : c.txu.jobs.find? (fun q => q.lane = some lane) = some j) (hx : c.ctx j.ctx = some x)
    (hrun : x.ended = none) (hop : fieldB (c.stageArgs x.area j.stage) 0 1 = op) (hsent : j.sent = false)
    (hbody : (body (c.txu.voc (fieldB x.desc 0x09 1)) x (c.stageArgs x.area j.stage) j.ctx).value (c.unitReader j.got) = .ok o)
    (hnear : ∀ w ∈ o.outs ++ o.record, w.isRemote = false) (hquiet : c.unitQuiet .text j.ctx = true) :
    c.TextDone (c.textRow lane op false body) j o := by
  obtain ⟨reads, hresult⟩ := Rd.result_of_value hbody
  rw [Chip.textRow_of_op hj hx hrun hop hknown hsent, hresult, Chip.textCarry_of_near hnear hquiet]
  have htxu := ((c.textWritten j o reads).endTextJob_txu j).trans (by rw [Chip.textWritten_txu hnear])
  exact {
    mem := by rw [Chip.endTextJob_mem, Chip.textWritten_mem]
    jobs := by rw [htxu]
    jobCount := by rw [htxu]
    byteCount := by rw [htxu]; rfl
    replaced := by rw [htxu]; rfl
    reported := Chip.endTextJob_reported ((Chip.textWritten_ctx hnear reads j.ctx).trans hx) }

end

/-! What detokenisation releases and holds back (R366). -/

theorem endsWith_iff_suffix {l s : List Byte} : endsWith l s = true ↔ s <:+ l := by
  rw [endsWith, Bool.and_eq_true, decide_eq_true_iff, decide_eq_true_iff]
  exact ⟨fun h => List.suffix_iff_eq_drop.mpr h.2.symm, fun h => ⟨h.length_le, (List.suffix_iff_eq_drop.mp h).symm⟩⟩

theorem stopAt_suffix {stops : List (List Byte)} {l : List Byte} {k : Nat} (h : stopAt stops l = some k) : stops.getD k [] <:+ l := by
  obtain ⟨⟨s, i⟩, hfind, rfl⟩ := Option.map_eq_some_iff.mp h
  have hends := List.find?_some hfind
  have hat : stops[i]? = some s := List.mem_zipIdx_iff_getElem?.mp (List.mem_of_find?_eq_some hfind)
  rw [Bool.and_eq_true] at hends
  rw [List.getD_eq_getElem?_getD, hat]
  exact endsWith_iff_suffix.mp hends.2

/-- The string that ends at the place found is the one of the number found. -/
theorem findStop_suffix {stops : List (List Byte)} {l : List Byte} {p k : Nat} (h : findStop stops l = some (p, k)) :
    p < l.length ∧ stops.getD k [] <:+ l.take (p + 1) := by
  obtain ⟨q, hq, hstop⟩ := List.mem_filterMap.mp (List.mem_of_mem_head? h)
  obtain ⟨i, hi, hpair⟩ := Option.map_eq_some_iff.mp hstop
  obtain ⟨rfl, rfl⟩ := Prod.mk.inj hpair
  exact ⟨List.mem_range.mp hq, stopAt_suffix hi⟩

/-- What stands before a string that ends the first n bytes, followed by the string, begins the stream. -/
theorem take_append_isPrefix {l s : List Byte} {n : Nat} (hn : n ≤ l.length) (h : s <:+ l.take n) : l.take (n - s.length) ++ s <+: l := by
  have hcut := List.suffix_iff_eq_append.mp h
  rw [List.length_take_of_le hn, List.take_take, Nat.min_eq_left (Nat.sub_le n s.length)] at hcut
  rw [hcut]
  exact List.take_prefix n l

theorem heldStop_le (stops : List (List Byte)) (l : List Byte) : heldStop stops l ≤ 63 := by
  unfold heldStop
  generalize hfind : List.find? _ _ = found
  cases found with
  | none => exact Nat.zero_le 63
  | some n => exact Nat.le_of_lt_succ (List.mem_range.mp (List.mem_reverse.mp (List.mem_of_find?_eq_some hfind)))

theorem utf8Need_le (n : Nat) : utf8Need n ≤ 3 := by
  unfold utf8Need
  repeat' split
  all_goals decide

theorem heldUtf8_le (l : List Byte) : heldUtf8 l ≤ 3 := by
  unfold heldUtf8
  dsimp only
  split
  next b _ =>
    have := utf8Need_le b.toNat
    split
    · omega
    · exact Nat.zero_le 3
  next => exact Nat.zero_le 3

theorem heldBack_le (hold : Bool) (stops : List (List Byte)) (l : List Byte) :
    (if hold then Nat.max (heldStop stops l) (heldUtf8 l) else heldStop stops l) ≤ 63 := by
  have hstop := heldStop_le stops l
  split
  · exact Nat.max_le.mpr ⟨hstop, Nat.le_trans (heldUtf8_le l) (by decide)⟩
  · exact hstop

section
variable {hold : Bool} {held : List Byte} {stops strs : List (List Byte)}

/-- Without a stop string the stream is what is released and then what is held back. -/
theorem release366_of_no_stop (h : (release366 hold held stops strs).stop = none) :
    (release366 hold held stops strs).bytes ++ (release366 hold held stops strs).carry = held ++ strs.flatten ∧
    (release366 hold held stops strs).consumed = strs.length ∧ (release366 hold held stops strs).carry.length ≤ 63 := by
  unfold release366 at h ⊢
  dsimp only at h ⊢
  cases hfound : findStop stops (held ++ strs.flatten) with
  | some f => simp [hfound] at h
  | none =>
    refine ⟨List.take_append_drop _ _, rfl, ?_⟩
    have hheld := heldBack_le hold stops (held ++ strs.flatten)
    rw [List.length_drop]
    omega

/-- With a stop string the stream begins with what is released and then the string, and nothing is held back. -/
theorem release366_of_stop {k : Nat} (h : (release366 hold held stops strs).stop = some k) :
    (release366 hold held stops strs).bytes ++ stops.getD k [] <+: held ++ strs.flatten ∧ (release366 hold held stops strs).carry = [] := by
  unfold release366 at h ⊢
  dsimp only at h ⊢
  cases hfound : findStop stops (held ++ strs.flatten) with
  | none => simp [hfound] at h
  | some f =>
    obtain ⟨p, i⟩ := f
    obtain rfl : i = k := by simpa [hfound] using h
    obtain ⟨hp, hsuffix⟩ := findStop_suffix hfound
    exact ⟨take_append_isPrefix hp hsuffix, rfl⟩

end

/-- Settles O47: a vocabulary command is one update of its slot, a row of a lane performs its job's writes and ends the job, and the stream is cut
where a stop string ends it or where the bytes held back begin. -/
theorem textUnit : Obligations.TextUnit := by
  unfold Obligations.TextUnit
  intro s slot lane j x o c n v d0 done
  have hdone : ∀ (i : Instr) (op : Nat) (body : Voc → Ctx → List Byte → Nat → Rd TextOut), op = 1 ∨ op = 2 →
      exec i s = s.run (fun c => c.textRow lane.toNat op false body) → done i op body := by
    intro i op body hknown hexec hj hx hrun hop hsent hbody hnear hquiet
    have h := Chip.textRow_done hknown hj hx hrun hop hsent hbody hnear hquiet
    exact .of_run hexec ⟨h.mem, h.jobs, h.jobCount, h.byteCount, h.replaced, h.reported⟩
  refine ⟨fun hblackout hlock hstate => ⟨?_, ?_⟩, fun hlock => ⟨?_, ?_⟩, fun hstate => ?_, fun i hi hjob hfree hlow => ?_,
    hdone _ 1 _ (.inl rfl) rfl, hdone _ 2 _ (.inr rfl) rfl, fun hold held stops strs => ⟨?_, fun k => ?_⟩⟩
  · exact .of_run (f := fun c => c.vocLoad n) rfl (Chip.vocLoad_of_free hblackout hlock hstate)
  · refine .of_run (f := fun c => c.vocClear n) rfl ?_
    rw [Chip.vocClear_of_free hblackout hlock, Chip.voc_setVoc]
    exact ⟨rfl, rfl, rfl⟩
  · exact .of_run (f := fun c => c.vocLoad n) rfl (Chip.vocLoad_of_locked hlock)
  · exact .of_run (f := fun c => c.vocClear n) rfl (Chip.vocClear_of_locked hlock)
  · refine .of_run (f := fun c => c.vocLoaded n) rfl ⟨Chip.vocLoaded_mem c n, fun hformat => ?_, fun hformat => ?_⟩
    · rw [Chip.vocLoaded_of_format hstate hformat, Chip.voc_setVoc]
      exact ⟨rfl, rfl, rfl⟩
    · rw [Chip.vocLoaded_of_bad_format hstate hformat, Chip.voc_setVoc]
  · exact .of_run rfl (Chip.textStart_of_lane hjob hi hfree hlow)
  · exact release366_of_no_stop
  · exact release366_of_stop

end Sys2Proof.Machine
end

section
/-! Video jobs, their decode units and samples (R376, R377, R378, R380, R382, R387, R388). -/

namespace Sys2Proof.Machine

/-! A request for Run, and what wakes a lane or an engine (R513), reach the power state alone. -/

theorem Chip.powerReq_run_rest (c : Chip) (d : Nat) : { c.powerReq d .run with pwr := c.pwr } = c := by
  have hrun : PwrTarget.run.on d = .run := rfl
  unfold Chip.powerReq
  rw [hrun]
  dsimp only
  split
  · rfl
  · split
    next hoff => exact nomatch hoff.1
    next => split <;> rfl

theorem Chip.unitWake_rest (c : Chip) (base n : Nat) : { c.unitWake base n with pwr := c.pwr } = c := by
  unfold Chip.unitWake
  dsimp only
  split
  · rfl
  · split
    · rfl
    · exact c.powerReq_run_rest _

@[simp] theorem Chip.unitWake_vid (c : Chip) (base n : Nat) : (c.unitWake base n).vid = c.vid := (congrArg Chip.vid (c.unitWake_rest base n) :)

@[simp] theorem Chip.unitsWake_vid (c : Chip) : c.unitsWake.vid = c.vid := by simp [Chip.unitsWake, apply_ite Chip.vid]

/-! What a unit's reads and writes leave as it is. -/

theorem Chip.AccessedTo.vid {c d : Chip} (h : c.AccessedTo d) : d.vid = c.vid := (congrArg Chip.vid h :)

theorem Chip.AccessedTo.hq {c d : Chip} (h : c.AccessedTo d) (fc q : Nat) : d.hq fc q = c.hq fc q := (congrArg (Chip.hq · fc q) h :)

@[simp] theorem Chip.setStage_vid (c : Chip) (ctx stage : Nat) (st : StageState) : (c.setStage ctx stage st).vid = c.vid := by
  unfold Chip.setStage
  split <;> rfl

@[simp] theorem Chip.hqAdd_vid (c : Chip) (fc q : Nat) (v : Word) (ctx : Option Nat) : (c.hqAdd fc q v ctx).vid = c.vid := by
  simp [Chip.hqAdd, Chip.setHq, apply_ite Chip.vid]

@[simp] theorem Chip.setVidJob_hq (c : Chip) (j : VidJob) (fc q : Nat) : (c.setVidJob j).hq fc q = c.hq fc q := rfl

@[simp] theorem Chip.setUnit_hq (c : Chip) (u : DecUnit) (fc q : Nat) : (c.setUnit u).hq fc q = c.hq fc q := rfl

/-! The block of a stage lies in the Recipe Store (R58). -/

theorem Chip.bytes_congr {c d : Chip} {o : Nat} (h : ∀ a, o ≤ a → Mem.read c.mem a = Mem.read d.mem a) (n : Nat) : c.bytes o n = d.bytes o n := by
  induction n generalizing o with
  | zero => rfl
  | succ n ih => rw [Chip.bytes, Chip.bytes, h o (Nat.le_refl o), ih fun a ha => h a (Nat.le_of_succ_le ha)]

/-- A stage's block is read from the Recipe Store and above. -/
theorem Chip.stageArgs_congr {c d : Chip} (h : ∀ a, storeBase ≤ a → Mem.read c.mem a = Mem.read d.mem a) (area s : Nat) :
    c.stageArgs area s = d.stageArgs area s := by
  have hbytes : ∀ o n, c.bytes (areaBase area + o) n = d.bytes (areaBase area + o) n := fun o n =>
    Chip.bytes_congr (fun a ha => h a (by unfold areaBase at ha; omega)) n
  have hat : c.stageAt area s = d.stageAt area s := by simp only [Chip.stageAt, Chip.img, hbytes]
  rw [Chip.stageArgs, Chip.stageArgs, hat, Nat.add_assoc]
  exact hbytes _ 64

theorem Chip.stageArgs_of_mem_eq {c d : Chip} (h : c.mem = d.mem) (area s : Nat) : c.stageArgs area s = d.stageArgs area s :=
  Chip.stageArgs_congr (fun a _ => by rw [h]) area s

/-! Jobs, and what ends a Request. -/

theorem Chip.live_of_ctx {c : Chip} {k : Nat} {x : Ctx} (hx : c.ctx k = some x) (hrun : x.ended = none) : c.live k = some x := by
  simp [Chip.live, hx, hrun]

theorem Chip.vidJob_of_jobs_eq {c d : Chip} (h : d.vid.jobs = c.vid.jobs) (k st : Nat) : d.vidJob k st = c.vidJob k st := by
  rw [Chip.vidJob, Chip.vidJob, h]

theorem Chip.vidJob_setVidJob {c : Chip} {j q : VidJob} {k st : Nat} (hctx : j.ctx = k) (hst : j.stage = st) (h : c.vidJob k st = some q) :
    (c.setVidJob j).vidJob k st = some j := by
  subst hctx hst
  have hmatch := List.find?_some h
  rw [Bool.and_eq_true, decide_eq_true_iff, decide_eq_true_iff] at hmatch
  have hsame : ((fun i : VidJob => i.ctx = j.ctx && i.stage = j.stage) ∘ fun i => if i.ctx = j.ctx ∧ i.stage = j.stage then j else i) =
      fun i => i.ctx = j.ctx && i.stage = j.stage := by
    funext i
    by_cases hi : i.ctx = j.ctx ∧ i.stage = j.stage
    · simp [hi]
    · simp [hi]
  unfold Chip.vidJob Chip.setVidJob
  rw [List.find?_map, hsame]
  refine (congrArg (Option.map _) h).trans ?_
  rw [Option.map_some, if_pos hmatch]

section
variable {c : Chip} {j : VidJob} {x : Ctx}

theorem Chip.vidError_ctx {k : Nat} (hx : c.ctx k = some x) (hrun : x.ended = none) (hdel : x.delivering = false) (status code : Nat) :
    (c.vidError k status code).ctx k = some { x with ended := some (BitVec.ofNat 8 status, detailOf 0x42 code) } :=
  Chip.endReq_ctx_same hx hrun hdel status _

/-! Headers (R376). -/

section
variable {codec : Nat} {input : List Byte}

theorem Chip.vidParsed_of_no_unit (h : (cutUnits codec (Config.videoParse codec input)).2 = []) :
    c.vidParsed j codec input = c.vidError j.ctx 0x21 0x05 := by
  simp [Chip.vidParsed, h]

/-- A job whose bitstream is cut into units. -/
def VidJob.cut (j : VidJob) (codec : Nat) (input : List Byte) : VidJob :=
  let p := cutUnits codec (Config.videoParse codec input)
  { j with parsed := true, input := input, frames := (p.2.map VidUnit.frames).sum, units := p.2.length, skipped := p.1, got := [], asked := [] }

theorem Chip.vidParsed_of_units (h : (cutUnits codec (Config.videoParse codec input)).2 ≠ []) :
    (c.vidParsed j codec input).vid = { (c.setVidJob (j.cut codec input)).vid with
      units := c.vid.units ++ numberUnits j.ctx j.stage 0 0 (cutUnits codec (Config.videoParse codec input)).2 } := by
  have hsome : (cutUnits codec (Config.videoParse codec input)).2.isEmpty = false := List.isEmpty_eq_false_iff.mpr h
  simp only [Chip.vidParsed, hsome, Bool.false_eq_true, if_false, Chip.unitsWake_vid]
  rfl

theorem Chip.vidParsed_vidJob {q : VidJob} {k st : Nat} (hctx : j.ctx = k) (hst : j.stage = st) (hj : c.vidJob k st = some q)
    (h : (cutUnits codec (Config.videoParse codec input)).2 ≠ []) : (c.vidParsed j codec input).vidJob k st = some (j.cut codec input) := by
  have hjobs : (c.vidParsed j codec input).vid.jobs = (c.setVidJob (j.cut codec input)).vid.jobs := by rw [Chip.vidParsed_of_units h]
  rw [Chip.vidJob_of_jobs_eq hjobs]
  exact Chip.vidJob_setVidJob hctx hst hj

theorem Chip.decodeShape_of_input {k st : Nat} (hj : c.vidJob k st = some j) (hlive : c.live k = some x) (hparsed : j.parsed = false)
    (hop : fieldB (c.stageArgs x.area st) 0 1 = 1) (hcodec : fieldB (c.stageArgs x.area st) 1 1 ≤ 2)
    (hinput : (vidInput x (c.stageArgs x.area st) k).value (c.unitReader j.got) = .ok input) :
    ∃ reads, c.decodeShape k st false = (c.unitReads .video reads).vidParsed j (fieldB (c.stageArgs x.area st) 1 1) input := by
  obtain ⟨reads, hresult⟩ := Rd.result_of_value hinput
  refine ⟨reads, ?_⟩
  simp [Chip.decodeShape, hj, hlive, hparsed, hop, Nat.not_lt.mpr hcodec, hresult]

end

/-! The result record (R388). -/

theorem Chip.vidReport_of_quiet (hquiet : c.unitQuiet .video j.ctx = true) :
    c.vidReport j = ({ c with vid := { c.vid with jobs := c.vid.jobs.filter (fun q => !(q.ctx = j.ctx && q.stage = j.stage)) } }).setStage
      j.ctx j.stage .reported := if_pos hquiet

theorem Chip.vidReport_vidJob (hquiet : c.unitQuiet .video j.ctx = true) : (c.vidReport j).vidJob j.ctx j.stage = none := by
  rw [Chip.vidReport_of_quiet hquiet, Chip.vidJob, Chip.setStage_vid]
  refine List.find?_eq_none.mpr fun q hq hmatch => ?_
  simpa [hmatch] using (List.mem_filter.mp hq).2

theorem Chip.vidReport_reported (hx : c.ctx j.ctx = some x) (hquiet : c.unitQuiet .video j.ctx = true) :
    ∃ y, (c.vidReport j).ctx j.ctx = some y ∧ y.stageState j.stage = .reported := by
  rw [Chip.vidReport_of_quiet hquiet]
  exact Chip.stageState_setStage (by exact hx) j.stage .reported

section
variable {k st : Nat} {ws : List Wr} (hj : c.vidJob k st = some j) (hlive : c.live k = some x) (hctx : j.ctx = k)
  (hst : j.stage = st) (hparsed : j.parsed = true) (hended : j.units ≤ j.ended) (hsent : j.sent = false)
  (hrecord : (wrBytes vdWrite (effAddr (w64 (fieldB (c.stageArgs x.area st) 0x20 8)) (w64 (64 * k)))
    (vidRecord j (vjViews (c.stageArgs x.area st)))).value (c.unitReader j.got) = .ok ws)
include hj hlive hctx hst hparsed hended hsent hrecord

theorem Chip.decodeShape_of_ended :
    c.decodeShape k st false = ((c.unitWrites .video k ws).setVidJob { j with sent := true }).vidReport { j with sent := true } := by
  subst hctx hst
  simp [Chip.decodeShape, hj, hlive, hparsed, Chip.vidFinish, Nat.not_lt.mpr hended, hsent, hrecord]

/-- A record that goes to no other package is written at once, and the stage reports. -/
theorem Chip.decodeShape_reports (hx : c.ctx k = some x) (hnear : ∀ w ∈ ws, w.isRemote = false) (hquiet : c.unitQuiet .video k = true) :
    (c.decodeShape k st false).mem = (c.unitWrites .video k ws).mem ∧ (c.decodeShape k st false).vidJob k st = none ∧
      ∃ y, (c.decodeShape k st false).ctx k = some y ∧ y.stageState st = .reported := by
  rw [Chip.decodeShape_of_ended hj hlive hctx hst hparsed hended hsent hrecord]
  subst hctx hst
  have hwritten := Chip.AccessedTo.unitWrites c .video j.ctx hnear
  have hdone : ((c.unitWrites .video j.ctx ws).setVidJob { j with sent := true }).unitQuiet .video j.ctx = true :=
    (hwritten.unitQuiet .video j.ctx).trans hquiet
  exact ⟨by rw [Chip.vidReport_mem, Chip.setVidJob_mem], Chip.vidReport_vidJob (j := { j with sent := true }) hdone,
    Chip.vidReport_reported (j := { j with sent := true }) ((hwritten.ctx j.ctx).trans hx) hdone⟩

end

/-! Units (R377, R378). -/

theorem Chip.settleUnit_of_pending {u : DecUnit}
    (h : u.shaped < u.frameCount (vjCap (c.stageArgs x.area j.stage)) * vjViews (c.stageArgs x.area j.stage)) : c.settleUnit x j u = c := if_pos h

/-- Reference pictures lie below the Recipe Store. -/
theorem Chip.keepPictures_read_of_store (hm : Mem.wf c.mem = true) (n : Nat) (v : VidUnit) {a : Nat} (ha : storeBase ≤ a) :
    Mem.read (c.keepPictures n v).mem a = Mem.read c.mem a := by
  refine Chip.put_read_other hm _ fun p hp => ?_
  have hbelow := (List.mem_filter.mp hp).2
  rw [Bool.and_eq_true, decide_eq_true_iff] at hbelow
  omega

section
variable {k st e n : Nat} {u : DecUnit} (hj : c.vidJob k st = some j) (hlive : c.live k = some x)
  (hu : c.vid.units.find? (fun q => q.hold.isNone && (c.live q.ctx).isSome) = some u) (hctx : u.ctx = k) (hst : u.stage = st)
  (he : e < 32) (hengine : c.engineFree e = true) (helow : ∀ i, i < e → c.engineFree i = false)
  (hn : n < c.vidContexts) (hstream : c.streamFree n = true) (hnlow : ∀ i, i < n → c.streamFree i = false)
include hj hlive hu hctx hst he hengine helow hn hstream hnlow

theorem Chip.unitStart_of_free : c.unitStart =
    if c.dpbSize < dpbNeed u.info then c.vidError k 0x21 0x03
    else ((c.setUnit { u with hold := some (n, e) }).keepPictures n u.info).settleUnit x j { u with hold := some (n, e) } := by
  subst hctx hst
  have hfirstEngine : (List.range 32).find? (fun i => c.engineFree i) = some e :=
    List.find?_range_eq_some.mpr ⟨hengine, List.mem_range.mpr he, fun i hi => by simp [helow i hi]⟩
  have hfirstStream : (List.range c.vidContexts).find? (fun i => c.streamFree i) = some n :=
    List.find?_range_eq_some.mpr ⟨hstream, List.mem_range.mpr hn, fun i hi => by simp [hnlow i hi]⟩
  simp only [Chip.unitStart, hu, hfirstEngine, hfirstStream, hlive, hj]

theorem Chip.unitStart_of_overflow (hover : c.dpbSize < dpbNeed u.info) : c.unitStart = c.vidError k 0x21 0x03 :=
  (Chip.unitStart_of_free hj hlive hu hctx hst he hengine helow hn hstream hnlow).trans (if_pos hover)

theorem Chip.unitStart_of_room (hjst : j.stage = st) (hm : Mem.wf c.mem = true) (hroom : dpbNeed u.info ≤ c.dpbSize)
    (hleft : u.shaped < u.frameCount (vjCap (c.stageArgs x.area st)) * vjViews (c.stageArgs x.area st)) :
    c.unitStart = (c.setUnit { u with hold := some (n, e) }).keepPictures n u.info := by
  have hargs : ((c.setUnit { u with hold := some (n, e) }).keepPictures n u.info).stageArgs x.area j.stage = c.stageArgs x.area st :=
    hjst ▸ Chip.stageArgs_congr (fun _ ha => Chip.keepPictures_read_of_store (by exact hm) n u.info ha) x.area j.stage
  rw [Chip.unitStart_of_free hj hlive hu hctx hst he hengine helow hn hstream hnlow, if_neg (Nat.not_lt.mpr hroom)]
  exact Chip.settleUnit_of_pending (by rw [hargs]; exact hleft)

end

/-! Samples (R382, R387). -/

/-- The package after a sample is handed on and noted, its unit not yet at its end. -/
def Chip.sampleNoted (c : Chip) (j : VidJob) (d : List Byte) (u : DecUnit) (i : Nat) : Chip :=
  let hq := fieldB d 0x3C 1
  let c1 := if vjFlag d 2 then c.hqAdd (hq / 128 * 32) (64 + hq % 64) (w64 (i % 65536)) (some j.ctx) else c
  (c1.setVidJob { j with written := j.written ++ [i], sending := SMap.erase j.sending i }).setUnit { u with shaped := u.shaped + 1 }

section
variable {d : List Byte} {u : DecUnit} {i : Nat}

theorem Chip.sampleNoted_mem : (c.sampleNoted j d u i).mem = c.mem := by
  simp [Chip.sampleNoted, apply_ite Chip.mem]

theorem Chip.sampleNoted_vid : (c.sampleNoted j d u i).vid =
    ((c.setVidJob { j with written := j.written ++ [i], sending := SMap.erase j.sending i }).setUnit { u with shaped := u.shaped + 1 }).vid := by
  simp [Chip.sampleNoted, Chip.setUnit, Chip.setVidJob, apply_ite Chip.vid]

theorem Chip.sampleNoted_units : (c.sampleNoted j d u i).vid.units =
    c.vid.units.map (fun q => if q.ctx = u.ctx ∧ q.stage = u.stage ∧ q.index = u.index then { u with shaped := u.shaped + 1 } else q) := by
  rw [Chip.sampleNoted_vid]
  rfl

theorem Chip.sampleNoted_vidJob {q : VidJob} {k st : Nat} (hctx : j.ctx = k) (hst : j.stage = st) (hj : c.vidJob k st = some q) :
    (c.sampleNoted j d u i).vidJob k st = some { j with written := j.written ++ [i], sending := SMap.erase j.sending i } := by
  have hjobs : (c.sampleNoted j d u i).vid.jobs =
      (c.setVidJob { j with written := j.written ++ [i], sending := SMap.erase j.sending i }).vid.jobs := by rw [Chip.sampleNoted_vid]; rfl
  rw [Chip.vidJob_of_jobs_eq hjobs]
  exact Chip.vidJob_setVidJob hctx hst hj

theorem Chip.sampleNoted_hq (hflag : vjFlag d 2 = true) :
    (c.sampleNoted j d u i).hq (fieldB d 0x3C 1 / 128 * 32) (64 + fieldB d 0x3C 1 % 64) =
      c.hq (fieldB d 0x3C 1 / 128 * 32) (64 + fieldB d 0x3C 1 % 64) ++ [{ val := w64 (i % 65536), ctx := some j.ctx }] := by
  have hval : w64 (bits (w64 (i % 65536)) 62 0) = w64 (i % 65536) := by
    have hsmall : i % 65536 < 65536 := Nat.mod_lt _ (by decide)
    simp only [bits, w64, BitVec.toNat_ofNat, Nat.shiftRight_zero]
    congr 1
    omega
  have hput := c.hq_hqAdd (fieldB d 0x3C 1 / 128 * 32) (64 + fieldB d 0x3C 1 % 64) (w64 (i % 65536)) (some j.ctx)
  rw [hval] at hput
  unfold Chip.sampleNoted
  dsimp only
  rw [if_pos hflag, Chip.setUnit_hq, Chip.setVidJob_hq, hput]

theorem Chip.emerged_of_pending (hargs : c.stageArgs x.area j.stage = d) (hleft : u.shaped + 1 < u.frameCount (vjCap d) * vjViews d) :
    c.emerged x j d u i = c.sampleNoted j d u i :=
  Chip.settleUnit_of_pending (c := c.sampleNoted j d u i) (by
    rw [Chip.stageArgs_of_mem_eq Chip.sampleNoted_mem, hargs]
    exact hleft)

end

section
variable {k st i : Nat} {u : DecUnit} (hj : c.vidJob k st = some j) (hlive : c.live k = some x)
  (hu : c.vid.units.find? (fun q => q.ctx = k && q.stage = st && q.hold.isSome && q.first ≤ i / vjViews (c.stageArgs x.area st) &&
    i / vjViews (c.stageArgs x.area st) < q.first + q.frameCount (vjCap (c.stageArgs x.area st))) = some u) (hnew : i ∉ j.written)
include hj hlive hu hnew

theorem Chip.sampleEmerge_of_ecc : c.sampleEmerge k st i true = c.vidError k 0x11 0x40 := by
  simp [Chip.sampleEmerge, hj, hlive, hu, hnew]

/-- A sample whose writes go to no other package, and which is not its unit's last, is written and noted at once. -/
theorem Chip.sampleEmerge_of_writes {ws : List Wr}
    (hwrites : (sampleWrites x j (c.stageArgs x.area st) (w64 (c.img x.area 0x08 8)) u i).value (c.unitReader j.got) = .ok ws)
    (hnear : ∀ w ∈ ws, w.isRemote = false) (hlanded : c.unitLanded .video k ws = true)
    (hst : j.stage = st) (hargs : (c.unitWrites .video k ws).stageArgs x.area st = c.stageArgs x.area st)
    (hleft : u.shaped + 1 < u.frameCount (vjCap (c.stageArgs x.area st)) * vjViews (c.stageArgs x.area st))
    (hroom : vjFlag (c.stageArgs x.area st) 2 = true →
      c.hqRoom (fieldB (c.stageArgs x.area st) 0x3C 1 / 128 * 32) (64 + fieldB (c.stageArgs x.area st) 0x3C 1 % 64) = true) :
    ∃ d, c.AccessedTo d ∧ d.mem = (c.unitWrites .video k ws).mem ∧
      c.sampleEmerge k st i false = d.sampleNoted j (c.stageArgs x.area st) u i := by
  obtain ⟨reads, hresult⟩ := Rd.result_of_value hwrites
  have hfar : farWrites ws = [] := List.filter_eq_nil_iff.mpr fun w hw => by simp [hnear w hw]
  have hall : ws.filter (fun w => !w.isRemote) = ws := List.filter_eq_self.mpr fun w hw => by simp [hnear w hw]
  have hput : (vjFlag (c.stageArgs x.area st) 2 && !c.hqRoom (fieldB (c.stageArgs x.area st) 0x3C 1 / 128 * 32)
      (64 + fieldB (c.stageArgs x.area st) 0x3C 1 % 64)) = false := by
    cases hflag : vjFlag (c.stageArgs x.area st) 2 with
    | false => rfl
    | true => simp [hroom hflag]
  have hmem : ((c.unitReads .video reads).unitWrites .video k ws).mem = (c.unitWrites .video k ws).mem :=
    Chip.unitWrites_mem_congr (c.unitReads_mem .video reads) .video k ws
  have hblock : ((c.unitReads .video reads).unitWrites .video k ws).stageArgs x.area j.stage = c.stageArgs x.area st := by
    rw [hst, Chip.stageArgs_of_mem_eq hmem, hargs]
  refine ⟨_, Chip.AccessedTo.unitReads_unitWrites c .video k reads hnear, hmem, ?_⟩
  rw [← Chip.emerged_of_pending hblock hleft]
  simp [Chip.sampleEmerge, hj, hlive, hu, hnew, hresult, Chip.unitSend_of_near hfar, hfar, hall, hlanded, hput]

end

end

/-- Settles O48: each row is one update of its job and of that job's units, and a unit that is not at its end leaves the job to run on. The
clause on an uncorrectable error stands under the premises of the clause on the sample's writes; `Chip.sampleEmerge_of_ecc` does without them. -/
theorem videoIntake : Obligations.VideoIntake := by
  unfold Obligations.VideoIntake
  intro s ctx stage sample j x u ws input c k st d0 parse views f hq samples ended hj hx hrun hdel hctx hst
  have hlive : c.live k = some x := Chip.live_of_ctx hx hrun
  refine ⟨fun hparsed hop hcodec hinput => ?_, fun hparsed hended hsent hrecord hnear hquiet => ?_,
    fun e n he hu huctx hust hengine helow hn hstream hnlow => ?_,
    fun hu hnew hwrites hnear hlanded hleft hargs hroom => ⟨?_, fun _ => ?_⟩⟩
  · obtain ⟨reads, hrow⟩ := Chip.decodeShape_of_input hj hlive hparsed hop hcodec hinput
    have hread := Chip.AccessedTo.unitReads c .video reads
    refine ⟨fun hunits => .of_run (f := fun c => c.decodeShape k st false) rfl ?_,
      fun hnone => .of_run (f := fun c => c.decodeShape k st false) rfl ?_⟩
    · have hjob := (Chip.vidJob_of_jobs_eq (congrArg Vid.jobs hread.vid) k st).trans hj
      have hvid := Chip.vidParsed_of_units (c := c.unitReads .video reads) (j := j) hunits
      rw [hctx, hst, hread.vid] at hvid
      rw [hrow]
      exact ⟨Chip.vidParsed_vidJob hctx hst hjob hunits, congrArg Vid.units hvid, by rw [Chip.vidParsed_mem, Chip.unitReads_mem]⟩
    · rw [hrow, Chip.vidParsed_of_no_unit hnone, hctx]
      exact ⟨Chip.vidError_ctx ((hread.ctx k).trans hx) hrun hdel 0x21 5, by rw [Chip.vidError_mem, Chip.unitReads_mem]⟩
  · exact .of_run (f := fun c => c.decodeShape k st false) rfl
      (Chip.decodeShape_reports hj hlive hctx hst hparsed hended hsent hrecord hx hnear hquiet)
  · refine ⟨fun hm hroom hleft => .of_run (f := Chip.unitStart) rfl ?_, fun hover => .of_run (f := Chip.unitStart) rfl ?_⟩
    · rw [Chip.unitStart_of_room hj hlive hu huctx hust he hengine helow hn hstream hnlow hst hm hroom hleft, ← huctx, ← hust]
      exact ⟨rfl, rfl⟩
    · rw [Chip.unitStart_of_overflow hj hlive hu huctx hust he hengine helow hn hstream hnlow hover]
      exact ⟨Chip.vidError_ctx hx hrun hdel 0x21 3, Chip.vidError_mem c k 0x21 3⟩
  · refine .of_run (f := fun c => c.sampleEmerge k st sample false) rfl ?_
    obtain ⟨d, hd, hmem, hrow⟩ := Chip.sampleEmerge_of_writes hj hlive hu hnew hwrites hnear hlanded hst hargs hleft hroom
    have hjob := (Chip.vidJob_of_jobs_eq (congrArg Vid.jobs hd.vid) k st).trans hj
    obtain ⟨huctx, hust⟩ : u.ctx = k ∧ u.stage = st := by
      have hmatch := List.find?_some hu
      simp only [Bool.and_eq_true, decide_eq_true_iff] at hmatch
      exact hmatch.1.1.1
    rw [hrow]
    refine ⟨Chip.sampleNoted_mem.trans hmem, Chip.sampleNoted_vidJob hctx hst hjob, ?_, fun hflag => ?_⟩
    · rw [Chip.sampleNoted_units, hd.vid, huctx, hust]
    · rw [Chip.sampleNoted_hq hflag, hd.hq, hctx]
      rfl
  · refine .of_run (f := fun c => c.sampleEmerge k st sample true) rfl ?_
    rw [Chip.sampleEmerge_of_ecc hj hlive hu hnew]
    exact ⟨Chip.vidError_mem c k 0x11 0x40, Chip.vidError_ctx hx hrun hdel 0x11 0x40⟩

end Sys2Proof.Machine
end

section
/-! SUPPORT. Routes without links, the tie between a step and a command, and the commands that a state answers (R468, R557; logs 2 and 4). -/

namespace Sys2Proof.Machine

/-! Every row of the table changes the package alone. -/

/-- Every row of the table is one change of the package, made when its operands name units that the package has (log 4). -/
theorem exists_exec_eq_runIf (i : Instr) (s : State) : ∃ f, exec i s = s.runIf i.wf f := by
  cases i <;> exact ⟨_, rfl⟩

/-- Settles O1: both sides are the command at the front on the state with the rest of the queue. -/
theorem stepRunsFrontCommand : Obligations.StepRunsFrontCommand := by
  unfold Obligations.StepRunsFrontCommand
  intro s i rest hpending
  rw [step, hpending]
  rfl

/-- Settles O3: a row leaves the queue, and it faults only where its operands name no unit of the package. -/
theorem wellFormedCommandsComplete : Obligations.WellFormedCommandsComplete := by
  unfold Obligations.WellFormedCommandsComplete
  refine ⟨fun s t i hnext => ?_, fun s i => ?_⟩ <;> obtain ⟨f, hf⟩ := exists_exec_eq_runIf i s
  · cases hwf : i.wf with
    | true =>
      rw [hf, hwf] at hnext
      rw [← Host.Outcome.next.inj hnext]
    | false =>
      rw [hf, hwf] at hnext
      exact nomatch (show Host.Outcome.fault Fault.noSuchUnit = Host.Outcome.next t from hnext)
  · refine ⟨fun hwf => ⟨{ s with chip := f s.chip }, ?_⟩, fun hwf => ?_⟩ <;> rw [hf, hwf] <;> rfl

/-! Routes on an empty link set (R464, R468). -/

/-- An arc of one hop or more is free on no link. -/
theorem Chip.walkArc_of_no_links {c : Chip} (hlinks : c.net.links = []) (d dir p : Nat) {n : Nat} (hn : n ≠ 0) :
    c.walkArc d dir n p = none := by
  cases n with
  | zero => exact absurd rfl hn
  | succ n => simp [Chip.walkArc, Chip.setLinks, hlinks]

/-- The hops from one coordinate of a ring to another are not 0. -/
theorem ring_distance_ne_zero {n a b : Nat} (ha : a < n) (hb : b < n) (hab : a ≠ b) : (b + n - a) % n ≠ 0 := by
  rcases Nat.lt_or_ge b a with h | h
  · rw [Nat.mod_eq_of_lt (by omega)]
    omega
  · rw [show b + n - a = (b - a) + n by omega, Nat.add_mod_right, Nat.mod_eq_of_lt (by omega)]
    omega

/-- A leg between equal coordinates takes no hop. -/
theorem Chip.leg_of_eq {c : Chip} {d k p : Nat} (h : (c.dimOf k p).2 = (c.dimOf k d).2) : c.leg d k p = some (none, 0, p) := by
  simp [Chip.leg, h]

/-- A leg between different coordinates needs links. -/
theorem Chip.leg_of_no_links {c : Chip} (hlinks : c.net.links = []) {d k p : Nat} (hp : (c.dimOf k p).2 < (c.dimOf k p).1)
    (hd : (c.dimOf k d).2 < (c.dimOf k p).1) (h : (c.dimOf k p).2 ≠ (c.dimOf k d).2) : c.leg d k p = none := by
  simp only [Chip.leg, if_neg h, c.walkArc_of_no_links hlinks d _ p (ring_distance_ne_zero hp hd h),
    c.walkArc_of_no_links hlinks d _ p (ring_distance_ne_zero hd hp (Ne.symm h))]

/-- The coordinates of a package of the installation lie in their dimensions (R462). -/
theorem Chip.dimOf_lt {c : Chip} {p : Nat} (hp : c.inGeom p = true) (k q : Nat) : (c.dimOf k p).2 < (c.dimOf k q).1 := by
  simp only [Chip.inGeom, Bool.and_eq_true, decide_eq_true_eq] at hp
  obtain ⟨⟨hx, hy⟩, hz⟩ := hp
  unfold Chip.dimOf
  split
  · exact hx
  · split
    · exact hy
    · exact hz

/-- No direct route leads from one package to another on an empty link set. -/
theorem Chip.direct_of_no_links {c : Chip} (hlinks : c.net.links = []) {p d : Nat} (hp : c.inGeom p = true) (hd : c.inGeom d = true)
    (h : d ≠ p) : c.direct p d = none := by
  have hleg : ∀ k, (c.dimOf k p).2 ≠ (c.dimOf k d).2 → c.leg d k p = none := fun k =>
    c.leg_of_no_links hlinks (c.dimOf_lt hp k p) (c.dimOf_lt hd k p)
  by_cases hx : (c.dimOf 0 p).2 = (c.dimOf 0 d).2
  · by_cases hy : (c.dimOf 1 p).2 = (c.dimOf 1 d).2
    · by_cases hz : (c.dimOf 2 p).2 = (c.dimOf 2 d).2
      · simp only [Chip.dimOf, pkgX, pkgY, pkgZ] at hx hy hz
        norm_num at hx hy hz
        omega
      · simp [Chip.direct, c.leg_of_eq hx, c.leg_of_eq hy, hleg 2 hz]
    · simp [Chip.direct, c.leg_of_eq hx, hleg 1 hy]
  · simp [Chip.direct, hleg 0 hx]

/-- Without links and live packages a package has a route to itself alone (R468). -/
theorem Chip.route_of_no_links {c : Chip} (hlinks : c.net.links = []) (hlive : c.net.live = []) (hself : c.inGeom c.self = true) (d : Nat) :
    c.route d = if d = c.self then ⟨6, none⟩ else ⟨7, none⟩ := by
  unfold Chip.route
  by_cases hd : d = c.self
  · rw [if_pos hd, if_pos hd]
  · rw [if_neg hd, if_neg hd]
    cases hin : c.inGeom d with
    | false => rfl
    | true => simp [c.direct_of_no_links hlinks hself hin hd, Chip.waypoint, hlive]

/-- Settles O57: an empty link set and no live package leave a route to the package itself alone, and the registers read their reset values. -/
theorem networkAfterReset : Obligations.NetworkAfterReset := by
  unfold Obligations.NetworkAfterReset
  intro geom c hself
  refine ⟨?_, ?_, fun d hd => ?_, fun d => c.route_of_no_links rfl rfl hself d, ?_⟩
  · simp [readNet, c, Net.reset, NetPhase.code, w64]
  · simp only [readNet]
    rw [foldl_eq_self fun n _ => by simp [c, Net.reset, bitAt]]
    rfl
  · simp [Chip.isLost, hd, show c.net.live = [] from rfl]
  · exact show bit 0x00004E2000000009 0 = true by decide

end Sys2Proof.Machine
end

section
/-! SUPPORT. Intake Windows, the MSI-X table, and what a port loses when it is cut off (R403 to R408, R414, R416, R420). -/

namespace Sys2Proof.Machine

/-! Ports and windows beside the one that changes. -/

theorem Chip.window_setWindow_other (c : Chip) (n : Nat) {v w : Nat} (x : Window) (h : v ≠ w) :
    (c.setWindow n w x).window n v = c.window n v := by
  simp [Chip.setWindow, Chip.window, Port.window, SMap.get_set_other _ _ _ h]

theorem Chip.port_setWindow_other (c : Chip) {n m : Nat} (w : Nat) (x : Window) (h : m ≠ n) : (c.setWindow n w x).port m = c.port m :=
  c.port_setPort_other _ h

theorem Chip.msix_port_other (c : Chip) {n m : Nat} (v : Nat) (h : m ≠ n) : (c.msix n v).port m = c.port m := by
  unfold Chip.msix
  dsimp only
  split
  · exact c.port_setPort_other _ h
  · split <;> rfl

/-- PORT_ERR is noted at its port alone. -/
theorem Chip.portErr_port_other (c : Chip) {n m : Nat} (i : Nat) (h : m ≠ n) : (c.portErr n i).port m = c.port m := by
  unfold Chip.portErr Chip.signalVec
  dsimp only
  split
  · rfl
  · split
    · exact (Chip.msix_port_other _ _ h).trans (c.port_setPort_other _ h)
    · exact c.port_setPort_other _ h

/-- Noting an error leaves the windows as they are. -/
@[simp] theorem Chip.portErr_window (c : Chip) (n i w : Nat) : (c.portErr n i).window n w = c.window n w := by
  unfold Chip.portErr
  dsimp only
  split
  · rfl
  · obtain ⟨pba, hp⟩ := (c.setPort n { c.port n with err := (c.port n).err ||| BitVec.ofNat 6 (2 ^ i) }).signalVec_port n (c.port n).errVec n
    rw [Chip.window, hp, Chip.port_setPort]
    rfl

/-! Intake (R403, R406). -/

/-- The descriptors that bytes make: each complete 64 of them, and the rest. -/
theorem cutDescs_eq (tide : Word) {n : Nat} {b : List Byte} (h : b.length / 64 ≤ n) :
    cutDescs tide n b = ((List.range (b.length / 64)).map (fun i => { bytes := (b.drop (64 * i)).take 64, arrival := tide }),
      b.drop (64 * (b.length / 64))) := by
  induction n generalizing b with
  | zero => simp [cutDescs, Nat.le_zero.mp h]
  | succ n ih =>
    unfold cutDescs
    split
    · next hshort => simp [Nat.div_eq_of_lt hshort]
    · next hlong =>
      have hcount : b.length / 64 = (b.drop 64).length / 64 + 1 := by rw [List.length_drop]; omega
      rw [ih (by omega), hcount, List.range_succ_eq_map]
      simp [List.drop_drop, Function.comp_def, Nat.mul_add, Nat.add_comm]

/-- A write of full bytes for which there is room is appended. -/
theorem Chip.intake_of_room {c : Chip} {n w : Nat} {payload : List Byte} (hsome : payload ≠ []) (herr : (c.window n w).err = false)
    (hen : bit (c.window n w).ctrl 0 = true) (hpart : (c.window n w).partialBytes.length < 64)
    (hroom : (c.window n w).occupancyWith payload.length ≤ (c.window n w).limit) :
    c.intake n w payload true = c.setWindow n w { c.window n w with
      queue := (c.window n w).queue ++ (List.range (((c.window n w).partialBytes ++ payload).length / 64)).map (fun i =>
        { bytes := (((c.window n w).partialBytes ++ payload).drop (64 * i)).take 64, arrival := c.tide })
      partialBytes := ((c.window n w).partialBytes ++ payload).drop (64 * (((c.window n w).partialBytes ++ payload).length / 64))
      accepted := (c.window n w).accepted + BitVec.ofNat 32 (((c.window n w).partialBytes ++ payload).length / 64) } := by
  have hcut := cutDescs_eq c.tide (n := payload.length / 64 + 1) (b := (c.window n w).partialBytes ++ payload)
    (by rw [List.length_append]; omega)
  simp [Chip.intake, hsome, herr, hen, Nat.not_lt.mpr hroom, hcut]

/-- A window in error or without EN takes nothing and counts an overrun (log 26). -/
theorem Chip.intake_of_closed {c : Chip} {n w : Nat} {payload : List Byte} (be : Bool) (hsome : payload ≠ [])
    (h : (c.window n w).err = true ∨ bit (c.window n w).ctrl 0 = false) :
    c.intake n w payload be = c.setWindow n w { c.window n w with overrun := (c.window n w).overrun + 1 } := by
  rcases h with h | h <;> simp [Chip.intake, hsome, h]

/-- A write with partial byte enables is an error (R404). -/
theorem Chip.intake_of_partial {c : Chip} {n w : Nat} {payload : List Byte} (hsome : payload ≠ []) (herr : (c.window n w).err = false)
    (hen : bit (c.window n w).ctrl 0 = true) :
    c.intake n w payload false =
      (c.setWindow n w { c.window n w with badWrite := (c.window n w).badWrite + 1, err := true }).portErr n 1 := by
  simp [Chip.intake, hsome, herr, hen]

/-- A write beyond LIMIT is an error (R406). -/
theorem Chip.intake_of_full {c : Chip} {n w : Nat} {payload : List Byte} (hsome : payload ≠ []) (herr : (c.window n w).err = false)
    (hen : bit (c.window n w).ctrl 0 = true) (hfull : (c.window n w).limit < (c.window n w).occupancyWith payload.length) :
    c.intake n w payload true =
      (c.setWindow n w { c.window n w with overrun := (c.window n w).overrun + 1, err := true }).portErr n 0 := by
  simp [Chip.intake, hsome, herr, hen, hfull]

/-- INTAKE_WRITE at a port whose link is up. -/
theorem Completes.intakeWrite {s : State} {port : BitVec 2} {window : BitVec 6} {payload : List Byte} {be : Bool} {post : Chip → Prop}
    (hup : (s.chip.port port.toNat).linkUp = true) (hlen : payload.length ≤ 4096)
    (hpost : post (s.chip.intake port.toNat window.toNat payload be)) : Completes s (.intakeWrite port window ⟨payload, false⟩ be) post :=
  .of_runIf rfl (decide_eq_true hlen) (by simpa [hup] using hpost)

/-! Ring registers (R414). -/

theorem mergeReg_ringCfg (old v : Word) :
    mergeReg old v (BitVec.allOnes 64) ringCfgFields = old &&& ~~~(0x1F3F : Word) ||| v &&& 0x1F3F := by
  rw [mergeReg, BitVec.and_assoc, BitVec.allOnes_and]
  rfl

/-- A ring register is taken while EN and ACTIVE are 0. -/
theorem Chip.ringWrite_of_idle {c : Chip} {n w : Nat} (f : Window → Window) (hen : bit (c.window n w).ctrl 0 = false)
    (hactive : (c.window n w).active = 0) :
    c.ringWrite n w f = c.setWindow n w { f (c.window n w) with recHead := 0, recTail := 0, cplHead := 0, cplTail := 0 } := by
  simp [Chip.ringWrite, hen, hactive]

theorem Chip.ringWrite_of_busy {c : Chip} {n w : Nat} (f : Window → Window) (h : bit (c.window n w).ctrl 0 = true ∨ 0 < (c.window n w).active) :
    c.ringWrite n w f = c := by
  simp [Chip.ringWrite, h]

theorem Completes.ringConfigWrite {s : State} {port : BitVec 2} {window : BitVec 6} {r : RingReg} {v : Word} {post : Chip → Prop}
    (hon : s.chip.blackout = false) (hpost : post (s.chip.ringReg port.toNat window.toNat r v (BitVec.allOnes 64))) :
    Completes s (.ringConfigWrite port window r v) post :=
  .of_run (f := fun c => if c.blackout then c else c.ringReg port.toNat window.toNat r v (BitVec.allOnes 64)) rfl (by rw [hon]; exact hpost)

/-! The MSI-X table (R416). -/

/-- Unmasking a vector writes its entry and takes it out of the PBA. -/
theorem Chip.unmask_port (c : Chip) (n v : Nat) (addr : Word) (data : BitVec 32) :
    SMap.get MsixEntry.reset ((c.unmask n v addr data).port n).msix v = { addr := addr, data := data, masked := false } ∧
      v ∉ ((c.unmask n v addr data).port n).pba := by
  unfold Chip.unmask Chip.msixPut
  by_cases hv : v ∈ (c.port n).pba
  · simp [hv, Chip.msix]
    split <;> simp
  · simp [hv]

/-- A message that waited in the PBA goes out where the port may send it. -/
theorem Chip.unmask_out_of_waiting {c : Chip} {n v : Nat} (addr : Word) (data : BitVec 32) (hv : v ∈ (c.port n).pba)
    (hup : (c.port n).linkUp = true) (hmaster : (c.port n).busMaster = true) :
    (c.unmask n v addr data).out = .msix n addr data :: c.out := by
  simp [Chip.unmask, Chip.msixPut, Chip.msix, hv, hup, hmaster]

theorem Chip.unmask_out_of_quiet {c : Chip} {n v : Nat} (addr : Word) (data : BitVec 32) (hv : v ∉ (c.port n).pba) :
    (c.unmask n v addr data).out = c.out := by
  simp [Chip.unmask, Chip.msixPut, hv]

/-- Settles O31: each write is one update of its window or its vector, beside what PORT_ERR notes. -/
theorem intakeAndWindows : Obligations.IntakeAndWindows := by
  unfold Obligations.IntakeAndWindows
  refine ⟨fun s port window payload be at_ => ?_, fun s port window v vector addr data => ?_⟩ <;> intro c n w x
  · intro b hup hsome hlen hpart
    refine ⟨fun herr hen hroom => .intakeWrite hup hlen ?_, fun hclosed => .intakeWrite hup hlen (c.intake_of_closed be hsome hclosed),
      fun herr hen => ⟨.intakeWrite hup hlen ?_, fun hfull => .intakeWrite hup hlen ?_⟩, .of_runIf rfl (decide_eq_true hlen) ?_,
      .of_run rfl (if_pos hup)⟩
    · rw [Chip.intake_of_room hsome herr hen hpart hroom]
      exact ⟨c.window_setWindow n w _, fun m hm => c.port_setWindow_other w _ hm, fun v hv => c.window_setWindow_other n _ hv, rfl⟩
    · rw [Chip.intake_of_partial hsome herr hen]
      exact ⟨by rw [Chip.portErr_window, Chip.window_setWindow], Chip.portErr_err _ _ (by decide)⟩
    · rw [Chip.intake_of_full hsome herr hen hfull]
      exact ⟨by rw [Chip.portErr_window, Chip.window_setWindow], Chip.portErr_err _ _ (by decide)⟩
    · rw [if_neg (by rw [hup]; decide), if_pos rfl]
      exact ⟨c.portErr_err n (by decide), c.portErr_window n 5, fun m hm => c.portErr_port_other 5 hm, c.portErr_mem n 5⟩
  · intro anew
    refine ⟨fun hon => ⟨.of_run (f := fun c => if c.blackout then c else c.windowReset n w) rfl (by rw [hon]; rfl), fun hen hactive => ⟨.ringConfigWrite hon ?_, .ringConfigWrite hon ?_,
      .ringConfigWrite hon ?_⟩, fun hbusy r => .ringConfigWrite hon (Chip.ringWrite_of_busy _ hbusy)⟩, fun hup => .of_run rfl ?_⟩
    · exact (Chip.ringWrite_of_idle _ hen hactive).trans (by rw [mergeReg_allOnes])
    · exact (Chip.ringWrite_of_idle _ hen hactive).trans (by dsimp only; rw [mergeReg_allOnes])
    · exact (Chip.ringWrite_of_idle _ hen hactive).trans (by dsimp only; rw [mergeReg_ringCfg])
    · rw [if_pos hup]
      obtain ⟨hentry, hpba⟩ := c.unmask_port n vector.toNat addr data
      exact ⟨hentry, hpba, fun hv hmaster => Chip.unmask_out_of_waiting addr data hv hup hmaster,
        fun hv => Chip.unmask_out_of_quiet addr data hv⟩

/-! A port that is cut off (R420). -/

theorem SMap.find_map_snd {α : Type} (f : α → α) (m : SMap α) (k : Nat) :
    SMap.find (m.map fun p => (p.1, f p.2)) k = (SMap.find m k).map f := by
  induction m with
  | nil => rfl
  | cons p t ih =>
    rw [List.map_cons, SMap.find, SMap.find, ih]
    split <;> rfl

/-- What is left of a Request whose port is cut off. -/
def Ctx.cutFrom (n : Nat) (reset : Bool) (x : Ctx) : Ctx := if x.port = n then { x with cut := true, gone := x.gone || reset } else x

theorem Chip.cutRequests_ctx (c : Chip) (n : Nat) (reset : Bool) (k : Nat) :
    (c.cutRequests n reset).ctx k = (c.ctx k).map (Ctx.cutFrom n reset) := by
  have hmap : (c.req.ctxs.map fun p => if p.2.port = n then (p.1, { p.2 with cut := true, gone := p.2.gone || reset }) else p) =
      c.req.ctxs.map fun p => (p.1, p.2.cutFrom n reset) :=
    List.map_congr_left fun p _ => by unfold Ctx.cutFrom; split <;> rfl
  exact (congrArg (fun m => SMap.find m k) hmap).trans (SMap.find_map_snd _ _ _)

/-- The windows of a port that is cut off. -/
theorem Chip.portCut_window (c : Chip) (n : Nat) (reset : Bool) (w : Nat) :
    (c.portCut n reset).window n w = (c.window n w).cutOff reset := by
  have hreset : Window.reset.cutOff reset = Window.reset := by cases reset <;> rfl
  have hget := SMap.get_map_snd (fun x : Window => x.cutOff reset) Window.reset (c.port n).windows w
  rw [hreset] at hget
  cases reset <;> exact (congrArg (fun p : Port => p.window w) (c.port_setPort n _)).trans hget

/-- What a port that is cut off keeps and loses; the other ports keep all. -/
structure PortCut (c d : Chip) (n : Nat) (reset : Bool) : Prop where
  linkUp : (d.port n).linkUp = (c.port n).linkUp
  perst : (d.port n).perst = (c.port n).perst
  busMaster : (d.port n).busMaster = (c.port n).busMaster
  access : (d.port n).access = (c.port n).access
  discarded : (d.port n).discarded = (c.port n).discarded +
    BitVec.ofNat 64 ((c.port n).windows.foldl (fun a w => a + w.2.lostEntries) 0)
  windows : ∀ w, d.window n w = (c.window n w).cutOff reset
  registers : reset = true →
    (d.port n).errVec = 0 ∧ (d.port n).aper = 0 ∧ (d.port n).fabWin = 0 ∧ (d.port n).msix = [] ∧ (d.port n).pba = []
  kept : reset = false →
    (d.port n).errVec = (c.port n).errVec ∧ (d.port n).aper = (c.port n).aper ∧ (d.port n).msix = (c.port n).msix
  ctx : ∀ k, d.ctx k = (c.ctx k).map (Ctx.cutFrom n reset)
  others : ∀ m, m ≠ n → d.port m = c.port m
  mem : d.mem = c.mem
  cores : d.cores = c.cores

theorem Chip.portCut_spec (c : Chip) (n : Nat) (reset : Bool) : PortCut c (c.portCut n reset) n reset := by
  have hport : (c.portCut n reset).port n = _ := c.port_setPort n _
  constructor
  case windows => exact c.portCut_window n reset
  case ctx => exact fun k => Chip.cutRequests_ctx _ n reset k
  case others => exact fun m hm => c.port_setPort_other _ hm
  case mem => rfl
  case cores => rfl
  all_goals rw [hport]; cases reset <;> simp [w64]

/-- Settles O36: each of the four events is the one cut, of a port whose link, reset or bus mastering has changed. -/
theorem portsAreCutOff : Obligations.PortsAreCutOff := by
  unfold Obligations.PortsAreCutOff
  intro s port k x c n p lost left cut
  have hcut : ∀ (e : Chip) (reset up perst master : Bool), e.port n = { p with linkUp := up, perst := perst, busMaster := master } →
      e.req = c.req → e.mem = c.mem → e.cores = c.cores → (∀ m, m ≠ n → e.port m = c.port m) → cut (e.portCut n reset) reset up perst master := by
    intro e reset up perst master he hreq hmem0 hcores0 hsame
    obtain ⟨hup, hperst, hmaster, haccess, hdiscarded, hwindows, hregisters, hkept, hctx, hothers, hmem, hcores⟩ := e.portCut_spec n reset
    have hold : ∀ w, e.window n w = c.window n w := fun w => by rw [Chip.window, he]; rfl
    rw [he] at hup hperst hmaster haccess hdiscarded hkept
    refine ⟨hup, hperst, hmaster, haccess, hdiscarded, fun w => ?_, hregisters, hkept, fun hx => ?_,
      fun m hm => (hothers m hm).trans (hsame m hm), hmem.trans hmem0, hcores.trans hcores0⟩
    · rw [hwindows, hold]; rfl
    · rw [hctx, Chip.ctx, hreq, ← Chip.ctx, hx]; rfl
  refine ⟨fun hup => ⟨.of_run rfl ?_, .of_run rfl ?_, .of_run rfl ?_⟩, .of_run (f := fun c => (c.setPort n { c.port n with perst := true }).portDown n) rfl ?_,
    .of_run (f := fun c => c.setPort n { c.port n with perst := false }) rfl rfl,
    fun rate width payload hpayload hrate1 hrate6 hwidth hhub hready hperst hdown hrecovery => .of_runIf rfl ?_ ?_⟩
  · rw [if_pos hup]
    exact hcut c true true p.perst p.busMaster (by rw [← hup]) rfl rfl rfl fun m _ => rfl
  · rw [if_pos hup]
    exact hcut _ true false p.perst p.busMaster (c.port_setPort n _) rfl rfl rfl fun m hm => c.port_setPort_other _ hm
  · rw [if_pos hup]
    exact hcut _ false true p.perst false ((c.port_setPort n _).trans (by rw [← hup])) rfl rfl rfl fun m hm => c.port_setPort_other _ hm
  · unfold Chip.portDown
    rw [Chip.port_setPort]
    refine hcut _ true false true p.busMaster (Chip.port_setPort _ n _) rfl rfl rfl fun m hm => ?_
    rw [Chip.port_setPort_other _ _ hm, Chip.port_setPort_other _ _ hm]
  · exact decide_eq_true ⟨hrate1, hrate6, hwidth, hpayload⟩
  · simp [Chip.portUp, hhub, hready, hperst, hdown, hrecovery, c, n, p]

end Sys2Proof.Machine
end

section
/-! SUPPORT. Tables over a range of keys, folds, and memory of which a part is lost. -/

namespace Sys2Proof.Machine

/-! Tables over a range of keys. -/

theorem SMap.get_map_range' {α : Type} (d : α) (f : Nat → α) (b n k : Nat) :
    SMap.get d ((List.range' b n).map fun i => (i, f i)) k = if b ≤ k ∧ k < b + n then f k else d := by
  induction n generalizing b with
  | zero => rw [if_neg (by omega)]; rfl
  | succ n ih =>
    rw [List.range'_succ, List.map_cons, SMap.get, ih]
    by_cases h : b = k
    · subst h
      rw [if_pos rfl, if_pos (by omega)]
    · rw [if_neg h]
      exact if_congr (by omega) rfl rfl

/-- What a table that lists the keys below n holds. -/
theorem SMap.get_map_range {α : Type} (d : α) (f : Nat → α) (n k : Nat) :
    SMap.get d ((List.range n).map fun i => (i, f i)) k = if k < n then f k else d := by
  rw [List.range_eq_range', SMap.get_map_range']
  exact if_congr (by omega) rfl rfl

/-! Folds. -/

/-- A relation that every step of a fold keeps holds of the fold. -/
theorem foldl_rel {α σ : Type} {R : σ → σ → Prop} (hrefl : ∀ s, R s s) (htrans : ∀ {s t u}, R s t → R t u → R s u) {f : σ → α → σ}
    {l : List α} (hf : ∀ s, ∀ a ∈ l, R s (f s a)) (s : σ) : R s (l.foldl f s) := by
  induction l generalizing s with
  | nil => exact hrefl s
  | cons a t ih =>
    exact htrans (hf s a List.mem_cons_self) (ih (fun u b hb => hf u b (List.mem_cons_of_mem a hb)) (f s a))

/-- A fold over a list with its positions, seen from one position: what the others do, its own step, and what the others do. -/
theorem foldl_zipIdx_split {α σ : Type} {R : σ → σ → Prop} (hrefl : ∀ s, R s s) (htrans : ∀ {s t u}, R s t → R t u → R s u)
    {f : σ → α × Nat → σ} {l : List α} {i : Nat} {a : α} (ha : l[i]? = some a) (hother : ∀ s p, p.2 ≠ i → R s (f s p)) (s : σ) :
    ∃ u, R s u ∧ R (f u (a, i)) (l.zipIdx.foldl f s) := by
  obtain ⟨hi, rfl⟩ := List.getElem?_eq_some_iff.mp ha
  have hl : l.zipIdx = (l.take i).zipIdx ++ (l[i], i) :: (l.drop (i + 1)).zipIdx (i + 1) := by
    conv => lhs; rw [← List.take_append_drop i l, List.drop_eq_getElem_cons hi]
    rw [List.zipIdx_append, List.zipIdx_cons, List.length_take_of_le hi.le, Nat.zero_add]
  refine ⟨(l.take i).zipIdx.foldl f s, foldl_rel hrefl htrans (fun u p hp => hother u p ?_) s, ?_⟩
  · have := (List.mk_mem_zipIdx_iff_getElem? (x := p.1) (i := p.2)).mp hp
    have hlt := (List.getElem?_eq_some_iff.mp this).1
    rw [List.length_take] at hlt
    omega
  · rw [hl, List.foldl_append, List.foldl_cons]
    refine foldl_rel hrefl htrans (fun u p hp => hother u p ?_) _
    have := List.le_snd_of_mem_zipIdx hp
    omega

/-- Messages that go out one after another. -/
theorem Chip.foldl_emit {α : Type} (f : α → Out) (l : List α) (c : Chip) :
    l.foldl (fun c a => c.emit (f a)) c = { c with out := (l.map f).reverse ++ c.out } := by
  induction l generalizing c with
  | nil => rfl
  | cons a t ih =>
    rw [List.foldl_cons, ih]
    simp [Chip.emit]

/-! Memory of which a part is lost. -/

/-- A read of what is left of a canonical memory. -/
theorem Mem.read_filter {m : List Host.Cell} (p : Nat → Bool) {lo : Nat} (hm : Mem.above lo m = true) (a : Nat) :
    Mem.read (m.filter fun q => p q.1) a = if p a = true then Mem.read m a else 0 := by
  induction m generalizing lo with
  | nil => simp [Mem.read]
  | cons q t ih =>
    obtain ⟨b, v⟩ := q
    simp only [Mem.above, Bool.and_eq_true, decide_eq_true_eq] at hm
    obtain ⟨-, ht⟩ := hm
    have hrest := ih ht
    have hbelow : ∀ x, x ≤ b → Mem.read t x = 0 := fun x hx => Mem.read_below ht (by omega)
    by_cases hb : p b = true
    · rw [List.filter_cons_of_pos (by exact hb), Mem.read, hrest, Mem.read]
      by_cases h1 : b = a
      · subst h1
        rw [if_pos rfl, if_pos hb, if_pos rfl]
      · rw [if_neg h1, if_neg h1]
        split <;> simp
    · rw [List.filter_cons_of_neg (by exact hb), hrest, Mem.read]
      by_cases h1 : b = a
      · subst h1
        rw [if_neg hb, if_neg hb]
      · rw [if_neg h1]
        by_cases h2 : a < b
        · rw [if_pos h2, hbelow a h2.le]
        · rw [if_neg h2]

end Sys2Proof.Machine
end

section
/-! SUPPORT. What noting an event changes: an MC_EVENT bit, an entry of the log, and what both signal (R522, R527, R528, R540, R544). -/

namespace Sys2Proof.Machine

/-- What an event alone sends out: an In-Band Interrupt or an MSI-X message. -/
def Out.isSignal : Out → Bool
  | .inBand | .msix _ _ _ => true
  | _ => false

/-- The package with what events change taken from another: the MC, the ports, what has gone out and the free values that were used. -/
def Chip.notesOf (d c : Chip) : Chip := { d with mc := c.mc, ports := c.ports, out := c.out, freeCtr := c.freeCtr }

/-- The MC with the log and MC_EVENT of another. -/
def Mc.logOf (m n : Mc) : Mc :=
  { m with held := n.held, ram := n.ram, copied := n.copied, seqNext := n.seqNext, logDropped := n.logDropped, gapCount := n.gapCount,
           events := n.events }

/-- What MC_EVENT and the log hold may have changed, MC_EVENT bits only from 0 to 1, and vectors may wait in a PBA or have gone out; free
values may have been used. All else is as it was. -/
structure Noted (c d : Chip) : Prop where
  rest : d.notesOf c = c
  mc : d.mc.logOf c.mc = c.mc
  events : ∀ i, c.mc.events.getLsbD i = true → d.mc.events.getLsbD i = true
  out : ∃ l, d.out = l ++ c.out ∧ ∀ o ∈ l, o.isSignal = true

namespace Noted

theorem refl (c : Chip) : Noted c c := ⟨rfl, rfl, fun _ h => h, [], rfl, by simp⟩

theorem trans {c d e : Chip} (h : Noted c d) (g : Noted d e) : Noted c e := by
  obtain ⟨hrest, hmc, hevents, l, hout, hl⟩ := h
  obtain ⟨grest, gmc, gevents, k, gout, gl⟩ := g
  refine ⟨?_, ?_, fun i hi => gevents i (hevents i hi), k ++ l, by rw [gout, hout, List.append_assoc], fun o ho => ?_⟩
  · exact (congrArg (fun x : Chip => x.notesOf c) grest).trans hrest
  · exact (congrArg (fun x : Mc => x.logOf c.mc) gmc).trans hmc
  · exact (List.mem_append.mp ho).elim (gl o) (hl o)

theorem foldl {α : Type} {f : Chip → α → Chip} (hf : ∀ c a, Noted c (f c a)) (l : List α) (c : Chip) : Noted c (l.foldl f c) := by
  induction l generalizing c with
  | nil => exact refl c
  | cons a t ih => exact (hf c a).trans (ih _)

variable {c d : Chip} (h : Noted c d)
include h

theorem mem : d.mem = c.mem := (congrArg Chip.mem h.rest :)
theorem tide : d.tide = c.tide := (congrArg Chip.tide h.rest :)
theorem cores : d.cores = c.cores := (congrArg Chip.cores h.rest :)
theorem req : d.req = c.req := (congrArg Chip.req h.rest :)
theorem rcp : d.rcp = c.rcp := (congrArg Chip.rcp h.rest :)
theorem links : d.links = c.links := (congrArg Chip.links h.rest :)
theorem net : d.net = c.net := (congrArg Chip.net h.rest :)
theorem conf : d.conf = c.conf := (congrArg Chip.conf h.rest :)
theorem pwr : d.pwr = c.pwr := (congrArg Chip.pwr h.rest :)
theorem rst : d.rst = c.rst := (congrArg Chip.rst h.rest :)
theorem scratch : d.scratch = c.scratch := (congrArg Chip.scratch h.rest :)

theorem link (n : Nat) : d.link n = c.link n := by rw [Chip.link, h.links, Chip.link]
theorem dom (n : Nat) : d.dom n = c.dom n := by rw [Chip.dom, h.pwr, Chip.dom]
theorem core (n : Nat) : d.core n = c.core n := by rw [Chip.core, h.cores, Chip.core]

/-- What went out before is still out. -/
theorem mem_out {o : Out} (ho : o ∈ c.out) : o ∈ d.out := by
  obtain ⟨l, hl, -⟩ := h.out
  rw [hl]
  exact List.mem_append_right l ho

/-- Nothing but signals is new. -/
theorem of_mem_out {o : Out} (ho : o ∈ d.out) (hsignal : o.isSignal = false) : o ∈ c.out := by
  obtain ⟨l, hl, hsig⟩ := h.out
  rw [hl] at ho
  rcases List.mem_append.mp ho with hnew | hold
  · exact absurd (hsig o hnew) (by simp [hsignal])
  · exact hold

end Noted

theorem Noted.spend (c : Chip) : Noted c c.spend := ⟨rfl, rfl, fun _ h => h, [], rfl, by simp⟩

theorem Noted.signalVec (c : Chip) (n : Nat) (vec : Word) : Noted c (c.signalVec n vec) := by
  have hrest := c.signalVec_rest n vec
  have hmc : (c.signalVec n vec).mc = c.mc := (congrArg Chip.mc hrest :)
  refine ⟨(congrArg (fun d : Chip => d.notesOf c) hrest :), by rw [hmc]; rfl, fun i hi => by rw [hmc]; exact hi, ?_⟩
  · unfold Chip.signalVec Chip.msix
    dsimp only
    split
    · split
      · exact ⟨[], rfl, by simp⟩
      · split
        · exact ⟨[_], rfl, by simp [Out.isSignal]⟩
        · exact ⟨[], rfl, by simp⟩
    · exact ⟨[], rfl, by simp⟩

/-- An MC_EVENT bit is set. -/
theorem Noted.mcEvent (c : Chip) (i : Nat) : Noted c (c.mcEvent i) := by
  unfold Chip.mcEvent
  dsimp only
  split
  · exact .refl c
  · refine .trans ?_ (.foldl (fun d n => .signalVec d n _) _ _)
    exact ⟨rfl, rfl, fun j hj => by simp [hj], [.inBand], rfl, by simp [Out.isSignal]⟩

/-- A noted event is in MC_EVENT. -/
theorem Chip.mcEvent_events (c : Chip) {i : Nat} (h : i < 6) : (c.mcEvent i).mc.events.getLsbD i = true := by
  unfold Chip.mcEvent
  dsimp only
  split
  · assumption
  · refine (Noted.foldl (fun d n => Noted.signalVec d n _) _ _).events i ?_
    simp only [Chip.emit_mc, BitVec.getLsbD_or, BitVec.getLsbD_ofNat, Nat.testBit_two_pow_self, h, decide_true, Bool.and_self, Bool.or_true]

/-- An entry put into the ring leaves the rest of the MC. -/
theorem Mc.append_logOf (m : Mc) (e : LogEntry) : (m.append e).logOf m = m := by
  unfold Mc.append
  dsimp only
  split <;> rfl

theorem Mc.append_events (m : Mc) (e : LogEntry) : (m.append e).events = m.events := by
  unfold Mc.append
  dsimp only
  split <;> rfl

/-- An update of the log alone. -/
theorem Noted.of_mc {c : Chip} {m : Mc} (hlog : m.logOf c.mc = c.mc) (hevents : m.events = c.mc.events) : Noted c { c with mc := m } :=
  ⟨rfl, hlog, fun _ h => by rw [hevents]; exact h, [], rfl, by simp⟩

theorem Noted.logNow (c : Chip) (e : LogEntry) : Noted c (c.logNow e) := by
  unfold Chip.logNow
  split
  · exact .of_mc (c.mc.append_logOf e) (c.mc.append_events e)
  · refine .trans ?_ (.mcEvent _ 3)
    exact .of_mc rfl rfl

theorem Noted.logGap (c : Chip) : Noted c c.logGap := by
  unfold Chip.logGap
  split
  · extract_lets e
    exact .of_mc (c.mc.append_logOf e) (c.mc.append_events e)
  · exact .refl c

/-- An event for the log. -/
theorem Noted.log (c : Chip) (code severity source : Nat) (payload : List Byte) : Noted c (c.log code severity source payload) := by
  unfold Chip.log
  dsimp only
  split
  · exact .logNow c _
  · exact .of_mc rfl rfl

theorem Noted.logLink (c : Chip) (n : Nat) (old new : LinkState) : Noted c (c.logLink n old new) := .log c _ _ _ _
theorem Noted.logRail (c : Chip) (rail : Nat) (statusWord : BitVec 16) : Noted c (c.logRail rail statusWord) := .log c _ _ _ _
theorem Noted.logAlarm (c : Chip) (severity kind index level : Nat) (value threshold : Int) :
    Noted c (c.logAlarm severity kind index level value threshold) := .log c _ _ _ _

end Sys2Proof.Machine
end

section
/-! SUPPORT. Rails that go off (R551, R606). -/

namespace Sys2Proof.Machine

/-- The rails that are turned off, the last one first (R551). -/
def railsDown (n : Nat) : List Out := (List.range n).map fun i => .rail (n + 1 - i) false

theorem Chip.dropRails_eq (c : Chip) (n : Nat) :
    c.dropRails n = { c with rst := { c.rst with railsOn := [] }, out := (railsDown n).reverse ++ c.out } := by
  unfold Chip.dropRails
  rw [Chip.foldl_emit, List.map_map]
  rfl

/-- The package once a rail has failed, its log apart (R551). -/
def Chip.unpowered (c : Chip) (n : Nat) : Chip :=
  { c.lose false with rst := { c.rst with railsOn := [], railsOff := true }, out := (railsDown n).reverse ++ c.out }

theorem Chip.railsFail_noted (c : Chip) (rail n : Nat) : Noted (c.unpowered n) (c.railsFail rail n) := by
  unfold Chip.railsFail
  rw [Chip.dropRails_eq]
  exact (Noted.spend _).trans (.logRail _ _ _)

end Sys2Proof.Machine
end

section
/-! SUPPORT. Samples of sensors, monitors and currents, and the alarms that they move (R523, R525, R526, R588, R606). -/

namespace Sys2Proof.Machine

/-! Alarms. -/

/-- The alarm of a key: 0 to 47 the temperature sensors, 64 and up the voltage monitors, 96 and up the currents. -/
def Chip.alarm (c : Chip) (key : Nat) : Alarm := SMap.get Alarm.reset c.mc.alarms key

/-- An alarm after a sample that lies beyond WARN, or beyond CRIT, or beyond neither (R525). -/
def Alarm.next (a : Alarm) (warn crit : Bool) : Alarm :=
  let w := if warn then a.warn + 1 else 0
  let r := if crit then a.crit + 1 else 0
  let i := if warn || crit then 0 else a.inside + 1
  { warnOn := levelNext a.warnOn w i, critOn := levelNext a.critOn r i, warn := w, crit := r, inside := i }

theorem Alarm.next_warnOn {a : Alarm} (crit : Bool) (hoff : a.warnOn = false) (h : a.warn = 2) : (a.next true crit).warnOn = true := by
  simp [Alarm.next, levelNext, hoff, h]

theorem Alarm.next_critOn {a : Alarm} (warn : Bool) (hoff : a.critOn = false) (h : a.crit = 2) : (a.next warn true).critOn = true := by
  simp [Alarm.next, levelNext, hoff, h]

theorem Alarm.next_critOn_second {a : Alarm} (warn : Bool) (hoff : a.critOn = false) (h : a.crit = 1) : (a.next warn true).critOn = false := by
  simp [Alarm.next, levelNext, hoff, h]

theorem Alarm.next_inside {a : Alarm} (h : a.inside = 2) : (a.next false false).warnOn = false ∧ (a.next false false).critOn = false := by
  simp [Alarm.next, levelNext, h]

/-- The package with the alarm of a key moved, what the move signals apart. -/
def Chip.stepAlarm (c : Chip) (key : Nat) (warn crit : Bool) : Chip :=
  { c with mc := { c.mc with alarms := SMap.set c.mc.alarms key ((c.alarm key).next warn crit) } }

theorem Noted.alarmEvent (c : Chip) (kind index : Nat) (crit cleared : Bool) (value threshold : Int) :
    Noted c (c.alarmEvent kind index crit cleared value threshold) :=
  (Noted.mcEvent c _).trans (.logAlarm _ _ _ _ _ _ _)

/-- The MC_EVENT bit of the level that moves. -/
theorem Chip.alarmEvent_events (c : Chip) (kind index : Nat) (crit cleared : Bool) (value threshold : Int) :
    (c.alarmEvent kind index crit cleared value threshold).mc.events.getLsbD (if crit then 1 else 0) = true :=
  (Noted.logAlarm _ _ _ _ _ _ _).events _ (c.mcEvent_events (by split <;> decide))

section
variable (c : Chip) (key kind index : Nat) (value : Int) (warn crit : Option Int) (back : Int)

/-- A sample moves its alarm and signals what moves. -/
theorem Chip.alarmSample_noted : Noted (c.stepAlarm key warn.isSome crit.isSome) (c.alarmSample key kind index value warn crit back) := by
  unfold Chip.alarmSample
  extract_lets a w r i wOn rOn m c1 c2
  have h2 : Noted c1 c2 := by
    unfold c2
    split
    · exact .refl c1
    · exact .alarmEvent c1 ..
  split
  · exact h2
  · exact h2.trans (.alarmEvent c2 ..)

theorem Chip.alarmSample_warn (h : ((c.alarm key).next warn.isSome crit.isSome).warnOn ≠ (c.alarm key).warnOn) :
    (c.alarmSample key kind index value warn crit back).mc.events.getLsbD 0 = true := by
  unfold Chip.alarmSample
  extract_lets a w r i wOn rOn m c1 c2
  have h2 : c2.mc.events.getLsbD 0 = true := by
    unfold c2
    rw [if_neg (by exact h)]
    exact c1.alarmEvent_events kind index false (!wOn) value (warn.getD back)
  split
  · exact h2
  · exact (Noted.alarmEvent c2 ..).events 0 h2

theorem Chip.alarmSample_crit (h : ((c.alarm key).next warn.isSome crit.isSome).critOn ≠ (c.alarm key).critOn) :
    (c.alarmSample key kind index value warn crit back).mc.events.getLsbD 1 = true := by
  unfold Chip.alarmSample
  extract_lets a w r i wOn rOn m c1 c2
  rw [if_neg (by exact h)]
  exact c2.alarmEvent_events kind index true (!rOn) value (crit.getD back)

end

/-! Samples one after another. -/

/-- What samples beside that of a key leave of its alarm and its reading; events, rails that are off and a throttle stay. -/
structure SampledBeside (key : Nat) (c d : Chip) : Prop where
  alarm : d.alarm key = c.alarm key
  thrT : d.mc.thrT = c.mc.thrT
  thrV : d.mc.thrV = c.mc.thrV
  thrI : d.mc.thrI = c.mc.thrI
  temp : key < 64 → SMap.get 0 d.mc.temps key = SMap.get 0 c.mc.temps key
  volt : ∀ j, key = 64 + j → SMap.get 0 d.mc.volts j = SMap.get 0 c.mc.volts j
  amp : ∀ k, key = 96 + k → (SMap.get (0, 0) d.mc.rails k).2 = (SMap.get (0, 0) c.mc.rails k).2
  vout : ∀ k, (SMap.get (0, 0) d.mc.rails k).1 = (SMap.get (0, 0) c.mc.rails k).1
  events : ∀ i, c.mc.events.getLsbD i = true → d.mc.events.getLsbD i = true
  off : c.rst.railsOff = true → c.rst.railsOn = [] → d.rst.railsOff = true ∧ d.rst.railsOn = []
  slow : (∀ n, n < 64 → c.maxMhz n = 800) → ∀ n, n < 64 → d.maxMhz n = 800

namespace SampledBeside

theorem refl (key : Nat) (c : Chip) : SampledBeside key c c :=
  ⟨rfl, rfl, rfl, rfl, fun _ => rfl, fun _ _ => rfl, fun _ _ => rfl, fun _ => rfl, fun _ h => h, fun h g => ⟨h, g⟩, fun h => h⟩

theorem trans {key : Nat} {c d e : Chip} (h : SampledBeside key c d) (g : SampledBeside key d e) : SampledBeside key c e where
  alarm := g.alarm.trans h.alarm
  thrT := g.thrT.trans h.thrT
  thrV := g.thrV.trans h.thrV
  thrI := g.thrI.trans h.thrI
  temp hk := (g.temp hk).trans (h.temp hk)
  volt j hj := (g.volt j hj).trans (h.volt j hj)
  amp k hk := (g.amp k hk).trans (h.amp k hk)
  vout k := (g.vout k).trans (h.vout k)
  events i hi := g.events i (h.events i hi)
  off h1 h2 := (h.off h1 h2).elim g.off
  slow hs := g.slow (h.slow hs)

/-- Events that are noted are no sample. -/
theorem of_noted (key : Nat) {c d : Chip} (h : Noted c d) : SampledBeside key c d where
  alarm := congrArg (SMap.get Alarm.reset · key) (congrArg Mc.alarms h.mc :)
  thrT := (congrArg Mc.thrT h.mc :)
  thrV := (congrArg Mc.thrV h.mc :)
  thrI := (congrArg Mc.thrI h.mc :)
  temp _ := congrArg (SMap.get 0 · key) (congrArg Mc.temps h.mc :)
  volt j _ := congrArg (SMap.get 0 · j) (congrArg Mc.volts h.mc :)
  amp k _ := congrArg (fun m => (SMap.get (0, 0) m k).2) (congrArg Mc.rails h.mc :)
  vout k := congrArg (fun m => (SMap.get (0, 0) m k).1) (congrArg Mc.rails h.mc :)
  events := h.events
  off h1 h2 := by rw [h.rst]; exact ⟨h1, h2⟩
  slow hs n hn := by rw [Chip.maxMhz, h.pwr]; exact hs n hn

end SampledBeside

theorem Chip.alarm_stepAlarm (c : Chip) (key : Nat) (warn crit : Bool) :
    (c.stepAlarm key warn crit).alarm key = (c.alarm key).next warn crit := SMap.get_set_same _ _ _ _

/-- The alarm of one key moves alone. -/
theorem SampledBeside.stepAlarm (c : Chip) {key k : Nat} (warn crit : Bool) (h : key ≠ k) : SampledBeside key c (c.stepAlarm k warn crit) :=
  { SampledBeside.refl key c with alarm := SMap.get_set_other _ _ _ h }

/-! Temperatures (R525, R526). -/

/-- A temperature that a sensor reads. -/
def Chip.setTemp (c : Chip) (i : Nat) (t : Int) : Chip := { c with mc := { c.mc with temps := SMap.set c.mc.temps i t } }

theorem SampledBeside.setTemp (c : Chip) {key i : Nat} (t : Int) (h : key ≠ i) : SampledBeside key c (c.setTemp i t) :=
  { SampledBeside.refl key c with temp := fun _ => SMap.get_set_other _ _ _ h }

/-- The threshold registers of sensor i. -/
def Chip.warnT (c : Chip) (i : Nat) : Int := signed 16 (bits (SMap.get thrTReset c.mc.thrT i) 15 0)
/-- The threshold registers of sensor i. -/
def Chip.critT (c : Chip) (i : Nat) : Int := signed 16 (bits (SMap.get thrTReset c.mc.thrT i) 31 16)

/-- What a temperature sample moves. -/
theorem Chip.tempSample_noted (c : Chip) (i : Nat) (t : Int) :
    Noted ((c.setTemp i t).stepAlarm i (above t (c.warnT i)).isSome (above t (c.critT i)).isSome) (c.tempSample i t) :=
  Chip.alarmSample_noted ..

theorem SampledBeside.tempSample (c : Chip) {key i : Nat} (t : Int) (h : key ≠ i) : SampledBeside key c (c.tempSample i t) :=
  ((setTemp c t h).trans (stepAlarm _ _ _ h)).trans (of_noted key (c.tempSample_noted i t))

theorem above_isSome {t threshold : Int} (h0 : threshold ≠ 0) (h : threshold < t) : (above t threshold).isSome = true := by
  simp [above, h0, h]

theorem above_isSome_of_le {t threshold : Int} (h : t ≤ threshold) : (above t threshold).isSome = false := by
  simp [above, Int.not_lt.mpr h]

/-- What the samples of all sensors leave of sensor i. -/
theorem Chip.tempSamples_sensor (c : Chip) {temps : List Int} {i : Nat} {t : Int} (ht : temps[i]? = some t) (hi : i < 48) :
    let d := c.tempSamples temps
    let a := (c.alarm i).next (above t (c.warnT i)).isSome (above t (c.critT i)).isSome
    SMap.get 0 d.mc.temps i = t ∧ d.alarm i = a ∧ (a.warnOn ≠ (c.alarm i).warnOn → d.mc.events.getLsbD 0 = true) ∧
      (a.critOn ≠ (c.alarm i).critOn → d.mc.events.getLsbD 1 = true) := by
  intro d a
  obtain ⟨u, hu, hd⟩ := foldl_zipIdx_split (R := SampledBeside i) (f := fun c (p : Int × Nat) => c.tempSample p.2 p.1) (.refl i) .trans ht
    (fun s p hp => .tempSample s p.1 (Ne.symm hp)) c
  have hnoted := u.tempSample_noted i t
  have hwarn : u.warnT i = c.warnT i := by rw [Chip.warnT, hu.thrT]; rfl
  have hcrit : u.critT i = c.critT i := by rw [Chip.critT, hu.thrT]; rfl
  have halarm : (u.setTemp i t).alarm i = c.alarm i := hu.alarm
  rw [hwarn, hcrit] at hnoted
  have hown := SampledBeside.of_noted i hnoted
  refine ⟨(hd.temp (by omega)).trans ((hown.temp (by omega)).trans (SMap.get_set_same _ _ _ _)), ?_, fun h => hd.events 0 ?_,
    fun h => hd.events 1 ?_⟩
  · exact hd.alarm.trans (hown.alarm.trans (by rw [Chip.alarm_stepAlarm, halarm]))
  · refine (u.setTemp i t).alarmSample_warn i 0 i t (above t (u.warnT i)) (above t (u.critT i)) (u.warnT i) ?_
    rw [halarm, hwarn, hcrit]
    exact h
  · refine (u.setTemp i t).alarmSample_crit i 0 i t (above t (u.warnT i)) (above t (u.critT i)) (u.warnT i) ?_
    rw [halarm, hwarn, hcrit]
    exact h

theorem Chip.tempSamples_cores (c : Chip) (temps : List Int) : (c.tempSamples temps).cores = c.cores :=
  foldl_rel (R := fun c d : Chip => d.cores = c.cores) (fun _ => rfl) (fun h g => g.trans h)
    (fun s p _ => (s.tempSample_noted p.2 p.1).cores) c

/-- The sensors at CRIT after their samples (R526). -/
theorem Chip.mem_tempSamples_crit (c : Chip) (temps : List Int) {i : Nat} (hi : i < 48) :
    i ∈ (c.tempSamples temps).pwr.crit ↔ ((c.tempSamples temps).alarm i).critOn = true := by
  unfold Chip.tempSamples
  simp only [List.mem_filter, List.mem_range, hi, true_and]
  rfl

/-! Rails that go off, and a throttle. -/

theorem SampledBeside.unpowered (key : Nat) (c : Chip) (n : Nat) : SampledBeside key c (c.unpowered n) :=
  { SampledBeside.refl key c with off := fun _ _ => ⟨rfl, rfl⟩ }

theorem SampledBeside.railsFail (key : Nat) (c : Chip) (rail n : Nat) : SampledBeside key c (c.railsFail rail n) :=
  (unpowered key c n).trans (of_noted key (c.railsFail_noted rail n))

/-- Every core is held at 800 MHz (R522, R523). -/
theorem Chip.maxMhz_throttleAll (c : Chip) {n : Nat} (hn : n < 64) : c.throttleAll.maxMhz n = 800 := by
  unfold Chip.throttleAll Chip.maxMhz
  simp [SMap.get_map_range, hn, clampNat]

theorem SampledBeside.throttleAll (key : Nat) (c : Chip) : SampledBeside key c c.throttleAll :=
  { SampledBeside.refl key c with slow := fun _ _ hn => c.maxMhz_throttleAll hn }

theorem SampledBeside.railCrit (key : Nat) (c : Chip) (j : Nat) (low : Bool) : SampledBeside key c (c.railCrit j low) := by
  unfold Chip.railCrit
  split
  · exact .refl key c
  · split
    · split
      · exact .throttleAll key c
      · exact .refl key c
    · exact .railsFail key c _ _

/-- A voltage at CRIT below takes the rails down, or for VDD_FC throttles (R606). -/
theorem Chip.railCrit_off (c : Chip) {j r : Nat} (low : Bool) (hj : monitorRail j = some r) (hr : r ≠ 7) :
    (c.railCrit j low).rst.railsOff = true ∧ (c.railCrit j low).rst.railsOn = [] := by
  simp only [Chip.railCrit, hj, if_neg hr, (c.railsFail_noted r c.rst.railsOn.length).rst, Chip.unpowered, and_self]

theorem Chip.railCrit_slow (c : Chip) {j : Nat} (hj : monitorRail j = some 7) {n : Nat} (hn : n < 64) :
    (c.railCrit j true).maxMhz n = 800 := by
  simp only [Chip.railCrit, hj, if_true, c.maxMhz_throttleAll hn]

/-! Voltages (R525, R606). -/

/-- A voltage that a monitor reads. -/
def Chip.setVolt (c : Chip) (j v : Nat) : Chip := { c.spend with mc := { c.mc with volts := SMap.set c.mc.volts j v } }

theorem SampledBeside.setVolt (c : Chip) {key j : Nat} (v : Nat) (h : key ≠ 64 + j) : SampledBeside key c (c.setVolt j v) :=
  { SampledBeside.refl key c with volt := fun _ hk => SMap.get_set_other _ _ _ fun hj => h (hj ▸ hk) }

/-- Whether a voltage lies beyond a high threshold that is enabled or below a low one. -/
def beyond (v hi low : Nat) : Option Int := (above v hi).or (below v low)

/-- The threshold register of monitor j. -/
def Chip.thrVolt (c : Chip) (j : Nat) : Word := SMap.get 0 c.mc.thrV j

/-- A voltage sample without what its CRIT level does. -/
def Chip.voltAlarm (c : Chip) (j v : Nat) : Chip :=
  (c.setVolt j v).alarmSample (64 + j) 1 j v (beyond v (bits (c.thrVolt j) 47 32) (bits (c.thrVolt j) 31 16))
    (beyond v (bits (c.thrVolt j) 63 48) (bits (c.thrVolt j) 15 0)) (signed 32 (bits c.free 31 0))

theorem Chip.voltSample_eq (c : Chip) (j v : Nat) :
    c.voltSample j v = if ((c.voltAlarm j v).alarm (64 + j)).critOn = true ∧ (c.alarm (64 + j)).critOn = false then
      (c.voltAlarm j v).railCrit j (decide (v < bits (c.thrVolt j) 15 0)) else c.voltAlarm j v := rfl

theorem Chip.voltAlarm_noted (c : Chip) (j v : Nat) :
    Noted ((c.setVolt j v).stepAlarm (64 + j) (beyond v (bits (c.thrVolt j) 47 32) (bits (c.thrVolt j) 31 16)).isSome
      (beyond v (bits (c.thrVolt j) 63 48) (bits (c.thrVolt j) 15 0)).isSome) (c.voltAlarm j v) :=
  Chip.alarmSample_noted ..

/-- What a voltage sample does after its alarm has moved. -/
theorem SampledBeside.voltAlarm_voltSample (key : Nat) (c : Chip) (j v : Nat) : SampledBeside key (c.voltAlarm j v) (c.voltSample j v) := by
  rw [Chip.voltSample_eq]
  split
  · exact .railCrit key _ _ _
  · exact .refl key _

theorem SampledBeside.voltSample (c : Chip) {key j : Nat} (v : Nat) (h : key ≠ 64 + j) : SampledBeside key c (c.voltSample j v) :=
  (((setVolt c v h).trans (stepAlarm _ _ _ h)).trans (of_noted key (c.voltAlarm_noted j v))).trans (voltAlarm_voltSample key c j v)

/-! Currents (R525). -/

/-- A current that a rail reads. -/
def Chip.setAmp (c : Chip) (k a : Nat) : Chip :=
  { c with mc := { c.mc with rails := SMap.set c.mc.rails k ((SMap.get (0, 0) c.mc.rails k).1, a) } }

theorem SampledBeside.setAmp (c : Chip) {key k : Nat} (a : Nat) (h : key ≠ 96 + k) : SampledBeside key c (c.setAmp k a) :=
  { SampledBeside.refl key c with
    amp := fun _ hk => congrArg Prod.snd (SMap.get_set_other _ _ _ fun hj => h (hj ▸ hk))
    vout := fun q => by
      simp only [Chip.setAmp, SMap.get_set]
      split
      · next hq => rw [hq]
      · rfl }

/-- The threshold register of current k. -/
def Chip.thrAmp (c : Chip) (k : Nat) : Word := SMap.get 0 c.mc.thrI k

theorem Chip.ampSample_noted (c : Chip) (k a : Nat) :
    Noted ((c.setAmp k a).stepAlarm (96 + k) (above a (bits (c.thrAmp k) 31 0)).isSome (above a (bits (c.thrAmp k) 63 32)).isSome)
      (c.ampSample k a) :=
  Chip.alarmSample_noted ..

theorem SampledBeside.ampSample (c : Chip) {key k : Nat} (a : Nat) (h : key ≠ 96 + k) : SampledBeside key c (c.ampSample k a) :=
  ((setAmp c a h).trans (stepAlarm _ _ _ h)).trans (of_noted key (c.ampSample_noted k a))

/-! The samples of the monitors and of the currents. -/

/-- The package after the samples of the monitors. -/
def Chip.voltSamples (c : Chip) (volts : List Nat) : Chip := volts.zipIdx.foldl (fun c p => c.voltSample p.2 p.1) c
/-- The package after the samples of the currents. -/
def Chip.ampSamples (c : Chip) (currents : List Nat) : Chip := currents.zipIdx.foldl (fun c p => c.ampSample p.2 p.1) c

theorem Chip.railSamples_eq (c : Chip) (volts currents : List Nat) : c.railSamples volts currents = (c.voltSamples volts).ampSamples currents :=
  rfl

theorem snd_lt_of_mem_zipIdx {α : Type} {l : List α} {p : α × Nat} (hp : p ∈ l.zipIdx) : p.2 < l.length :=
  (List.getElem?_eq_some_iff.mp (List.mk_mem_zipIdx_iff_getElem? (x := p.1) (i := p.2) |>.mp hp)).1

theorem SampledBeside.voltSamples (c : Chip) {volts : List Nat} (hlen : volts.length ≤ 32) (k : Nat) :
    SampledBeside (96 + k) c (c.voltSamples volts) :=
  foldl_rel (.refl _) .trans (fun s p hp => .voltSample s p.1 (by have := snd_lt_of_mem_zipIdx hp; omega)) c

theorem SampledBeside.ampSamples (c : Chip) (currents : List Nat) {j : Nat} (hj : j < 32) :
    SampledBeside (64 + j) c (c.ampSamples currents) :=
  foldl_rel (.refl _) .trans (fun s p _ => .ampSample s p.1 (by omega)) c

/-- What the samples leave of monitor j. -/
theorem Chip.railSamples_volt (c : Chip) {volts : List Nat} (currents : List Nat) {j v : Nat} (hv : volts[j]? = some v) (hj : j < 32) :
    ∃ u, SampledBeside (64 + j) c u ∧ SampledBeside (64 + j) (u.voltSample j v) (c.railSamples volts currents) := by
  obtain ⟨u, hu, hd⟩ := foldl_zipIdx_split (R := SampledBeside (64 + j)) (f := fun c (p : Nat × Nat) => c.voltSample p.2 p.1) (.refl _)
    .trans hv (fun s p hp => .voltSample s p.1 (by omega)) c
  exact ⟨u, hu, hd.trans (.ampSamples _ currents hj)⟩

/-- What the samples leave of current k. -/
theorem Chip.railSamples_amp (c : Chip) {volts currents : List Nat} {k a : Nat} (ha : currents[k]? = some a) (hlen : volts.length ≤ 32) :
    ∃ u, SampledBeside (96 + k) c u ∧ SampledBeside (96 + k) (u.ampSample k a) (c.railSamples volts currents) := by
  obtain ⟨u, hu, hd⟩ := foldl_zipIdx_split (R := SampledBeside (96 + k)) (f := fun c (p : Nat × Nat) => c.ampSample p.2 p.1) (.refl _)
    .trans ha (fun s p hp => .ampSample s p.1 (by omega)) (c.voltSamples volts)
  exact ⟨u, (SampledBeside.voltSamples c hlen k).trans hu, hd⟩

end Sys2Proof.Machine
end

section
/-! SUPPORT. What RAIL_POLL and RAIL_FAULT do, and what a voltage below its CRIT threshold does. -/

namespace Sys2Proof.Machine

theorem beyond_isSome_of_low {v hi low : Nat} (h : v < low) : (beyond v hi low).isSome = true := by
  unfold beyond below
  rw [if_pos h]
  cases above v hi <;> rfl

/-- A voltage that lies below its CRIT threshold for the third time in a row (R525, R606). -/
theorem Chip.voltSample_crit (c : Chip) {j v : Nat} (hv : v < bits (c.thrVolt j) 15 0) (hoff : (c.alarm (64 + j)).critOn = false)
    (htwo : (c.alarm (64 + j)).crit = 2) :
    let d := c.voltSample j v
    (d.alarm (64 + j)).critOn = true ∧ d.mc.events.getLsbD 1 = true ∧
      (∀ r, monitorRail j = some r → r ≠ 7 → d.rst.railsOff = true ∧ d.rst.railsOn = []) ∧
      (monitorRail j = some 7 → ∀ n, n < 64 → d.maxMhz n = 800) := by
  intro d
  have hsome : (beyond v (bits (c.thrVolt j) 63 48) (bits (c.thrVolt j) 15 0)).isSome = true := beyond_isSome_of_low hv
  have hnext : ∀ warn, ((c.alarm (64 + j)).next warn true).critOn = true := fun warn => Alarm.next_critOn warn hoff htwo
  have halarm : ((c.voltAlarm j v).alarm (64 + j)).critOn = true := by
    rw [(SampledBeside.of_noted (64 + j) (c.voltAlarm_noted j v)).alarm, Chip.alarm_stepAlarm, hsome]
    exact hnext _
  have hevents : (c.voltAlarm j v).mc.events.getLsbD 1 = true := by
    refine (c.setVolt j v).alarmSample_crit (64 + j) 1 j v _ _ _ ?_
    rw [hsome]
    change ((c.alarm (64 + j)).next _ true).critOn ≠ (c.alarm (64 + j)).critOn
    rw [hnext, hoff]
    decide
  have heq : d = (c.voltAlarm j v).railCrit j true := by
    rw [← decide_eq_true hv]
    exact (c.voltSample_eq j v).trans (if_pos ⟨halarm, hoff⟩)
  have hbeside := SampledBeside.voltAlarm_voltSample (64 + j) c j v
  refine ⟨hbeside.alarm ▸ halarm, hbeside.events 1 hevents, fun r hj hr => ?_, fun hj n hn => ?_⟩
  · rw [heq]
    exact Chip.railCrit_off _ true hj hr
  · rw [heq]
    exact Chip.railCrit_slow _ hj hn

theorem Chip.voltSample_volt (c : Chip) (j v : Nat) : SMap.get 0 (c.voltSample j v).mc.volts j = v :=
  ((SampledBeside.voltAlarm_voltSample (64 + j) c j v).volt j rfl).trans
    (((SampledBeside.of_noted (64 + j) (c.voltAlarm_noted j v)).volt j rfl).trans (SMap.get_set_same _ _ _ _))

theorem Chip.ampSample_amp (c : Chip) (k a : Nat) : (SMap.get (0, 0) (c.ampSample k a).mc.rails k).2 = a :=
  ((SampledBeside.of_noted (96 + k) (c.ampSample_noted k a)).amp k rfl).trans (congrArg Prod.snd (SMap.get_set_same _ _ _ _))

theorem Chip.ampSample_alarm (c : Chip) (k a : Nat) : (c.ampSample k a).alarm (96 + k) = (c.alarm (96 + k)).next
    (above a (bits (c.thrAmp k) 31 0)).isSome (above a (bits (c.thrAmp k) 63 32)).isSome :=
  (SampledBeside.of_noted (96 + k) (c.ampSample_noted k a)).alarm.trans (Chip.alarm_stepAlarm _ _ _ _)

/-! The poll of the rails (R523, R588). -/

theorem foldl_max_ge (l : List Nat) (m : Nat) : m ≤ l.foldl Nat.max m ∧ ∀ x ∈ l, x ≤ l.foldl Nat.max m := by
  induction l generalizing m with
  | nil => simp
  | cons a t ih =>
    obtain ⟨hm, ht⟩ := ih (Nat.max m a)
    refine ⟨(Nat.le_max_left m a).trans hm, List.forall_mem_cons.mpr ⟨(Nat.le_max_right m a).trans hm, ht⟩⟩

theorem foldl_max_le {l : List Nat} {b : Nat} (hl : ∀ x ∈ l, x ≤ b) {m : Nat} (hm : m ≤ b) : l.foldl Nat.max m ≤ b :=
  foldl_rel (R := fun s t => s ≤ b → t ≤ b) (fun _ h => h) (fun h g hs => g (h hs)) (fun _ a ha hs => Nat.max_le.mpr ⟨hs, hl a ha⟩) m hm

/-- What a core asks of VDD_FC (R588). -/
def Chip.fcNeed (c : Chip) (n : Nat) : Nat :=
  if (c.dom (2 * n)).state = .off then 0 else Nat.min 905 (Config.fcMillivolts n (c.curMhz n) c.free)

theorem Chip.fcNeed_le (c : Chip) (n : Nat) : c.fcNeed n ≤ 905 := by
  unfold Chip.fcNeed
  split
  · exact Nat.zero_le _
  · exact Nat.min_le_left _ _

/-- The setpoint of VDD_FC covers what every core needs (R588). -/
theorem Chip.vddFc_covers (c : Chip) : c.vddFc % 5 = 0 ∧ c.vddFc ≤ 950 ∧ ∀ n, n < 64 → c.fcNeed n + 45 ≤ c.vddFc := by
  have hle : ((List.range 64).map c.fcNeed).foldl Nat.max 0 ≤ 905 :=
    foldl_max_le (by simpa using fun n _ => c.fcNeed_le n) (Nat.zero_le _)
  have hge := (foldl_max_ge ((List.range 64).map c.fcNeed) 0).2
  have hv : c.vddFc = (((List.range 64).map c.fcNeed).foldl Nat.max 0 + 49) / 5 * 5 := rfl
  refine ⟨by omega, by omega, fun n hn => ?_⟩
  have := hge (c.fcNeed n) (List.mem_map_of_mem (List.mem_range.mpr hn))
  omega

/-- The readings of the rails after a poll. -/
theorem Mc.pollRails_rails (m : Mc) {readings : List (Nat × Nat)} {r : Nat} {p : Nat × Nat} (hp : readings[r]? = some p) :
    SMap.get (0, 0) (m.pollRails readings).rails r = p := by
  obtain ⟨u, -, hd⟩ := foldl_zipIdx_split (R := fun a b : SMap (Nat × Nat) => SMap.get (0, 0) b r = SMap.get (0, 0) a r)
    (f := fun a (p : (Nat × Nat) × Nat) => SMap.set a p.2 p.1) (fun _ => rfl) (fun h g => g.trans h) hp
    (fun a p hp => SMap.get_set_other _ _ _ (Ne.symm hp)) m.rails
  exact hd.trans (SMap.get_set_same _ _ _ _)

/-! A rail that fails silently (R523). -/

/-- An MC_EVENT bit leaves the rest of the MC alone. -/
theorem Chip.mcEvent_mc (c : Chip) (i : Nat) : { (c.mcEvent i).mc with events := c.mc.events } = c.mc := by
  unfold Chip.mcEvent
  dsimp only
  split
  · rfl
  · have hvec : ∀ d : Chip, ∀ l : List Nat, (l.foldl (fun c n => c.signalVec n (SMap.get 0 c.mc.irqVec n)) d).mc = d.mc := fun d l =>
      foldl_rel (R := fun c d : Chip => d.mc = c.mc) (f := fun c n => c.signalVec n (SMap.get 0 c.mc.irqVec n)) (fun _ => rfl)
        (fun h g => g.trans h) (fun c n _ => (congrArg Chip.mc (c.signalVec_rest n (SMap.get 0 c.mc.irqVec n)) :)) d
    rw [hvec]
    rfl

/-- An event is put at the end of a ring that has room. -/
theorem Chip.log_append (c : Chip) (code severity source : Nat) (payload : List Byte) (hrun : c.mc.running = true)
    (hroom : c.mc.ram.length < 4096) :
    ∃ e, (c.log code severity source payload).mc.ram = c.mc.ram ++ [e] ∧ e.seq = c.mc.seqNext ∧ e.code = BitVec.ofNat 16 code ∧
      e.severity = BitVec.ofNat 8 severity ∧ e.payload = payload ∧
      (c.log code severity source payload).mc.seqNext = c.mc.seqNext + 1 := by
  have hhas : c.mc.hasRoom = true := by simp [Mc.hasRoom, hroom]
  refine ⟨⟨c.mc.seqNext, c.tide, BitVec.ofNat 16 code, BitVec.ofNat 8 severity, BitVec.ofNat 8 source, payload⟩, ?_, rfl, rfl, rfl, rfl, ?_⟩ <;>
    simp [Chip.log, Chip.logNow, Mc.append, hrun, hhas, hroom]

/-- A silent regulator throttles, sets MC_EVENT.RAIL and is logged. -/
theorem Chip.railFault_noted (c : Chip) (rail : Nat) (word : BitVec 16) : Noted c.throttleAll (c.railFault rail word) :=
  (Noted.mcEvent _ 5).trans (.logRail _ _ _)

/-- A voltage and a current as the samples leave them. -/
theorem Chip.railSamples_readings (c : Chip) {volts currents : List Nat} {j k v a : Nat} (hv : volts[j]? = some v) (hj : j < 32)
    (ha : currents[k]? = some a) (hlen : volts.length ≤ 32) :
    let d := c.railSamples volts currents
    SMap.get 0 d.mc.volts j = v ∧ SMap.get (0, 0) d.mc.rails k = ((SMap.get (0, 0) c.mc.rails k).1, a) := by
  intro d
  obtain ⟨u, -, hvd⟩ := c.railSamples_volt currents hv hj
  obtain ⟨w, hw, had⟩ := c.railSamples_amp ha hlen
  refine ⟨(hvd.volt j rfl).trans (u.voltSample_volt j v), Prod.ext ?_ ((had.amp k rfl).trans (w.ampSample_amp k a))⟩
  exact (had.vout k).trans (((SampledBeside.ampSample (key := 96 + k + 1) w a (by omega)).vout k).trans (hw.vout k))

/-- A voltage below its CRIT threshold, as the samples of all monitors leave it. -/
theorem Chip.railSamples_crit (c : Chip) {volts : List Nat} (currents : List Nat) {j v : Nat} (hv : volts[j]? = some v) (hj : j < 32)
    (hlow : v < bits (c.thrVolt j) 15 0) (hoff : (c.alarm (64 + j)).critOn = false) (htwo : (c.alarm (64 + j)).crit = 2) :
    let d := c.railSamples volts currents
    (d.alarm (64 + j)).critOn = true ∧ d.mc.events.getLsbD 1 = true ∧
      (∀ r, monitorRail j = some r → r ≠ 7 → d.rst.railsOff = true ∧ d.rst.railsOn = []) ∧
      (monitorRail j = some 7 → ∀ n, n < 64 → d.maxMhz n = 800) := by
  intro d
  obtain ⟨u, hu, hd⟩ := c.railSamples_volt currents hv hj
  have hthr : u.thrVolt j = c.thrVolt j := by rw [Chip.thrVolt, hu.thrV]; rfl
  obtain ⟨halarm, hevents, hdown, hslow⟩ := u.voltSample_crit (hthr ▸ hlow) (hu.alarm ▸ hoff) (hu.alarm ▸ htwo)
  refine ⟨hd.alarm ▸ halarm, hd.events 1 hevents, fun r h1 h2 => ?_, fun h1 => hd.slow (hslow h1)⟩
  obtain ⟨hoff, hon⟩ := hdown r h1 h2
  exact hd.off hoff hon

/-- A current above its CRIT threshold for the third time in a row. -/
theorem Chip.railSamples_ampCrit (c : Chip) {volts currents : List Nat} {k a : Nat} (ha : currents[k]? = some a) (hlen : volts.length ≤ 32)
    (h0 : bits (c.thrAmp k) 63 32 ≠ 0) (hover : bits (c.thrAmp k) 63 32 < a) (hoff : (c.alarm (96 + k)).critOn = false)
    (htwo : (c.alarm (96 + k)).crit = 2) : ((c.railSamples volts currents).alarm (96 + k)).critOn = true := by
  obtain ⟨u, hu, hd⟩ := c.railSamples_amp ha hlen
  have hthr : u.thrAmp k = c.thrAmp k := by rw [Chip.thrAmp, hu.thrI]; rfl
  have hsome : (above a (bits (c.thrAmp k) 63 32)).isSome = true := above_isSome (by exact_mod_cast h0) (by exact_mod_cast hover)
  rw [hd.alarm, Chip.ampSample_alarm, hthr, hu.alarm, hsome]
  exact Alarm.next_critOn _ hoff htwo

/-- The levels of a sensor after the samples of all sensors (R525). -/
theorem Chip.tempSamples_levels (c : Chip) {temps : List Int} {i : Nat} {t : Int} (ht : temps[i]? = some t) (hi : i < 48) :
    let d := c.tempSamples temps
    (c.critT i ≠ 0 → c.critT i < t → (d.alarm i).crit = (c.alarm i).crit + 1 ∧
      ((c.alarm i).critOn = false → (c.alarm i).crit = 1 → (d.alarm i).critOn = false) ∧
      ((c.alarm i).critOn = false → (c.alarm i).crit = 2 → (d.alarm i).critOn = true ∧ d.mc.events.getLsbD 1 = true)) ∧
    (c.warnT i ≠ 0 → c.warnT i < t → (c.alarm i).warnOn = false → (c.alarm i).warn = 2 →
      (d.alarm i).warnOn = true ∧ d.mc.events.getLsbD 0 = true) ∧
    (t ≤ c.warnT i → t ≤ c.critT i → (c.alarm i).inside = 2 → (d.alarm i).warnOn = false ∧ (d.alarm i).critOn = false) := by
  intro d
  obtain ⟨-, halarm, hwarnOn, hcritOn⟩ := c.tempSamples_sensor ht hi
  change d.alarm i = _ at halarm
  refine ⟨fun h0 hover => ?_, fun h0 hover hoff htwo => ?_, fun hw hc hin => ?_⟩
  · have hcrit : (above t (c.critT i)).isSome = true := above_isSome h0 hover
    rw [hcrit] at halarm hcritOn
    rw [halarm]
    refine ⟨rfl, Alarm.next_critOn_second _, fun hoff htwo => ?_⟩
    have hnext := Alarm.next_critOn (above t (c.warnT i)).isSome hoff htwo
    exact ⟨hnext, hcritOn (by rw [hnext, hoff]; decide)⟩
  · have hwarn : (above t (c.warnT i)).isSome = true := above_isSome h0 hover
    rw [hwarn] at halarm hwarnOn
    have hnext := Alarm.next_warnOn (above t (c.critT i)).isSome hoff htwo
    rw [halarm]
    exact ⟨hnext, hwarnOn (by rw [hnext, hoff]; decide)⟩
  · have hwarn : (above t (c.warnT i)).isSome = false := above_isSome_of_le hw
    have hcrit : (above t (c.critT i)).isSome = false := above_isSome_of_le hc
    rw [halarm, hwarn, hcrit]
    exact Alarm.next_inside hin

theorem getElem?_of_length {α : Type} {l : List α} {n i : Nat} (h : l.length = n) (hi : i < n) : ∃ a, l[i]? = some a :=
  ⟨_, List.getElem?_eq_getElem (by omega)⟩

/-- Settles O54: what the samples beside a sensor leave alone, and the sensor's own sample; a poll and a fault of a rail. -/
theorem sensorsAndAlarms : Obligations.SensorsAndAlarms := by
  intro s temps volts currents readings rail i j k word hrun htemps htempsOk hvolts hvoltsOk hcurrents hcurrentsOk hreadings hreadingsOk
    hrail hi hj hk c alarm thr warn crit thrV thrI
  refine ⟨?_, ?_, ?_, ?_⟩
  · obtain ⟨t, ht⟩ := getElem?_of_length htemps hi
    have htemp := (c.tempSamples_sensor ht hi).1
    refine Completes.of_runIf rfl (decide_eq_true ⟨htemps, htempsOk⟩) ?_
    rw [if_pos hrun]
    refine ⟨by rw [htemp, ht], c.mem_tempSamples_crit temps hi, c.tempSamples_mem temps, c.tempSamples_cores temps, fun t' ht' => ?_⟩
    obtain rfl : t = t' := Option.some.inj (ht.symm.trans ht')
    exact c.tempSamples_levels ht hi
  · obtain ⟨v, hv⟩ := getElem?_of_length hvolts hj
    obtain ⟨a, ha⟩ := getElem?_of_length hcurrents hk
    obtain ⟨hvolt, hamp⟩ := c.railSamples_readings hv (by omega) ha (by omega)
    refine Completes.of_runIf rfl (decide_eq_true ⟨hvolts, hvoltsOk, hcurrents, hcurrentsOk⟩) ?_
    rw [if_pos hrun]
    refine ⟨by rw [hvolt, hv], by rw [hamp, ha], by rw [hamp], fun v hv hlow hoff htwo => ?_, fun a ha h0 hover hoff htwo => ?_⟩
    · exact c.railSamples_crit currents hv (by omega) hlow hoff htwo
    · exact c.railSamples_ampCrit ha (by omega) h0 hover hoff htwo
  · refine Completes.of_runIf rfl (decide_eq_true ⟨hreadings, hreadingsOk⟩) ?_
    rw [if_pos hrun]
    obtain ⟨hfive, hle, hcover⟩ := c.vddFc_covers
    refine ⟨fun _ => ?_, rfl, c.vddFc, rfl, hfive, hle, fun n hn hoff => ?_⟩
    · obtain ⟨p, hp⟩ := getElem?_of_length hreadings hrail
      exact hp.trans (congrArg some (c.mc.pollRails_rails hp).symm)
    · have := hcover n hn
      rwa [Chip.fcNeed, if_neg hoff] at this
  · refine Completes.of_runIf rfl (decide_eq_true hrail) ?_
    rw [if_pos hrun]
    have hnoted := c.railFault_noted rail word
    refine ⟨fun n hn => ?_, (Noted.logRail _ _ _).events 5 (Chip.mcEvent_events _ (by decide)), hnoted.mem, hnoted.cores, fun hroom => ?_⟩
    · rw [Chip.maxMhz, hnoted.pwr]
      exact c.maxMhz_throttleAll hn
    · have hmc := c.throttleAll.mcEvent_mc 5
      have hram : (c.throttleAll.mcEvent 5).mc.ram = c.mc.ram := (congrArg Mc.ram hmc :)
      have hseq : (c.throttleAll.mcEvent 5).mc.seqNext = c.mc.seqNext := (congrArg Mc.seqNext hmc :)
      have hrunning : (c.throttleAll.mcEvent 5).mc.running = true := (congrArg Mc.running hmc :).trans hrun
      obtain ⟨e, he, heseq, hcode, hsev, hpay, -⟩ := Chip.log_append (c.throttleAll.mcEvent 5) 0x0031 3 0x45
        (BitVec.ofNat 8 rail :: leBytes 2 word.toNat) hrunning (hram ▸ hroom)
      exact ⟨e, he.trans (by rw [hram]), heseq.trans hseq, hcode, hsev, hpay⟩

end Sys2Proof.Machine
end

section
/-! SUPPORT. The firmware's commands and starts, and Configuration Records (R529, R531 to R538, R542, R543). -/

namespace Sys2Proof.Machine

/-! The slots (R537). -/

@[simp] theorem Mc.other_setOther (m : Mc) (f : FwSlot) : (m.setOther f).other = f := by
  unfold Mc.setOther Mc.other
  cases m.runB <;> rfl

@[simp] theorem Mc.running_setOther (m : Mc) (f : FwSlot) : (m.setOther f).running_ = m.running_ := by
  unfold Mc.setOther Mc.running_
  cases m.runB <;> rfl

@[simp] theorem Mc.fwOp_setOther (m : Mc) (f : FwSlot) : (m.setOther f).fwOp = m.fwOp := by
  unfold Mc.setOther
  split <;> rfl

@[simp] theorem Mc.fwStatus_setOther (m : Mc) (f : FwSlot) : (m.setOther f).fwStatus = m.fwStatus := by
  unfold Mc.setOther
  split <;> rfl

/-! What ends a command (R527, R537). -/

/-- The MC stops. -/
theorem Chip.mcStop_running {c : Chip} (cause : Nat) (hrun : c.mc.running = true) :
    c.mcStop cause = { c with mc := { c.mc with running := false, startCause := BitVec.ofNat 8 cause, sessions := 0 } } := if_pos hrun

/-- The package with its firmware command over, what that signals apart. -/
def Chip.fwEnded (c : Chip) (status : Nat) : Chip := { c with mc := { c.mc with fwOp := none, fwStatus := BitVec.ofNat 4 status } }

theorem Chip.fwOver_noted (c : Chip) (op : FwOp) (b : Bool) (status : Nat) : Noted (c.fwEnded status) (c.fwOver op b status) :=
  (Noted.mcEvent _ 4).trans (.log _ _ _ _ _)

theorem Chip.fwOver_events (c : Chip) (op : FwOp) (b : Bool) (status : Nat) : (c.fwOver op b status).mc.events.getLsbD 4 = true :=
  (Noted.log _ _ _ _ _).events 4 (Chip.mcEvent_events _ (by decide))

/-- What a noted event leaves of the firmware. -/
theorem Noted.firmware {c d : Chip} (h : Noted c d) : d.mc.fwOp = c.mc.fwOp ∧ d.mc.fwStatus = c.mc.fwStatus ∧ d.mc.slotA = c.mc.slotA ∧
    d.mc.slotB = c.mc.slotB ∧ d.mc.runB = c.mc.runB ∧ d.mc.running = c.mc.running ∧ d.mc.committedB = c.mc.committedB ∧
    d.mc.trial = c.mc.trial ∧ d.mc.fuses = c.mc.fuses ∧ d.mc.other = c.mc.other ∧ d.mc.running_ = c.mc.running_ :=
  ⟨(congrArg Mc.fwOp h.mc :), (congrArg Mc.fwStatus h.mc :), (congrArg Mc.slotA h.mc :), (congrArg Mc.slotB h.mc :),
    (congrArg Mc.runB h.mc :), (congrArg Mc.running h.mc :), (congrArg Mc.committedB h.mc :), (congrArg Mc.trial h.mc :),
    (congrArg Mc.fuses h.mc :), (congrArg Mc.other h.mc :), (congrArg Mc.running_ h.mc :)⟩

/-- The image that MC_FW_ADDR and MC_FW_LEN name. -/
def Chip.image (c : Chip) : List Byte := c.bytes (bits c.mc.fwAddr 49 12 * 4096) (bits c.mc.fwLen 20 0)

/-- The MC with an INSTALL under way whose validation has found a verdict. -/
def Mc.installing (m : Mc) (verdict : Nat) : Mc := { m.fwBegin .install with fwResult := BitVec.ofNat 4 verdict }

/-! Commands that are not accepted (R543). -/

section
variable {c : Chip} (hrun : c.mc.running = true)
include hrun

theorem Chip.fw_busy (h : c.mc.fwOp.isSome = true) :
    c.fwInstall = c.fwRefuse 7 ∧ c.fwActivate = c.fwRefuse 7 ∧ c.fwCommit = c.fwRefuse 7 ∧ c.fwRevert = c.fwRefuse 7 := by
  simp [Chip.fwInstall, Chip.fwActivate, Chip.fwCommit, Chip.fwRevert, hrun, h]

theorem Chip.fwInstall_trial (h : c.mc.trial = true) : c.fwInstall = c.fwRefuse 7 := by
  simp [Chip.fwInstall, hrun, h]

theorem Chip.fw_noTrial (h : c.mc.trial = false) : c.fwCommit = c.fwRefuse 7 ∧ c.fwRevert = c.fwRefuse 7 := by
  simp [Chip.fwCommit, Chip.fwRevert, hrun, h]

theorem Chip.fwActivate_undrained (hop : c.mc.fwOp = none) (h : c.req.quiesced = false) : c.fwActivate = c.fwRefuse 6 := by
  simp [Chip.fwActivate, hrun, hop, h]

theorem Chip.fwRevert_undrained (hop : c.mc.fwOp = none) (ht : c.mc.trial = true) (h : c.req.quiesced = false) : c.fwRevert = c.fwRefuse 6 := by
  simp [Chip.fwRevert, hrun, hop, ht, h]

theorem Chip.fwActivate_unbootable (hop : c.mc.fwOp = none) (hq : c.req.quiesced = true) (h : c.mc.bootable c.mc.other = false) :
    c.fwActivate = c.fwRefuse 7 := by
  simp [Chip.fwActivate, hrun, hop, hq, h]

/-! Commands that are accepted (R537). -/

theorem Chip.fwInstall_accepted (hop : c.mc.fwOp = none) (ht : c.mc.trial = false) :
    c.fwInstall.mc = if c.mc.judgeImage c.image = 2 then
      (c.mc.installing (c.mc.judgeImage c.image)).setOther { slotFrom c.image with valid := false }
      else c.mc.installing (c.mc.judgeImage c.image) := by
  simp only [Chip.fwInstall, hrun, hop, ht, Bool.true_or, Bool.not_true, Option.isSome_none, Bool.or_self, Bool.false_eq_true, if_false]
  rfl

theorem Chip.fwActivate_accepted (hop : c.mc.fwOp = none) (hq : c.req.quiesced = true) (hb : c.mc.bootable c.mc.other = true) :
    c.fwActivate.mc = { c.mc.fwBegin .activate with
      trial := true, trialB := !c.mc.runB, attempted := false, running := false, startCause := 1, sessions := 0 } := by
  have hm : c.fwActivate =
      ({ c with mc := { c.mc.fwBegin .activate with trial := true, trialB := !c.mc.runB, attempted := false } }).mcStop 1 := by
    simp [Chip.fwActivate, hrun, hop, hq, hb]
  rw [hm]
  exact congrArg Chip.mc (Chip.mcStop_running 1 (by exact hrun))

theorem Chip.fwCommit_accepted (hop : c.mc.fwOp = none) (ht : c.mc.trial = true) : c.fwCommit = { c with mc := c.mc.fwBegin .commit } := by
  simp [Chip.fwCommit, hrun, hop, ht]

theorem Chip.fwRevert_accepted (hop : c.mc.fwOp = none) (ht : c.mc.trial = true) (hq : c.req.quiesced = true) :
    c.fwRevert.mc = { c.mc.fwBegin .revert with trial := false, running := false, startCause := 1, sessions := 0 } := by
  have hm : c.fwRevert = ({ c with mc := { c.mc.fwBegin .revert with trial := false } }).mcStop 1 := by
    simp [Chip.fwRevert, hrun, hop, ht, hq]
  rw [hm]
  exact congrArg Chip.mc (Chip.mcStop_running 1 (by exact hrun))

/-- COMMIT has blown its fuses (R542). -/
theorem Chip.commitFwDone_eq (hop : c.mc.fwOp = some .commit) : c.commitFwDone =
    ({ c with mc := { c.mc with committedB := c.mc.runB, trial := false, fuses := Nat.max c.mc.fuses c.mc.running_.rollback } }).fwOver
      .commit c.mc.runB 2 := by
  simp [Chip.commitFwDone, hrun, hop]

end

/-- INSTALL ends (R537). -/
theorem Chip.installDone_idle {c : Chip} (h : c.mc.fwOp ≠ some .install) : c.installDone = c := if_pos h

theorem Chip.installDone_valid {c : Chip} (h : c.mc.fwOp = some .install) (hr : c.mc.fwResult = 2) :
    c.installDone = ({ c with mc := c.mc.setOther { c.mc.other with valid := true } }).fwOver .install (!c.mc.runB) 2 := by
  simp [Chip.installDone, h, hr]

theorem Chip.installDone_invalid {c : Chip} (h : c.mc.fwOp = some .install) (hr : c.mc.fwResult ≠ 2) :
    c.installDone = c.fwOver .install (!c.mc.runB) c.mc.fwResult.toNat :=
  (if_neg (not_not.mpr h)).trans (if_pos hr)

/-! The MC's start (R529, R538). -/

/-- What the boot block changes before it starts a slot. -/
theorem Mc.bootFirst_frame (m : Mc) :
    { m.bootFirst.1 with attempted := m.attempted, trial := m.trial } = m := by
  unfold Mc.bootFirst
  split <;> rfl

/-- The package as the firmware starts from a slot, nothing logged yet. -/
def Chip.booting (c : Chip) (m : Mc) (b : Bool) : Chip :=
  { c with mc := { m with running := true, runB := b, ram := [], copied := 0, seqNext := m.resumeSeq, held := [] } }

/-- BOOT is logged (R529). -/
def Chip.booted (c : Chip) (m : Mc) (b : Bool) : Chip :=
  (c.booting m b).logGap.log 0x0001 0 0x44
    ([BitVec.ofNat 8 (bitAt b 0), BitVec.ofNat 8 m.fuses, m.startCause] ++ leBytes 4 (m.slotOf b).version.toNat)

/-- What waited while the MC restarted is logged (R544). -/
def Chip.caughtUp (c : Chip) (m : Mc) (b : Bool) : Chip := m.held.foldl (fun c e => c.logNow e) (c.booted m b)

theorem Chip.caughtUp_noted (c : Chip) (m : Mc) (b : Bool) : Noted (c.booting m b) (c.caughtUp m b) :=
  ((Noted.logGap _).trans (.log _ _ _ _ _)).trans (.foldl .logNow _ _)

theorem Chip.firmwareRuns_restart {c : Chip} (m : Mc) (b : Bool) (h : c.rst.phase ≠ .mcBoot) :
    c.firmwareRuns m b = match m.fwOp with
      | some .activate => (c.caughtUp m b).fwOver .activate b 2
      | some .revert => (c.caughtUp m b).fwOver .revert b 2
      | _ => c.caughtUp m b := if_neg h

/-- The firmware runs after a restart. -/
theorem Chip.firmwareRuns_runs {c : Chip} (m : Mc) (b : Bool) (h : c.rst.phase ≠ .mcBoot) :
    let d := c.firmwareRuns m b
    d.mc.running = true ∧ d.mc.runB = b ∧ d.mem = c.mem ∧ d.cores = c.cores := by
  have hup := c.caughtUp_noted m b
  have hover : ∀ op, Noted ((c.caughtUp m b).fwEnded 2) ((c.caughtUp m b).fwOver op b 2) := fun op => Chip.fwOver_noted _ op b 2
  obtain ⟨-, -, -, -, hrunB, hrun, -⟩ := hup.firmware
  have hidle : ∀ op, let d := (c.caughtUp m b).fwOver op b 2
      d.mc.running = true ∧ d.mc.runB = b ∧ d.mem = c.mem ∧ d.cores = c.cores := fun op => by
    obtain ⟨-, -, -, -, hrunB', hrun', -⟩ := (hover op).firmware
    exact ⟨hrun'.trans hrun, hrunB'.trans hrunB, (hover op).mem.trans hup.mem, (hover op).cores.trans hup.cores⟩
  rw [Chip.firmwareRuns_restart m b h]
  split
  · exact hidle _
  · exact hidle _
  · exact ⟨hrun, hrunB, hup.mem, hup.cores⟩

/-- BOOT is the first entry of the log after a restart (R529). -/
theorem Chip.firmwareRuns_boot {c : Chip} {m : Mc} (b : Bool) (h : c.rst.phase ≠ .mcBoot) (hgap : m.gapCount = 0) (hheld : m.held = [])
    (hop : m.fwOp = none) :
    ∃ e, (c.firmwareRuns m b).mc.ram = [e] ∧ e.code = 1 ∧ e.seq = m.resumeSeq ∧ (c.firmwareRuns m b).mc.seqNext = m.resumeSeq + 1 := by
  have heq : c.firmwareRuns m b = c.booted m b := by
    rw [Chip.firmwareRuns_restart m b h, hop, Chip.caughtUp, hheld]
    rfl
  have hnogap : (c.booting m b).logGap = c.booting m b := by
    rw [Chip.logGap, if_neg]
    simp [Chip.booting, hgap]
  obtain ⟨e, hram, hseq, hcode, -, -, hnext⟩ := (c.booting m b).log_append 0x0001 0 0x44
    ([BitVec.ofNat 8 (bitAt b 0), BitVec.ofNat 8 m.fuses, m.startCause] ++ leBytes 4 (m.slotOf b).version.toNat) rfl (Nat.zero_lt_succ _)
  rw [heq, Chip.booted, hnogap]
  exact ⟨e, hram, hcode, hseq, hnext⟩

section
variable {c : Chip} (haon : c.aon = true) (hrun : c.mc.running = false) (hrec : c.mc.recovery = false)
include haon hrun hrec

theorem Chip.mcStart_slot {b : Bool} (h : c.mc.bootFirst.1.bootSlot c.mc.bootFirst.2 = some b) :
    c.mcStart = c.firmwareRuns c.mc.bootFirst.1 b := by
  simp [Chip.mcStart, haon, hrun, hrec, h]

theorem Chip.mcStart_recovery (h : c.mc.bootFirst.1.bootSlot c.mc.bootFirst.2 = none) (hphase : c.rst.phase ≠ .mcBoot) :
    c.mcStart = { c with mc := { c.mc.bootFirst.1 with recovery := true } } := by
  simp [Chip.mcStart, haon, hrun, hrec, h, hphase]

end

theorem Chip.mcStart_none {c : Chip} (h : c.aon = false ∨ c.mc.running = true ∨ c.mc.recovery = true) : c.mcStart = c := by
  unfold Chip.mcStart
  rcases h with h | h | h <;> simp [h]

end Sys2Proof.Machine
end

section
/-! SUPPORT. Configuration Records (R531 to R534), and the statement about firmware and configuration. -/

namespace Sys2Proof.Machine

/-! Bytes of a field. -/

theorem getD_sliceB (l : List Byte) (o : Nat) {k n : Nat} (h : n < k) : (sliceB l o k).getD n 0 = l.getD (o + n) 0 := by
  unfold sliceB
  dsimp only
  rw [List.getD_eq_getElem?_getD, List.getD_eq_getElem?_getD, List.getElem?_append]
  split
  · rw [List.getElem?_take_of_lt h, List.getElem?_drop]
  · next hlen =>
    rw [List.length_take, List.length_drop] at hlen
    rw [List.getElem?_eq_none (i := o + n) (by omega), List.getElem?_replicate]
    split <;> rfl

theorem fieldB_one (l : List Byte) (o : Nat) : fieldB l o 1 = (l.getD o 0).toNat := by
  have h := getD_sliceB l o (k := 1) (n := 0) (by decide)
  unfold fieldB
  obtain ⟨b, hb⟩ : ∃ b, sliceB l o 1 = [b] := List.length_eq_one_iff.mp (by simp [sliceB])
  rw [hb] at h ⊢
  simpa [leNat] using congrArg BitVec.toNat h

/-! A record and its check (R534). -/

/-- The Configuration Record that MC_CFG_ADDR names. -/
def Chip.record (c : Chip) : List Byte := c.bytes (bits c.mc.cfgAddr 49 6 * 64) 4096

/-- The item of a record. -/
def recordItem (r : List Byte) : Nat := fieldB r 4 1

/-- The check of a JTAG_UNLOCK renews the nonce. -/
def Chip.renonced (c : Chip) (nonce : Word) : Chip :=
  if recordItem c.record = 9 ∧ (c.recordFault c.record = none ∨ c.recordFault c.record = some 7) then
    { c with mc := { c.mc with nonce := nonce } } else c

theorem Chip.renonced_rest (c : Chip) (nonce : Word) : let d := c.renonced nonce
    d.ports = c.ports ∧ d.mc.ram = c.mc.ram ∧ d.mc.cfg = c.mc.cfg ∧ d.mc.jtagOpen = c.mc.jtagOpen := by
  unfold Chip.renonced
  split <;> exact ⟨rfl, rfl, rfl, rfl⟩

/-- What a noted event leaves of the configuration. -/
theorem Noted.config {c d : Chip} (h : Noted c d) :
    d.mc.cfg = c.mc.cfg ∧ d.mc.cfgStatus = c.mc.cfgStatus ∧ d.mc.nonce = c.mc.nonce ∧ d.mc.jtagOpen = c.mc.jtagOpen :=
  ⟨(congrArg Mc.cfg h.mc :), (congrArg Mc.cfgStatus h.mc :), (congrArg Mc.nonce h.mc :), (congrArg Mc.jtagOpen h.mc :)⟩

/-- A record put into the configuration. -/
def Chip.storing (c : Chip) (r : List Byte) : Chip :=
  { c with mc := { c.mc with
    cfg := { c.mc.cfg.put (recordItem r) (fieldB r 5 1) (sliceB r 0x20 (fieldB r 0x18 4)) with seq := w64 (fieldB r 0x10 8) } } }

/-- A record stored, what its item does at once included (R534). -/
def Chip.stored (c : Chip) (r : List Byte) : Chip :=
  (((c.storing r).log 0x0005 0 0x44 [BitVec.ofNat 8 (recordItem r), BitVec.ofNat 8 (if keyItem (recordItem r) then fieldB r 5 1 else 0)]).itemActs
    (recordItem r) (fieldB r 6 1) (sliceB r 0x20 (fieldB r 0x18 4))).cfgOver 2

section
variable {c : Chip} (nonce : Word) (hrun : c.mc.running = true) (hstatus : c.mc.cfgStatus = 1)
include hrun hstatus

theorem Chip.cfgDone_unsigned (h : c.recordFault c.record = some 3) : c.cfgDone nonce =
    (((c.renonced nonce).spend.cfgOver 3).log 0x0051 1 0x44 [c.free.setWidth 8, (c.free >>> 8).setWidth 8]) := by
  unfold Chip.renonced Chip.record recordItem at *
  simp [Chip.cfgDone, hrun, hstatus, h]

theorem Chip.cfgDone_refused {e : Nat} (h : c.recordFault c.record = some e) (he : e ≠ 3) :
    c.cfgDone nonce = (c.renonced nonce).cfgOver e := by
  unfold Chip.renonced Chip.record recordItem at *
  simp [Chip.cfgDone, hrun, hstatus, h]

theorem Chip.cfgDone_stored (h : c.recordFault c.record = none) : c.cfgDone nonce = (c.renonced nonce).stored c.record := by
  unfold Chip.stored Chip.storing Chip.renonced Chip.record recordItem at *
  simp [Chip.cfgDone, hrun, hstatus, h]

end

/-- A record that is stored has the length of its item (R533). -/
theorem Chip.itemLen_of_recordFault {c : Chip} {r : List Byte} (h : c.recordFault r = none) : itemLen (recordItem r) (fieldB r 0x18 4) = true := by
  by_contra hlen
  have hbad : c.recordFault r = some 4 := if_pos (.inr (.inl (Bool.eq_false_iff.mpr hlen)))
  rw [h] at hbad
  exact absurd hbad (by simp)

/-- What an item does at once to the MC (R524, R533). -/
theorem Chip.itemActs_mc (c : Chip) (item signer : Nat) (v : List Byte) :
    let d := c.itemActs item signer v
    d.mc.cfg = c.mc.cfg ∧ d.mc.nonce = c.mc.nonce ∧ d.mc.jtagOpen = if item = 9 then true else c.mc.jtagOpen := by
  unfold Chip.itemActs
  split
  · next h => simp [h]
  · split
    · obtain ⟨hcfg, -, hnonce, hjtag⟩ := (Noted.log { c with mc := { c.mc with jtagOpen := true, jtagSlot := signer / 2 % 4 } } 0x0050 1 0x44
        [1, BitVec.ofNat 8 (signer / 2 % 4)]).config
      exact ⟨hcfg, hnonce, hjtag⟩
    · exact ⟨rfl, rfl, rfl⟩

/-- PORTn_ACCESS is written (R402). -/
theorem Chip.itemActs_access (c : Chip) (signer : Nat) (v : List Byte) {n : Nat} (hn : n < 4) :
    ((c.itemActs 4 signer v).port n).access = (v.getD n 0).setWidth 3 := by
  have hports : (c.itemActs 4 signer v).ports =
      (List.range 4).map fun n => (n, { c.port n with access := (v.getD n 0).setWidth 3 }) := rfl
  rw [Chip.port, hports, SMap.get_map_range, if_pos hn]

/-- A record that is refused (R534). -/
theorem Chip.cfgDone_fault {c : Chip} (nonce : Word) (hrun : c.mc.running = true) (hstatus : c.mc.cfgStatus = 1) {e : Nat}
    (h : c.recordFault c.record = some e) :
    let d := c.cfgDone nonce
    d.mc.cfgStatus = BitVec.ofNat 4 e ∧ d.mc.cfg = c.mc.cfg ∧ (e ≠ 3 → d.ports = c.ports ∧ d.mc.ram = c.mc.ram) := by
  intro d
  obtain ⟨hports, hram, hcfg, -⟩ := c.renonced_rest nonce
  by_cases he : e = 3
  · subst he
    have heq : d = _ := Chip.cfgDone_unsigned nonce hrun hstatus h
    rw [heq]
    generalize c.renonced nonce = u at hcfg
    obtain ⟨hcfg', hstatus', -⟩ := (Noted.log (u.spend.cfgOver 3) 0x0051 1 0x44 [c.free.setWidth 8, (c.free >>> 8).setWidth 8]).config
    exact ⟨hstatus', hcfg'.trans hcfg, fun h => absurd rfl h⟩
  · have heq : d = _ := Chip.cfgDone_refused nonce hrun hstatus h he
    rw [heq]
    generalize c.renonced nonce = u at hports hram hcfg
    exact ⟨rfl, hcfg, fun _ => ⟨hports, hram⟩⟩

theorem Chip.renonced_nonce {c : Chip} (nonce : Word) (h : c.recordFault c.record = none) :
    (c.renonced nonce).mc.nonce = if recordItem c.record = 9 then nonce else c.mc.nonce := by
  unfold Chip.renonced
  by_cases h9 : recordItem c.record = 9
  · rw [if_pos ⟨h9, .inl h⟩, if_pos h9]
  · rw [if_neg (fun hk => h9 hk.1), if_neg h9]

theorem Chip.stored_mc (c : Chip) (r : List Byte) : let d := c.stored r
    d.mc.cfgStatus = 2 ∧ d.mc.cfg = (c.storing r).mc.cfg ∧ d.mc.nonce = c.mc.nonce ∧
      d.mc.jtagOpen = if recordItem r = 9 then true else c.mc.jtagOpen := by
  unfold Chip.stored
  dsimp only
  obtain ⟨hcfg, -, hnonce, hjtag⟩ := (Noted.log (c.storing r) 0x0005 0 0x44 [BitVec.ofNat 8 (recordItem r),
    BitVec.ofNat 8 (if keyItem (recordItem r) then fieldB r 5 1 else 0)]).config
  generalize (c.storing r).log _ _ _ _ = u at hcfg hnonce hjtag ⊢
  obtain ⟨hcfg', hnonce', hjtag'⟩ := u.itemActs_mc (recordItem r) (fieldB r 6 1) (sliceB r 0x20 (fieldB r 0x18 4))
  exact ⟨rfl, hcfg'.trans hcfg, hnonce'.trans hnonce, hjtag'.trans (by rw [hjtag]; rfl)⟩

/-- PORTn_ACCESS of a record that is stored (R402). -/
theorem Chip.stored_access (c : Chip) {r : List Byte} (hlen : itemLen (recordItem r) (fieldB r 0x18 4) = true) (h4 : recordItem r = 4) {n : Nat}
    (hn : n < 4) : ((c.stored r).port n).access = BitVec.ofNat 3 (fieldB r (0x20 + n) 1) := by
  unfold Chip.stored
  rw [h4] at hlen
  have hfour : fieldB r 0x18 4 = 4 := by simpa [itemLen] using hlen
  generalize (c.storing r).log _ _ _ _ = u
  rw [h4, hfour]
  refine (u.itemActs_access (fieldB r 6 1) _ hn).trans ?_
  rw [getD_sliceB _ _ hn, fieldB_one]
  rfl

/-- A record that is stored (R533, R534). -/
theorem Chip.cfgDone_none {c : Chip} (nonce : Word) (hrun : c.mc.running = true) (hstatus : c.mc.cfgStatus = 1)
    (h : c.recordFault c.record = none) :
    let d := c.cfgDone nonce
    let r := c.record
    let item := fieldB r 4 1
    d.mc.cfgStatus = 2 ∧
      d.mc.cfg = { c.mc.cfg.put item (fieldB r 5 1) (sliceB r 0x20 (fieldB r 0x18 4)) with seq := BitVec.ofNat 64 (fieldB r 0x10 8) } ∧
      (item = 9 → d.mc.jtagOpen = true ∧ d.mc.nonce = nonce) ∧ (item ≠ 9 → d.mc.jtagOpen = c.mc.jtagOpen ∧ d.mc.nonce = c.mc.nonce) ∧
      (item = 4 → ∀ n, n < 4 → (d.port n).access = BitVec.ofNat 3 (fieldB r (0x20 + n) 1)) := by
  intro d r item
  obtain ⟨-, -, hcfg, hjtag⟩ := c.renonced_rest nonce
  have hnonce := Chip.renonced_nonce nonce h
  have heq : d = (c.renonced nonce).stored r := Chip.cfgDone_stored nonce hrun hstatus h
  rw [heq]
  generalize c.renonced nonce = u at hcfg hjtag hnonce
  obtain ⟨hstatus', hcfg', hnonce', hjtag'⟩ := u.stored_mc r
  refine ⟨hstatus', hcfg'.trans ?_, fun h9 => ⟨hjtag'.trans (if_pos h9), (hnonce'.trans hnonce).trans (if_pos h9)⟩,
    fun h9 => ⟨(hjtag'.trans (if_neg h9)).trans hjtag, (hnonce'.trans hnonce).trans (if_neg h9)⟩,
    fun h4 n hn => u.stored_access (Chip.itemLen_of_recordFault h) h4 hn⟩
  exact congrArg (fun g : ConfigStore =>
    { g.put item (fieldB r 5 1) (sliceB r 0x20 (fieldB r 0x18 4)) with seq := BitVec.ofNat 64 (fieldB r 0x10 8) }) hcfg

/-! The statement. -/

theorem Chip.cfgApply_eq (m : Mc) : m.cfgApply = { m with cfgStatus := 1 } := by
  unfold Mc.cfgApply
  split
  · next h => rw [← h]
  · rfl

/-- The slots of the firmware are as they were. -/
def Mc.sameSlots (m n : Mc) : Prop := n.slotA = m.slotA ∧ n.slotB = m.slotB

/-- INSTALL begins (R537). -/
theorem Chip.fwInstall_spec {c : Chip} (hrun : c.mc.running = true) (hop : c.mc.fwOp = none) (ht : c.mc.trial = false) :
    let m := c.fwInstall.mc
    m.fwOp = some .install ∧ m.fwStatus = 1 ∧ (c.mc.judgeImage c.image ≠ 2 → c.mc.sameSlots m) ∧
      (c.mc.judgeImage c.image = 2 → m.other = { slotFrom c.image with valid := false } ∧ m.running_ = c.mc.running_) := by
  rw [Chip.fwInstall_accepted hrun hop ht]
  split
  · next hv =>
    exact ⟨Mc.fwOp_setOther _ _, Mc.fwStatus_setOther _ _, fun h => absurd hv h, fun _ => ⟨Mc.other_setOther _ _, Mc.running_setOther _ _⟩⟩
  · next hv => exact ⟨rfl, rfl, fun _ => ⟨rfl, rfl⟩, fun h => absurd h hv⟩

/-- COMMIT ends (R542). -/
theorem Chip.commitFwDone_spec {c : Chip} (hrun : c.mc.running = true) (hop : c.mc.fwOp = some .commit) :
    let d := c.commitFwDone
    d.mc.committedB = c.mc.runB ∧ d.mc.trial = false ∧ d.mc.fwOp = none ∧ d.mc.fwStatus = 2 ∧
      d.mc.fuses = Nat.max c.mc.fuses c.mc.running_.rollback ∧ d.mc.events.getLsbD 4 = true ∧ c.mc.sameSlots d.mc := by
  intro d
  have heq : d = _ := Chip.commitFwDone_eq hrun hop
  rw [heq]
  obtain ⟨hop, hstatus, hA, hB, -, -, hcommitted, htrial, hfuses, -⟩ := (Chip.fwOver_noted ({ c with mc := { c.mc with
    committedB := c.mc.runB, trial := false, fuses := Nat.max c.mc.fuses c.mc.running_.rollback } }) .commit c.mc.runB 2).firmware
  exact ⟨hcommitted, htrial, hop, hstatus, hfuses, Chip.fwOver_events _ _ _ _, hA, hB⟩

/-- INSTALL ends (R537). -/
theorem Chip.installDone_spec {c : Chip} (hop : c.mc.fwOp = some .install) :
    let d := c.installDone
    d.mc.fwOp = none ∧ d.mc.fwStatus = c.mc.fwResult ∧ d.mc.events.getLsbD 4 = true ∧
      (c.mc.fwResult = 2 → d.mc.other = { c.mc.other with valid := true } ∧ d.mc.running_ = c.mc.running_) ∧
      (c.mc.fwResult ≠ 2 → c.mc.sameSlots d.mc) := by
  intro d
  by_cases hr : c.mc.fwResult = 2
  · have heq : d = _ := Chip.installDone_valid hop hr
    rw [heq]
    obtain ⟨hop', hstatus, -, -, -, -, -, -, -, hother, hrunning⟩ := (Chip.fwOver_noted
      ({ c with mc := c.mc.setOther { c.mc.other with valid := true } }) .install (!c.mc.runB) 2).firmware
    exact ⟨hop', hstatus.trans hr.symm, Chip.fwOver_events _ _ _ _, fun _ => ⟨hother.trans (Mc.other_setOther _ _),
      hrunning.trans (Mc.running_setOther _ _)⟩, fun h => absurd hr h⟩
  · have heq : d = _ := Chip.installDone_invalid hop hr
    rw [heq]
    obtain ⟨hop', hstatus, hA, hB, -⟩ := (c.fwOver_noted .install (!c.mc.runB) c.mc.fwResult.toNat).firmware
    exact ⟨hop', hstatus.trans (BitVec.ofNat_toNat _ _), Chip.fwOver_events _ _ _ _, fun h => absurd h hr, fun _ => ⟨hA, hB⟩⟩

/-- The MC starts (R529, R538). -/
theorem Chip.mcStart_spec {c : Chip} (haon : c.aon = true) (hrun : c.mc.running = false) (hrec : c.mc.recovery = false)
    (hphase : c.rst.phase ≠ .mcBoot) {b : Bool} (hslot : c.mc.bootFirst.1.bootSlot c.mc.bootFirst.2 = some b) :
    let d := c.mcStart
    d.mc.running = true ∧ d.mc.runB = b ∧ d.mem = c.mem ∧ d.cores = c.cores ∧ (c.mc.gapCount = 0 → c.mc.held = [] → c.mc.fwOp = none →
      ∃ e, d.mc.ram = [e] ∧ e.code = 1 ∧ e.seq = c.mc.resumeSeq ∧ d.mc.seqNext = c.mc.resumeSeq + 1) := by
  intro d
  have heq : d = _ := Chip.mcStart_slot haon hrun hrec hslot
  have hframe := c.mc.bootFirst_frame
  have hseq : c.mc.bootFirst.1.resumeSeq = c.mc.resumeSeq := (congrArg Mc.resumeSeq hframe :)
  obtain ⟨hruns, hb, hmem, hcores⟩ := Chip.firmwareRuns_runs (c := c) c.mc.bootFirst.1 b hphase
  rw [heq]
  refine ⟨hruns, hb, hmem, hcores, fun hgap hheld hop => ?_⟩
  rw [← hseq]
  exact Chip.firmwareRuns_boot b hphase ((congrArg Mc.gapCount hframe :).trans hgap) ((congrArg Mc.held hframe :).trans hheld)
    ((congrArg Mc.fwOp hframe :).trans hop)

/-- Settles O55: each command by its guards, and what ends a command or starts the MC up to the events that it notes. -/
theorem firmwareAndConfiguration : Obligations.FirmwareAndConfiguration := by
  intro s nonce b c m image verdict slots turned r item boot
  have install {p : Chip → Prop} (h : p c.fwInstall) : Completes s .fwInstall p := .of_run (f := fun c => c.fwInstall) rfl h
  have activate {p : Chip → Prop} (h : p c.fwActivate) : Completes s .fwActivate p := .of_run (f := fun c => c.fwActivate) rfl h
  have commit {p : Chip → Prop} (h : p c.fwCommit) : Completes s .fwCommit p := .of_run (f := fun c => c.fwCommit) rfl h
  have revert {p : Chip → Prop} (h : p c.fwRevert) : Completes s .fwRevert p := .of_run (f := fun c => c.fwRevert) rfl h
  have start {p : Chip → Prop} (h : p c.mcStart) : Completes s .mcStart p := .of_run (f := fun c => c.mcStart) rfl h
  have installed {p : Chip → Prop} (h : p c.installDone) : Completes s .fwInstallDone p := .of_run (f := fun c => c.installDone) rfl h
  have applied {p : Chip → Prop} (h : p (c.cfgDone nonce)) : Completes s (.cfgApplyDone nonce) p :=
    .of_run (f := fun c => c.cfgDone nonce) rfl h
  refine ⟨fun hrun => ⟨fun hop => ?_, fun _ ht => install (Chip.fwInstall_trial hrun ht), fun hop ht => ?_, fun hop hq => ?_,
    fun hop hq hb => activate (Chip.fwActivate_unbootable hrun hop hq hb), fun hop hq hb => activate ?_,
    fun hop ht => commit (Chip.fwCommit_accepted hrun hop ht), fun hop ht hq => revert ?_, fun hop => ?_, ?_, fun hstatus => ?_⟩,
    fun hop => installed (Chip.installDone_idle hop), fun hop => ?_, fun haon hrun hrec hphase => ⟨fun hslot => start ?_, fun hslot => start ?_⟩,
    fun h => start (Chip.mcStart_none h)⟩
  · obtain ⟨h1, h2, h3, h4⟩ := Chip.fw_busy hrun hop
    exact ⟨install h1, activate h2, commit h3, revert h4⟩
  · obtain ⟨hc, hr⟩ := Chip.fw_noTrial hrun ht
    exact ⟨commit hc, revert hr, install (Chip.fwInstall_spec hrun hop ht)⟩
  · exact ⟨activate (Chip.fwActivate_undrained hrun hop hq), fun ht => revert (Chip.fwRevert_undrained hrun hop ht hq)⟩
  · have hm := Chip.fwActivate_accepted hrun hop hq hb
    exact ⟨(congrArg Mc.running hm :), (congrArg Mc.trial hm :), (congrArg Mc.trialB hm :), (congrArg Mc.attempted hm :), (congrArg Mc.fwOp hm :),
      (congrArg Mc.slotA hm :), (congrArg Mc.slotB hm :)⟩
  · have hm := Chip.fwRevert_accepted hrun hop ht hq
    exact ⟨(congrArg Mc.running hm :), (congrArg Mc.trial hm :), (congrArg Mc.committedB hm :), (congrArg Mc.fwOp hm :), (congrArg Mc.slotA hm :),
      (congrArg Mc.slotB hm :)⟩
  · exact .of_run (f := fun c => c.commitFwDone) rfl (Chip.commitFwDone_spec hrun hop)
  · refine .of_run (f := fun c => if c.mc.running then { c with mc := c.mc.cfgApply } else c) rfl ?_
    rw [if_pos hrun, Chip.cfgApply_eq]
  · exact ⟨fun e he => applied (Chip.cfgDone_fault nonce hrun hstatus he), fun h => applied (Chip.cfgDone_none nonce hrun hstatus h)⟩
  · obtain ⟨hdone, hstatus, hevents, hvalid, hinvalid⟩ := Chip.installDone_spec hop
    refine ⟨fun hr => installed ?_, fun hr => installed ?_⟩
    · obtain ⟨hother, hrunning⟩ := hvalid hr
      exact ⟨hdone, hstatus.trans hr, hother, hrunning, hevents⟩
    · exact ⟨hdone, hstatus, hinvalid hr, hevents⟩
  · exact Chip.mcStart_spec haon hrun hrec hphase hslot
  · rw [Chip.mcStart_recovery haon hrun hrec hslot hphase]
    exact ⟨rfl, (congrArg Mc.running c.mc.bootFirst_frame :).trans hrun, rfl⟩

end Sys2Proof.Machine
end

section
/-! SUPPORT. Resets, rails, training, the zero-fill, warm restart and thermal trip (R547 to R567, R599 to R606). -/

namespace Sys2Proof.Machine

/-! Links that change one by one. -/

/-- Links that are visited once each, each changed by what it was alone, as long as something holds that every visit keeps. -/
theorem foldl_links_of {P : Chip → Prop} {f : Chip → Nat → Chip} {g : Link → Nat → Link} (hP : ∀ c n, P c → P (f c n))
    (hf : ∀ c n m, P c → (f c n).link m = if n = m then g (c.link m) m else c.link m) {l : List Nat} (hnodup : l.Nodup) {c : Chip} (h : P c)
    (m : Nat) : (l.foldl f c).link m = if m ∈ l then g (c.link m) m else c.link m := by
  induction l generalizing c with
  | nil => rfl
  | cons n t ih =>
    obtain ⟨hn, ht⟩ := List.nodup_cons.mp hnodup
    rw [List.foldl_cons, ih ht (hP c n h), hf c n m h]
    by_cases hm : n = m
    · subst hm
      simp [hn]
    · simp [hm, Ne.symm hm]

/-- Links that are visited once each, each changed by what it was alone. -/
theorem foldl_links {f : Chip → Nat → Chip} {g : Link → Nat → Link}
    (hf : ∀ c n m, (f c n).link m = if n = m then g (c.link m) m else c.link m) {l : List Nat} (hnodup : l.Nodup) (c : Chip) (m : Nat) :
    (l.foldl f c).link m = if m ∈ l then g (c.link m) m else c.link m :=
  foldl_links_of (P := fun _ => True) (fun _ _ h => h) (fun c n m _ => hf c n m) hnodup trivial m

/-- What the package is beside its links. -/
def Chip.sameButLinks (c d : Chip) : Prop := { d with links := c.links } = c

theorem Chip.sameButLinks_refl (c : Chip) : c.sameButLinks c := rfl

theorem Chip.sameButLinks_trans {c d e : Chip} (h : c.sameButLinks d) (g : d.sameButLinks e) : c.sameButLinks e := by
  unfold Chip.sameButLinks at *
  exact (congrArg (fun x : Chip => { x with links := c.links }) g :).trans h

/-! READY, and what resets leave (R548, R564, R577). -/

theorem Chip.ready_rst (c : Chip) (high : Bool) : (c.ready high).rst = { c.rst with ready := high } := by
  unfold Chip.ready
  split
  · next h => rw [← h]
  · rfl

theorem Chip.ready_rest (c : Chip) (high : Bool) : { c.ready high with rst := c.rst, out := c.out } = c := by
  unfold Chip.ready
  split <;> rfl

theorem Chip.ready_keeps (c : Chip) (high : Bool) : let d := c.ready high
    d.mem = c.mem ∧ d.tide = c.tide ∧ d.scratch = c.scratch ∧ d.mc = c.mc := by
  have h := c.ready_rest high
  exact ⟨(congrArg Chip.mem h :), (congrArg Chip.tide h :), (congrArg Chip.scratch h :), (congrArg Chip.mc h :)⟩

/-- READY changes its level on the pin. -/
theorem Chip.pin_ready {c : Chip} {high : Bool} (h : c.rst.ready = !high) : Out.pin "READY" high ∈ (c.ready high).out := by
  unfold Chip.ready
  rw [if_neg (by rw [h]; cases high <;> decide)]
  exact List.mem_cons_self

/-- What flash, fuses and configuration keep over a loss of power. -/
def Mc.kept (m n : Mc) : Prop :=
  n.flash = m.flash ∧ n.slotA = m.slotA ∧ n.slotB = m.slotB ∧ n.cfg = m.cfg ∧ (m.fwOp ≠ some .commit → n.fuses = m.fuses)

theorem Mc.kept_powerLoss (m : Mc) (pick : Nat) (nonce : Word) : m.kept (m.powerLoss pick nonce) :=
  ⟨rfl, rfl, rfl, rfl, fun h => if_neg h⟩

theorem Chip.kept_cold (c : Chip) : c.mc.kept c.cold.mc := c.mc.kept_powerLoss _ _

/-- A domain of a package whose domains all are in one state for each kind. -/
theorem Chip.dom_allDoms {c d : Chip} {f : Nat → DomState} (h : d.pwr.doms = c.allDoms f) {k : Nat} (hk : k < 236) :
    d.dom k = { Domain.reset with state := f k, auto := (c.dom k).auto } := by
  unfold Chip.dom
  rw [h]
  exact (SMap.get_map_range _ _ _ _).trans (if_pos hk)

theorem Chip.dom_porRise {c : Chip} {strap : Bool} (hpor : c.rst.por = false) {k : Nat} (hk : k < 236) :
    (c.porRise strap).dom k = { Domain.initial k with state := .off } := by
  rw [Chip.porRise, if_neg (by simp [hpor])]
  exact (SMap.get_map_range _ _ _ _).trans (if_pos hk)

/-! TRAINING begins (R549, R550, R554). -/

/-- The links that are enabled leave DISABLED. -/
def Chip.linksDetect (c : Chip) : Chip :=
  (List.range 24).foldl (fun c n => if bit (c.link n).ctrl 0 then c.setLink n (c.link n).detect else c) c

theorem Chip.linksDetect_rest (c : Chip) : c.sameButLinks c.linksDetect := by
  unfold Chip.linksDetect
  refine foldl_rel Chip.sameButLinks_refl Chip.sameButLinks_trans (fun c n _ => ?_) c
  split <;> rfl

theorem Chip.linksDetect_link (c : Chip) {m : Nat} (hm : m < 24) (h : bit (c.link m).ctrl 0 = true) : (c.linksDetect.link m).state = .detect := by
  unfold Chip.linksDetect
  rw [foldl_links (g := fun k _ => if bit k.ctrl 0 then k.detect else k) _ List.nodup_range, if_pos (List.mem_range.mpr hm), if_pos h]
  · rfl
  · intro c n m
    by_cases hnm : n = m
    · subst hnm
      rw [if_pos rfl]
      split <;> simp
    · rw [if_neg hnm]
      split
      · exact c.link_setLink_other _ (Ne.symm hnm)
      · rfl

/-- The package as TRAINING begins, its links and READY apart. -/
def Chip.inTraining (c : Chip) : Chip :=
  let geo := c.mc.cfg.geometry
  { c with
    rst := { c.rst with phase := .training, bringupMode := true, hbmTrained := false, coresTested := [], qualified := 0, bad := 0,
                        unnumbered := match geo with
                          | none => true
                          | some v => !geometryOk v }
    pwr := { c.pwr with doms := c.allDoms (fun d => if isCoreDom d then .selfTest else .run) }
    net := { c.net with geom := match geo with
      | none => c.net.geom
      | some v => geometryWord v } }

theorem Chip.beginTraining_eq (c : Chip) : c.beginTraining = c.inTraining.linksDetect.ready true := rfl

theorem Chip.beginTraining_rest (c : Chip) :
    { c.beginTraining with rst := c.rst, pwr := c.pwr, net := c.net, links := c.links, out := c.out } = c := by
  rw [Chip.beginTraining_eq]
  have hready := c.inTraining.linksDetect.ready_rest true
  have hlinks := c.inTraining.linksDetect_rest
  calc { c.inTraining.linksDetect.ready true with rst := c.rst, pwr := c.pwr, net := c.net, links := c.links, out := c.out }
    _ = { c.inTraining.linksDetect with rst := c.rst, pwr := c.pwr, net := c.net, links := c.links, out := c.out } :=
      (congrArg (fun d : Chip => { d with rst := c.rst, pwr := c.pwr, net := c.net, links := c.links, out := c.out }) hready :)
    _ = { c.inTraining with rst := c.rst, pwr := c.pwr, net := c.net, links := c.links, out := c.out } :=
      (congrArg (fun d : Chip => { d with rst := c.rst, pwr := c.pwr, net := c.net, links := c.links, out := c.out }) hlinks :)
    _ = c := rfl

theorem Chip.beginTraining_keeps (c : Chip) : let d := c.beginTraining
    d.mem = c.mem ∧ d.tide = c.tide ∧ d.rcp = c.rcp ∧ d.req = c.req ∧ d.cores = c.cores ∧ d.scratch = c.scratch ∧ d.mc = c.mc := by
  have h := c.beginTraining_rest
  exact ⟨(congrArg Chip.mem h :), (congrArg Chip.tide h :), (congrArg Chip.rcp h :), (congrArg Chip.req h :), (congrArg Chip.cores h :),
    (congrArg Chip.scratch h :), (congrArg Chip.mc h :)⟩

theorem Chip.beginTraining_rst (c : Chip) : c.beginTraining.rst = { c.inTraining.rst with ready := true } := by
  have hlinks : c.inTraining.linksDetect.rst = c.inTraining.rst := (congrArg Chip.rst c.inTraining.linksDetect_rest :)
  rw [Chip.beginTraining_eq, Chip.ready_rst, hlinks]

theorem Chip.beginTraining_net (c : Chip) : c.beginTraining.net = c.inTraining.net := by
  rw [Chip.beginTraining_eq]
  exact (congrArg Chip.net (c.inTraining.linksDetect.ready_rest true) :).trans (congrArg Chip.net c.inTraining.linksDetect_rest :)

theorem Chip.beginTraining_dom (c : Chip) {k : Nat} (hk : k < 236) :
    (c.beginTraining.dom k).state = if k < 128 ∧ k % 2 = 0 then .selfTest else .run := by
  have hpwr : c.beginTraining.pwr = c.inTraining.pwr := by
    rw [Chip.beginTraining_eq]
    exact (congrArg Chip.pwr (c.inTraining.linksDetect.ready_rest true) :).trans (congrArg Chip.pwr c.inTraining.linksDetect_rest :)
  rw [Chip.dom_allDoms (c := c) (f := fun d => if isCoreDom d then .selfTest else .run) (congrArg Pwr.doms hpwr) hk]
  exact if_congr (by simp [isCoreDom]) rfl rfl

theorem Chip.beginTraining_link (c : Chip) {m : Nat} (hm : m < 24) (h : bit (c.link m).ctrl 0 = true) :
    (c.beginTraining.link m).state = .detect := by
  have hlinks : c.beginTraining.links = c.inTraining.linksDetect.links := by
    rw [Chip.beginTraining_eq]
    exact (congrArg Chip.links (c.inTraining.linksDetect.ready_rest true) :)
  rw [Chip.link, hlinks]
  exact c.inTraining.linksDetect_link hm h

/-- READY rises on the pin where it was low. -/
theorem Chip.pin_beginTraining {c : Chip} (h : c.rst.ready = false) : Out.pin "READY" true ∈ c.beginTraining.out := by
  rw [Chip.beginTraining_eq]
  have hlinks : c.inTraining.linksDetect.rst = c.inTraining.rst := (congrArg Chip.rst c.inTraining.linksDetect_rest :)
  exact Chip.pin_ready (by rw [hlinks]; exact h)

/-! BRINGUP and the way out of it (R549, R556). -/

theorem Chip.tryDiscover_rest (c : Chip) :
    { c.tryDiscover with rst := { c.tryDiscover.rst with phase := c.rst.phase, bringupMode := c.rst.bringupMode } } = c := by
  unfold Chip.tryDiscover
  split <;> rfl

theorem Chip.tryDiscover_phase {c : Chip} (h : c.rst.phase = .bringup) :
    c.tryDiscover.rst.phase = .bringup ∨ c.tryDiscover.rst.phase = .discovered := by
  unfold Chip.tryDiscover
  split
  · exact .inr rfl
  · exact .inl h

theorem Chip.tryDiscover_discovered {c : Chip} (hphase : c.rst.phase = .bringup) (hnumber : c.rst.unnumbered = false)
    (hstrap : c.rst.strapLow = false) (hready : c.rst.hbmReady = true) (hlink : c.rst.qualified ≠ 0) :
    c.tryDiscover.rst.phase = .discovered ∧ c.tryDiscover.rst.bringupMode = false := by
  rw [Chip.tryDiscover, if_pos ⟨hphase, hnumber, hstrap, hready, hlink⟩]
  exact ⟨rfl, rfl⟩

theorem Chip.tryBringup_rest (c : Chip) :
    { c.tryBringup with rst := { c.tryBringup.rst with phase := c.rst.phase, bringupMode := c.rst.bringupMode } } = c := by
  unfold Chip.tryBringup
  split
  · exact (congrArg (fun d : Chip => { d with rst := { d.rst with phase := c.rst.phase, bringupMode := c.rst.bringupMode } })
      (Chip.tryDiscover_rest { c with rst := { c.rst with phase := .bringup } }) :)
  · rfl

/-- The stacks are trained: BRINGUP begins where every core has been tested (R549). -/
theorem Chip.hbmDone_spec {c : Chip} (h : c.rst.phase = .training) :
    let d := c.hbmDone
    d.rst.hbmTrained = true ∧ d.mem = c.mem ∧ ((∀ k, k < 64 → k ∈ c.rst.coresTested) → d.rst.phase = .bringup ∨ d.rst.phase = .discovered) ∧
      (∀ k, k < 64 → k ∉ c.rst.coresTested → d.rst.phase = .training) := by
  intro d
  have heq : d = ({ c with rst := { c.rst with hbmTrained := true } }).tryBringup := if_pos h
  have hrest := Chip.tryBringup_rest { c with rst := { c.rst with hbmTrained := true } }
  rw [heq]
  refine ⟨(congrArg (fun d : Chip => d.rst.hbmTrained) hrest :), (congrArg Chip.mem hrest :), fun hall => ?_, fun k hk hout => ?_⟩
  · rw [Chip.tryBringup, if_pos ⟨h, rfl, by simpa using hall⟩]
    exact Chip.tryDiscover_phase rfl
  · rw [Chip.tryBringup, if_neg]
    · exact h
    · rintro ⟨-, -, hall⟩
      exact hout (by simpa using List.all_eq_true.mp hall k (List.mem_range.mpr hk))

/-! The zero-fill (R552). -/

/-- A read of what is left of a canonical memory whose cells were each kept or not. -/
theorem Mem.read_filter_zipIdx {m : List Host.Cell} (p : Host.Cell × Nat → Bool) {lo : Nat} (hm : Mem.above lo m = true) (a n : Nat) :
    let r := Mem.read (((m.zipIdx n).filter p).map (fun q => q.1)) a
    (r = 0 ∨ r = Mem.read m a) ∧ ((∀ v i, p ((a, v), i) = true) → r = Mem.read m a) := by
  induction m generalizing lo n with
  | nil => simp [Mem.read]
  | cons q t ih =>
    obtain ⟨b, v⟩ := q
    simp only [Mem.above, Bool.and_eq_true, decide_eq_true_eq] at hm
    obtain ⟨-, ht⟩ := hm
    obtain ⟨hrest, hkept⟩ := ih ht (n + 1)
    have hbelow : ∀ x, x ≤ b → Mem.read t x = 0 := fun x hx => Mem.read_below ht (by omega)
    rw [List.zipIdx_cons]
    by_cases hp : p ((b, v), n) = true
    · rw [List.filter_cons_of_pos hp, List.map_cons, Mem.read, Mem.read]
      by_cases h1 : b = a
      · simp [h1]
      · rw [if_neg h1, if_neg h1]
        split
        · simp
        · exact ⟨hrest, hkept⟩
    · rw [List.filter_cons_of_neg hp, Mem.read]
      by_cases h1 : b = a
      · subst h1
        have hzero : Mem.read t b = 0 := hbelow b le_rfl
        refine ⟨.inl (hrest.elim id fun h => h.trans hzero), fun hall => absurd (hall v n) hp⟩
      · rw [if_neg h1]
        by_cases h2 : a < b
        · rw [hbelow a h2.le] at hrest hkept
          rw [if_pos h2]
          exact ⟨hrest, hkept⟩
        · rw [if_neg h2]
          exact ⟨hrest, hkept⟩

/-- The zero-fill is over (R552, R556). -/
theorem Chip.fillDone_spec {c : Chip} (hmem : Mem.wf c.mem = true) (hon : c.hubOn = true) (htrained : c.rst.hbmTrained = true)
    (hready : c.rst.hbmReady = false) :
    let d := c.fillDone
    d.rst.hbmReady = true ∧ d.cores = c.cores ∧ (∀ a, Mem.read d.mem a = 0 ∨ Mem.read d.mem a = Mem.read c.mem a) ∧
      (∀ a, storeEnd ≤ a → Mem.read d.mem a = Mem.read c.mem a) ∧
      (c.rst.phase = .bringup → c.rst.unnumbered = false → c.rst.strapLow = false → c.rst.qualified ≠ 0 →
        d.rst.phase = .discovered ∧ d.rst.bringupMode = false) := by
  intro d
  have heq : d = ({ c.zeroFill with rst := { c.rst with hbmReady := true } }).tryDiscover := if_pos ⟨hon, htrained, hready⟩
  have hrest := Chip.tryDiscover_rest { c.zeroFill with rst := { c.rst with hbmReady := true } }
  have hfill := fun a => Mem.read_filter_zipIdx
    (fun p => decide (storeEnd ≤ p.1.1) || (Config.freeWord (c.freeCtr + p.2)).getLsbD 0) hmem a 0
  have hdmem : d.mem = c.zeroFill.mem := by rw [heq]; exact (congrArg Chip.mem hrest :)
  rw [hdmem, heq]
  refine ⟨(congrArg (fun d : Chip => d.rst.hbmReady) hrest :), (congrArg Chip.cores hrest :), fun a => (hfill a).1, fun a ha => (hfill a).2 ?_,
    fun h1 h2 h3 h4 => Chip.tryDiscover_discovered h1 h2 h3 rfl h4⟩
  intro v i
  simp [ha]

end Sys2Proof.Machine
end

section
/-! SUPPORT. Warm restart, a link that loses its clock, rails that fail, a thermal trip, and the statement about power and restart. -/

namespace Sys2Proof.Machine

/-! Links that lose their clock (R434, R604). -/

/-- The link that RETRAIN leaves. -/
def Link.retrained (k : Link) : Link :=
  ({ k with
    state := .retrain, before := k.state, laneGood := [], laneRun := [], laneLast := [], laneDone := [], laneSent := [], eqSent := [],
    lastTs := [], tsSame := 0, agreed := [], ts2Sent := none, badCws := 0, held := [], testLeft := none,
    testDone := if k.testLeft.isSome then false else k.testDone }.raise 4).tally 6 1

theorem Chip.retrain_up {c : Chip} {n : Nat} (h : (c.link n).up = true) : Noted (c.setLink n (c.link n).retrained) (c.retrain n) := by
  have heq : c.retrain n = (c.setLink n (c.link n).retrained).logLink n (c.link n).state .retrain := if_pos h
  rw [heq]
  exact .logLink _ _ _ _

theorem Chip.retrain_down {c : Chip} {n : Nat} (h : (c.link n).up = false) : c.retrain n = c := if_neg (by simp [h])

/-- RETRAIN leaves memory and cores alone. -/
theorem Chip.retrain_rest (c : Chip) (n : Nat) : (c.retrain n).mem = c.mem ∧ (c.retrain n).cores = c.cores := by
  cases h : (c.link n).up with
  | true => exact ⟨(Chip.retrain_up h).mem, (Chip.retrain_up h).cores⟩
  | false =>
    rw [Chip.retrain_down h]
    exact ⟨rfl, rfl⟩

theorem Chip.retrain_link (c : Chip) (n m : Nat) :
    (c.retrain n).link m = if n = m then (if (c.link m).up then (c.link m).retrained else c.link m) else c.link m := by
  cases h : (c.link n).up with
  | true =>
    rw [(Chip.retrain_up h).link]
    by_cases hnm : n = m
    · subst hnm
      simp [h]
    · rw [if_neg hnm, c.link_setLink_other _ (Ne.symm hnm)]
  | false =>
    rw [Chip.retrain_down h]
    split
    · next hnm =>
      subst hnm
      simp [h]
    · rfl

/-- The links of clock A or B. -/
def clockLinks (clockB : Bool) : List Nat := (List.range 12).map fun i => i + (if clockB then 12 else 0)

theorem mem_clockLinks {clockB : Bool} {n : Nat} :
    n ∈ clockLinks clockB ↔ 12 * (if clockB then 1 else 0) ≤ n ∧ n < 12 + 12 * (if clockB then 1 else 0) := by
  simp only [clockLinks, List.mem_map, List.mem_range]
  constructor
  · rintro ⟨i, hi, rfl⟩
    cases clockB <;> simp
    all_goals omega
  · rintro ⟨hlo, hhi⟩
    refine ⟨n - 12 * (if clockB then 1 else 0), by omega, ?_⟩
    cases clockB
    all_goals simp at *
    all_goals omega

theorem nodup_clockLinks (clockB : Bool) : (clockLinks clockB).Nodup :=
  List.nodup_range.map fun _ _ h => Nat.add_right_cancel h

/-- A clock of the links is lost (R604). -/
theorem Chip.clockLost_spec (c : Chip) (clockB : Bool) (n : Nat) :
    let d := (clockLinks clockB).foldl (fun c n => c.retrain n) c
    d.mem = c.mem ∧ d.cores = c.cores ∧
      d.link n = if n ∈ clockLinks clockB then (if (c.link n).up then (c.link n).retrained else c.link n) else c.link n :=
  ⟨foldl_rel (R := fun c d : Chip => d.mem = c.mem) (fun _ => rfl) (fun h g => g.trans h) (fun c n _ => (c.retrain_rest n).1) c,
    foldl_rel (R := fun c d : Chip => d.cores = c.cores) (fun _ => rfl) (fun h g => g.trans h) (fun c n _ => (c.retrain_rest n).2) c,
    foldl_links (g := fun k _ => if k.up then k.retrained else k) (fun c n m => c.retrain_link n m) (nodup_clockLinks clockB) c n⟩

/-! Warm restart (R563, R564, R567). -/

theorem Chip.linksGone_noted (c : Chip) : Noted c c.linksGone := by
  unfold Chip.linksGone
  refine .foldl (fun c n => ?_) _ _
  split
  · exact .logLink c _ _ _
  · exact .refl c

/-- The blocks that a warm restart resets. -/
def Chip.lostWarm (c : Chip) : Chip :=
  let c1 := c.lose true
  { c1 with rst := { c1.rst with warm := true, warmDue := false, strapLow := false, restarts := c1.rst.restarts + 1 } }

theorem Chip.lostWarm_keeps (c : Chip) : let d := c.lostWarm
    d.mem = c.mem.filter (fun p => p.1 < storeEnd) ∧ d.tide = c.tide ∧ d.rcp = Rcp.reset ∧ d.req = ReqTable.reset ∧ d.cores = [] ∧
      d.scratch = c.scratch ∧ d.mc = c.mc ∧ d.inTraining.net.live = [] ∧
      d.rst = { c.rst with warm := true, warmDue := false, strapLow := false, restarts := c.rst.restarts + 1 } :=
  ⟨rfl, rfl, rfl, rfl, rfl, rfl, rfl, rfl, rfl⟩

theorem Chip.inTraining_rst (c : Chip) :
    c.inTraining.rst.phase = .training ∧ c.inTraining.rst.warm = c.rst.warm ∧ c.inTraining.rst.restarts = c.rst.restarts :=
  ⟨rfl, rfl, rfl⟩

theorem Chip.warmRestart_taken {c : Chip} (h : c.warmTaken = true) :
    c.warmRestart = (c.linksGone.ready false).lostWarm.beginTraining := if_pos h

/-- A warm restart (R563, R564). -/
theorem Chip.warmRestart_spec {c : Chip} (hmem : Mem.wf c.mem = true) (h : c.warmTaken = true) :
    let d := c.warmRestart
    d.rst.phase = .training ∧ d.rst.warm = true ∧ d.rst.restarts = c.rst.restarts + 1 ∧ d.tide = c.tide ∧ d.rcp = Rcp.reset ∧
      d.req = ReqTable.reset ∧ d.cores = [] ∧ d.net.live = [] ∧ d.scratch = c.scratch ∧ d.mc.running = c.mc.running ∧
      Out.pin "READY" true ∈ d.out ∧ ∀ a, Mem.read d.mem a = if a < storeEnd then Mem.read c.mem a else 0 := by
  intro d
  have heq : d = _ := Chip.warmRestart_taken h
  have hnoted := c.linksGone_noted
  obtain ⟨hmem0, htide0, hscratch0, hmc0⟩ := c.linksGone.ready_keeps false
  have hrst0 : (c.linksGone.ready false).rst = { c.rst with ready := false } := by rw [Chip.ready_rst, hnoted.rst]
  rw [heq]
  generalize c.linksGone.ready false = u at hmem0 htide0 hscratch0 hmc0 hrst0
  obtain ⟨hmem1, htide1, hrcp1, hreq1, hcores1, hscratch1, hmc1, hlive1, hrst1⟩ := u.lostWarm_keeps
  generalize u.lostWarm = v at hmem1 htide1 hrcp1 hreq1 hcores1 hscratch1 hmc1 hlive1 hrst1
  obtain ⟨hmem2, htide2, hrcp2, hreq2, hcores2, hscratch2, hmc2⟩ := v.beginTraining_keeps
  obtain ⟨hphase, hwarm, hrestarts⟩ := v.inTraining_rst
  obtain ⟨-, -, -, -, -, hrunning, -⟩ := hnoted.firmware
  refine ⟨by rw [Chip.beginTraining_rst]; exact hphase, by rw [Chip.beginTraining_rst]; exact hwarm.trans (by rw [hrst1]),
    by rw [Chip.beginTraining_rst]; exact hrestarts.trans (by rw [hrst1, hrst0]), by rw [htide2, htide1, htide0, hnoted.tide],
    hrcp2.trans hrcp1, hreq2.trans hreq1, hcores2.trans hcores1, by rw [Chip.beginTraining_net, hlive1],
    by rw [hscratch2, hscratch1, hscratch0, hnoted.scratch], by rw [hmc2, hmc1, hmc0, hrunning],
    Chip.pin_beginTraining (by rw [hrst1, hrst0]), fun a => ?_⟩
  rw [hmem2, hmem1, hmem0, hnoted.mem, Mem.read_filter (fun b => decide (b < storeEnd)) hmem]
  exact if_congr decide_eq_true_iff rfl rfl

/-! Rails (R547, R551). -/

/-- Whether a rail is the one that was enabled last. -/
def Chip.railAwaited (c : Chip) (rail : Nat) : Prop :=
  c.rst.phase = .rails ∧ c.rst.railsOff = false ∧ c.rst.por = true ∧ c.rst.held = false ∧ rail = c.rst.railsOn.length + 2 ∧ rail ≤ c.lastRail

theorem mem_railsDown {n k : Nat} (hlo : 2 ≤ k) (hhi : k ≤ n + 1) : Out.rail k false ∈ railsDown n :=
  List.mem_map.mpr ⟨n + 1 - k, List.mem_range.mpr (by omega), by congr; omega⟩

section
variable {c : Chip} {rail : Nat}

theorem Chip.railGood_idle (h : ¬c.railAwaited rail) : c.railGood rail = c := if_neg h

theorem Chip.railTimeout_idle (h : ¬c.railAwaited rail) : c.railTimeout rail = c := if_neg h

variable (h : c.railAwaited rail)
include h

/-- A rail that is not the last reports: the next is enabled. -/
theorem Chip.railGood_next (hlast : rail < c.lastRail) :
    c.railGood rail = ({ c with rst := { c.rst with railsOn := c.rst.railsOn ++ [rail] } }).emit (.rail (rail + 1) true) :=
  (if_pos h).trans (if_pos hlast)

/-- The last rail reports: TRAINING begins. -/
theorem Chip.railGood_last (h7 : rail = 7) :
    c.railGood rail = ({ c with rst := { c.rst with railsOn := c.rst.railsOn ++ [rail] } }).beginTraining := by
  obtain ⟨-, -, -, -, -, hle⟩ := id h
  have hrec : c.mc.recovery = false := by
    by_contra hrec
    rw [Chip.lastRail, if_pos (by simpa using hrec)] at hle
    omega
  have hlast : ¬rail < c.lastRail := by
    rw [Chip.lastRail, hrec]
    simp [h7]
  refine (if_pos h).trans ((if_neg hlast).trans (if_neg ?_))
  simp [hrec]

/-- A rail that does not report takes all down (R551). -/
theorem Chip.railTimeout_spec :
    let d := c.railTimeout rail
    d.rst.railsOff = true ∧ d.rst.railsOn = [] ∧ d.hubOn = false ∧ d.mem = [] ∧ d.mc.flash = c.mc.flash ∧
      ∀ k ∈ List.range rail, 2 ≤ k → Out.rail k false ∈ d.out := by
  intro d
  have heq : d = c.railsFail rail (rail - 1) := if_pos h
  have hnoted := c.railsFail_noted rail (rail - 1)
  rw [heq]
  refine ⟨by rw [hnoted.rst]; rfl, by rw [hnoted.rst]; rfl, ?_, hnoted.mem, (congrArg Mc.flash hnoted.mc :), fun k hk hlo => hnoted.mem_out ?_⟩
  · rw [Chip.hubOn, hnoted.rst]
    simp [Chip.unpowered]
  · have := List.mem_range.mp hk
    exact List.mem_append_left _ (List.mem_reverse.mpr (mem_railsDown hlo (by omega)))

end

/-! Thermal trip (R599). -/

/-- A sensor reaches 115 °C. -/
theorem Chip.thermtrip_spec {c : Chip} (sensor : Nat) (hpor : c.rst.por = true) (hheld : c.rst.held = false) (htrip : c.rst.tripped = false) :
    let d := c.thermtrip sensor
    d.rst.tripped = true ∧ d.hubOn = false ∧ Out.pin "THERMTRIP_N" false ∈ d.out ∧ d.rst.railsOn = [] ∧ d.mem = [] ∧ d.mc.flash = c.mc.flash := by
  intro d
  have hnoted := Noted.logAlarm (c.tripPin false) 3 0 sensor 2 (115 * 16) (115 * 16)
  have heq : d = _ := if_pos ⟨hpor, hheld, htrip⟩
  rw [heq, Chip.dropRails_eq]
  refine ⟨rfl, ?_, List.mem_append_right _ (hnoted.mem_out List.mem_cons_self), rfl, rfl, (congrArg Mc.flash hnoted.mc :)⟩
  simp [Chip.hubOn]

/-! The statement. -/

/-- What a loss of all state leaves (R548, R566). -/
theorem Chip.bare_cold (c : Chip) {d : Chip} {r : Rst} {p : Pwr} {o : List Out} (hd : d = { c.cold with rst := r, pwr := p, out := o })
    (hphase : r.phase = .mcBoot) (hready : r.ready = false) :
    d.mem = [] ∧ d.cores = [] ∧ d.links = [] ∧ d.rcp = Rcp.reset ∧ d.req = ReqTable.reset ∧ d.tide = 0 ∧ d.mc.running = false ∧
      d.rst.phase = .mcBoot ∧ d.rst.ready = false ∧ d.hubOn = false ∧ c.mc.kept d.mc := by
  subst hd
  exact ⟨rfl, rfl, rfl, rfl, rfl, rfl, rfl, hphase, hready, by simp [Chip.hubOn, hphase], c.kept_cold⟩

theorem Chip.fillDone_idle {c : Chip} (h : c.hubOn = false ∨ c.rst.hbmTrained = false ∨ c.rst.hbmReady = true) : c.fillDone = c := by
  unfold Chip.fillDone
  rcases h with h | h | h <;> simp [h]

theorem Chip.thermtrip_idle {c : Chip} (sensor : Nat) (h : c.rst.por = false ∨ c.rst.held = true ∨ c.rst.tripped = true) :
    c.thermtrip sensor = c := by
  unfold Chip.thermtrip
  rcases h with h | h | h <;> simp [h]

theorem Chip.porFall_eq (c : Chip) : c.porFall =
    { c.cold with rst := Rst.reset, pwr := c.cold.pwr, out := if c.rst.tripped then .pin "THERMTRIP_N" true :: c.cold.out else c.cold.out } := by
  unfold Chip.porFall
  split <;> rfl

/-- The last rail reports: what TRAINING finds (R549, R550). -/
theorem Chip.railGood_training {c : Chip} (h : c.railAwaited 7) :
    let d := c.railGood 7
    d.rst.phase = .training ∧ d.rst.ready = true ∧ d.rst.railsOn = c.rst.railsOn ++ [7] ∧ d.rst.bringupMode = true ∧ d.mem = c.mem ∧
      d.rcp = c.rcp ∧ (∀ k, k < 236 → (d.dom k).state = if k < 128 ∧ k % 2 = 0 then .selfTest else .run) ∧
      ∀ m, m < 24 → bit (c.link m).ctrl 0 = true → (d.link m).state = .detect := by
  intro d
  have heq : d = _ := Chip.railGood_last h rfl
  rw [heq]
  have hrst := Chip.beginTraining_rst { c with rst := { c.rst with railsOn := c.rst.railsOn ++ [7] } }
  obtain ⟨hmem, -, hrcp, -⟩ := Chip.beginTraining_keeps { c with rst := { c.rst with railsOn := c.rst.railsOn ++ [7] } }
  exact ⟨by rw [hrst]; rfl, by rw [hrst], by rw [hrst]; rfl, by rw [hrst]; rfl, hmem, hrcp, fun k hk => Chip.beginTraining_dom _ hk,
    fun m hm hctrl => Chip.beginTraining_link _ hm hctrl⟩

/-- Settles O56: each start or loss by what it resets, and what is signalled beside it. -/
theorem powerAndRestart : Obligations.PowerAndRestart := by
  intro s strap clockB rail sensor n hmem hrail hsensor c r kept bare next group
  have good {p : Chip → Prop} (h : p (c.railGood rail)) : Completes s (.railPowerGood rail) p :=
    .of_runIf (f := fun c => c.railGood rail) rfl (decide_eq_true hrail) h
  have late {p : Chip → Prop} (h : p (c.railTimeout rail)) : Completes s (.railEnableTimeout rail) p :=
    .of_runIf (f := fun c => c.railTimeout rail) rfl (decide_eq_true hrail) h
  have trained {p : Chip → Prop} (h : p c.hbmDone) : Completes s .hbmTrainingDone p := .of_run (f := fun c => c.hbmDone) rfl h
  have filled {p : Chip → Prop} (h : p c.fillDone) : Completes s .hbmZeroFillDone p := .of_run (f := fun c => c.fillDone) rfl h
  have warm {p : Chip → Prop} (h : p c.warmRestart) : Completes s .warmRestart p := .of_run (f := fun c => c.warmRestart) rfl h
  have trip {p : Chip → Prop} (h : p (c.thermtrip sensor)) : Completes s (.thermtrip sensor) p :=
    .of_runIf (f := fun c => c.thermtrip sensor) rfl (decide_eq_true hsensor) h
  have rise {p : Chip → Prop} (h : p (c.porRise strap)) : Completes s (.porRise strap) p := .of_run (f := fun c => c.porRise strap) rfl h
  have fall {p : Chip → Prop} (h : p c.porFall) : Completes s .porFall p := .of_run (f := fun c => c.porFall) rfl h
  refine ⟨fun hpor => rise ?_, fun hpor => rise (if_pos hpor), fall ?_, fun i hi => ?_, fun h hlast => good (Chip.railGood_next h hlast),
    fun h h7 => good ?_, fun h => ⟨good (Chip.railGood_idle h), late (Chip.railTimeout_idle h)⟩, fun h => late (Chip.railTimeout_spec h),
    fun h => trained (Chip.hbmDone_spec h), fun h => trained (if_neg h), fun hon ht hr => filled (Chip.fillDone_spec hmem hon ht hr),
    fun h => filled (Chip.fillDone_idle h), fun h => warm (Chip.warmRestart_spec hmem h), fun h => warm (if_neg (by simp [h])), ?_,
    fun hpor hheld htrip => trip (Chip.thermtrip_spec sensor hpor hheld htrip), fun h => trip (Chip.thermtrip_idle sensor h)⟩
  · have heq : c.porRise strap = _ := if_neg (by simp [show c.rst.por = false from hpor])
    refine ⟨c.bare_cold heq rfl rfl, by rw [heq], by rw [heq]; rfl, by rw [heq], fun k hk => ?_⟩
    rw [Chip.dom_porRise hpor hk]
    exact ⟨rfl, by simp [Domain.initial]⟩
  · refine ⟨c.bare_cold c.porFall_eq rfl rfl, by rw [c.porFall_eq], fun htrip => ?_⟩
    rw [c.porFall_eq, if_pos htrip]
    exact List.mem_cons_self
  · have hhold : ∀ j, exec j s = s.run Chip.hold → Completes s j
        (fun d => bare d ∧ d.rst.held = true ∧ d.rst.por = r.por ∧ d.rst.tripped = r.tripped) :=
      fun j hj => .of_run hj ⟨c.bare_cold (o := c.cold.out) (p := c.cold.pwr) rfl rfl rfl, rfl, rfl, rfl⟩
    simp only [List.mem_cons, List.not_mem_nil, or_false] at hi
    rcases hi with rfl | rfl
    · exact hhold _ rfl
    · exact hhold _ rfl
  · subst h7
    exact Chip.railGood_training h
  · refine .of_run (f := fun c => (clockLinks clockB).foldl (fun c n => c.retrain n) c) rfl ?_
    obtain ⟨hm, hc, hlink⟩ := c.clockLost_spec clockB n
    refine ⟨hm, hc, fun hin hup => ?_, fun hout => ?_⟩
    · rw [if_pos (mem_clockLinks.mpr hin), if_pos hup] at hlink
      rw [hlink]
      exact ⟨rfl, rfl, rfl⟩
    · rw [hlink]
      rcases hout with hout | hout
      · exact if_neg fun hk => hout (mem_clockLinks.mp hk)
      · simp [hout]

end Sys2Proof.Machine
end

section
/-! SUPPORT. What the reports of a change and a link that goes down leave alone (R432, R483, R484). -/

namespace Sys2Proof.Machine

/-- Nothing but the network's state, the MC, the ports' vectors, what has gone out and the free values used may differ. -/
def Reported (c d : Chip) : Prop := { d with net := c.net, mc := c.mc, ports := c.ports, out := c.out, freeCtr := c.freeCtr } = c

namespace Reported

theorem refl (c : Chip) : Reported c c := rfl

theorem trans {c d e : Chip} (h : Reported c d) (g : Reported d e) : Reported c e := by
  unfold Reported at *
  exact (congrArg (fun x : Chip => { x with net := c.net, mc := c.mc, ports := c.ports, out := c.out, freeCtr := c.freeCtr }) g :).trans h

theorem of_noted {c d : Chip} (h : Noted c d) : Reported c d :=
  (congrArg (fun x : Chip => { x with net := c.net }) h.rest :)

section
variable {c d : Chip} (h : Reported c d)
include h

theorem mem : d.mem = c.mem := (congrArg Chip.mem h :)
theorem tide : d.tide = c.tide := (congrArg Chip.tide h :)
theorem cores : d.cores = c.cores := (congrArg Chip.cores h :)
theorem links : d.links = c.links := (congrArg Chip.links h :)
theorem req : d.req = c.req := (congrArg Chip.req h :)
theorem pwr : d.pwr = c.pwr := (congrArg Chip.pwr h :)
theorem rst : d.rst = c.rst := (congrArg Chip.rst h :)

theorem link (n : Nat) : d.link n = c.link n := by rw [Chip.link, h.links, Chip.link]
theorem dom (n : Nat) : d.dom n = c.dom n := by rw [Chip.dom, h.pwr, Chip.dom]
theorem core (n : Nat) : d.core n = c.core n := by rw [Chip.core, h.cores, Chip.core]

end

theorem flood (c : Chip) (r : Report) (from_ : Option Nat) : Reported c (c.flood r from_) := by
  unfold Chip.flood
  rw [Chip.foldl_emit]
  rfl

theorem freezeNow (c : Chip) (p : EpochPlan) : Reported c (c.freezeNow p) := rfl

/-- Joins that are refused are logged (R559). -/
theorem noted_refuseJoins (c : Chip) : Noted c c.refuseJoins :=
  .foldl (fun c _ => (Noted.spend c).trans (.log _ _ _ _ _)) _ _

theorem sendFreeze (c : Chip) (p : EpochPlan) : Reported c (c.sendFreeze p) :=
  .trans (d := (c.emit (.freeze p)).freezeNow p) rfl (of_noted (noted_refuseJoins _))

theorem gather (c : Chip) (r : Report) : Reported c (c.gather r) := by
  unfold Chip.gather
  extract_lets kept net c1
  have h1 : Reported c c1 := rfl
  split
  · split
    · exact h1
    · exact h1
  · exact h1
  · extract_lets q
    split
    · exact h1.trans (sendFreeze c1 q)
    · exact h1
  · exact h1

theorem reportChange (c : Chip) (r : Report) : Reported c (c.reportChange r) := (flood c r none).trans (gather _ r)

end Reported

/-! A link that goes down (R432). -/

/-- What a link keeps when it goes down. -/
def Link.dropped (k : Link) (to_ : LinkState) : Link :=
  ({ k with
    state := to_, replay := [], resend := [], resends := 0, txq := [], held := [], testLeft := none, testWaits := false, badCws := 0 }.raise 5).tally 7 1

/-- The package with a link down, nothing reported yet. -/
def Chip.dropLink (c : Chip) (n : Nat) (to_ : LinkState) : Chip :=
  let mask : BitVec 24 := ~~~(BitVec.ofNat 24 (2 ^ n))
  let c1 := c.setLink n ((c.link n).dropped to_)
  { c1 with rst := { c1.rst with qualified := c1.rst.qualified &&& mask, bad := c1.rst.bad &&& mask } }

theorem Reported.linkDown (c : Chip) (n : Nat) (to_ : LinkState) : Reported (c.dropLink n to_) (c.linkDown n to_) := by
  have hlog : Reported (c.dropLink n to_) ((c.dropLink n to_).logLink n (c.link n).state to_) := .of_noted (.logLink _ _ _ _)
  unfold Chip.linkDown
  extract_lets k k1 mask c1 c2 c3
  split
  · exact hlog.trans (.reportChange _ _)
  · exact hlog

theorem Chip.linkDown_link (c : Chip) (n : Nat) (to_ : LinkState) : (c.linkDown n to_).link n = (c.link n).dropped to_ :=
  ((Reported.linkDown c n to_).link n).trans (c.link_setLink n _)

theorem Chip.linkDown_other (c : Chip) {n m : Nat} (to_ : LinkState) (h : m ≠ n) : (c.linkDown n to_).link m = c.link m :=
  ((Reported.linkDown c n to_).link m).trans (c.link_setLink_other _ h)

/-- What a link that goes down leaves alone. -/
theorem Chip.linkDown_keeps (c : Chip) (n : Nat) (to_ : LinkState) : let d := c.linkDown n to_
    d.mem = c.mem ∧ d.cores = c.cores ∧ d.pwr = c.pwr ∧ d.req = c.req :=
  have h := Reported.linkDown c n to_
  ⟨h.mem, h.cores, h.pwr, h.req⟩

/-- What LINK_CTRL.EN = 0 and a PHY that is off leave of the package. -/
theorem Chip.linkOff_keeps (c : Chip) (n : Nat) : let d := c.linkOff n
    d.mem = c.mem ∧ d.cores = c.cores ∧ d.pwr = c.pwr ∧ (d.link n).state = .disabled := by
  unfold Chip.linkOff
  extract_lets c1
  have h1 : c1.mem = c.mem ∧ c1.cores = c.cores ∧ c1.pwr = c.pwr := by
    unfold c1
    obtain ⟨hmem, hcores, hpwr, -⟩ := c.linkDown_keeps n .disabled
    split
    · exact ⟨hmem, hcores, hpwr⟩
    · exact ⟨rfl, rfl, rfl⟩
  obtain ⟨hmem, hcores, hpwr⟩ := h1
  exact ⟨hmem, hcores, hpwr, by rw [Chip.link_setLink]⟩

end Sys2Proof.Machine
end

section
/-! SUPPORT. Requests for power domains, and the units that wake (R501 to R507, R513, R515). -/

namespace Sys2Proof.Machine

/-! A domain that moves alone. -/

/-- The domains but one, memory and the cores are as they were. -/
def Chip.besideDom (c : Chip) (d : Nat) (b : Chip) : Prop := (∀ f, f ≠ d → b.dom f = c.dom f) ∧ b.mem = c.mem ∧ b.cores = c.cores

/-- One domain is in a state, and what `besideDom` names is as it was. -/
def Chip.domIs (c : Chip) (d : Nat) (z : Domain) (b : Chip) : Prop := b.dom d = z ∧ c.besideDom d b

theorem Chip.domIs_of_doms {c b : Chip} {d : Nat} {z : Domain} (hdoms : b.pwr.doms = SMap.set c.pwr.doms d z) (hmem : b.mem = c.mem)
    (hcores : b.cores = c.cores) : c.domIs d z b := by
  refine ⟨?_, fun f hf => ?_, hmem, hcores⟩
  · rw [Chip.dom, hdoms, SMap.get_set_same]
  · rw [Chip.dom, hdoms, SMap.get_set_other _ _ _ hf, Chip.dom]

theorem Chip.domIs_setDom (c : Chip) (d : Nat) (z : Domain) : c.domIs d z (c.setDom d z) := Chip.domIs_of_doms rfl rfl rfl

/-! The kinds of a domain exclude each other (R500). -/

theorem not_other_of_core {n : Nat} (hn : n < 64) : isCoreDom (2 * n) = true ∧ isPoolDom (2 * n) = false ∧ isMemDom (2 * n) = false ∧
    isLinkDom (2 * n) = false ∧ isPortDom (2 * n) = false ∧ isEngineDom (2 * n) = false ∧ isLaneDom (2 * n) = false := by
  simp only [isCoreDom, isPoolDom, isMemDom, isLinkDom, isPortDom, isEngineDom, isLaneDom, Bool.and_eq_true, Bool.and_eq_false_iff,
    decide_eq_true_eq, decide_eq_false_iff_not]
  omega

theorem not_other_of_unit {d : Nat} (h : isLaneDom d = true ∨ isEngineDom d = true) : isCoreDom d = false ∧ isPoolDom d = false ∧
    isMemDom d = false ∧ isLinkDom d = false ∧ isPortDom d = false := by
  simp only [isCoreDom, isPoolDom, isMemDom, isLinkDom, isPortDom, isEngineDom, isLaneDom, Bool.and_eq_true, Bool.and_eq_false_iff,
    decide_eq_true_eq, decide_eq_false_iff_not] at *
  omega

theorem not_unit_of_mem {d : Nat} (h : isMemDom d = true) : isPoolDom d = false ∧ isCoreDom d = false ∧ isLaneDom d = false ∧
    isEngineDom d = false := by
  simp only [isCoreDom, isPoolDom, isMemDom, isEngineDom, isLaneDom, Bool.and_eq_true, Bool.and_eq_false_iff,
    decide_eq_true_eq, decide_eq_false_iff_not] at *
  omega

/-! Requests (R501, R503, R504, R507, R515). -/

/-- Memory that is in use (R515). -/
def Chip.memUsed (c : Chip) (d : Nat) : Prop := isMemDom d = true ∧ ¬(c.req.quiesced = true ∧ c.locked = false)

theorem Chip.quiet_of_unused {c : Chip} {d : Nat} (hfree : ¬c.memUsed d) (h : isMemDom d = true) : (c.req.quiesced && !c.locked) = true := by
  unfold Chip.memUsed at hfree
  simpa [h] using hfree

theorem Chip.powerReq_pool {c : Chip} {d : Nat} (t : PwrTarget) (h : isPoolDom d = true) : c.powerReq d t = c := if_pos (by simp [h])

theorem Chip.turnOff_plain (c : Chip) {d : Nat} (fw : Bool) (hlink : isLinkDom d = false) (hport : isPortDom d = false) :
    c.turnOff d fw = c.setDom d { c.dom d with state := .turningOff, latch := .none, fwSide := fw, begun := isMemDom d } :=
  (if_neg (by simp [hlink])).trans (if_neg (by simp [hport]))

section
variable {c : Chip} {d : Nat} (hpool : isPoolDom d = false) (hon : c.hubOn = true)
include hpool hon

theorem Chip.powerReq_used {t : PwrTarget} (ht : t ≠ .run) (h : c.memUsed d) : c.powerReq d t = c.pwrErr 0 := by
  obtain ⟨hmem, hused⟩ := h
  obtain ⟨-, hcore, -⟩ := not_unit_of_mem hmem
  have hoff : t.on d = .off := by
    cases t with
    | run => exact absurd rfl ht
    | freewheel => simp [PwrTarget.on, hcore]
    | off => rfl
  have hquiet : (c.req.quiesced && !c.locked) = false := by simpa using hused
  simp [Chip.powerReq, hpool, hon, hoff, hmem, hquiet]

theorem Chip.powerReq_run_run (h : (c.dom d).state = .run) : c.powerReq d .run = c := by
  simp [Chip.powerReq, PwrTarget.on, hpool, hon, h]

theorem Chip.powerReq_run_off (h : (c.dom d).state = .off) : c.powerReq d .run = c.turnOn d false := by
  simp [Chip.powerReq, PwrTarget.on, hpool, hon, h]

theorem Chip.powerReq_run_freewheel (h : (c.dom d).state = .freewheel) : c.powerReq d .run = c.turnOn d true := by
  simp [Chip.powerReq, PwrTarget.on, hpool, hon, h]

theorem Chip.powerReq_run_turningOff (h : (c.dom d).state = .turningOff) : c.powerReq d .run = c.latchReq d .on := by
  simp [Chip.powerReq, PwrTarget.on, hpool, hon, h]

theorem Chip.powerReq_run_turningOn (h : (c.dom d).state = .turningOn ∨ (c.dom d).state = .selfTest) :
    c.powerReq d .run = c.latchReq d .none := by
  rcases h with h | h <;> simp [Chip.powerReq, PwrTarget.on, hpool, hon, h]

theorem Chip.powerReq_run_failed (h : (c.dom d).state = .failed) : c.powerReq d .run = c.turnOn d false := by
  simp [Chip.powerReq, PwrTarget.on, hpool, hon, h]

variable (hfree : ¬c.memUsed d)
include hfree

theorem Chip.powerReq_off_failed (h : (c.dom d).state = .failed) : c.powerReq d .off = c.turnOn d false := by
  cases hm : isMemDom d with
  | false => simp [Chip.powerReq, PwrTarget.on, hpool, hon, h, hm]
  | true => simp only [Chip.powerReq, PwrTarget.on, hpool, hon, h, hm, Chip.quiet_of_unused hfree hm]; rfl

theorem Chip.powerReq_off_run (h : (c.dom d).state = .run) : c.powerReq d .off = c.turnOff d false := by
  cases hm : isMemDom d with
  | false => simp [Chip.powerReq, PwrTarget.on, hpool, hon, h, hm]
  | true => simp only [Chip.powerReq, PwrTarget.on, hpool, hon, h, hm, Chip.quiet_of_unused hfree hm]; rfl

/-- FREEWHEEL acts as OFF for domains other than FC logic. -/
theorem Chip.powerReq_freewheel_run (h : (c.dom d).state = .run) : c.powerReq d .freewheel = c.turnOff d (isCoreDom d) := by
  cases hc : isCoreDom d with
  | false => exact Chip.powerReq_off_run hpool hon hfree h ▸ by simp [Chip.powerReq, PwrTarget.on, hc]
  | true => simp [Chip.powerReq, PwrTarget.on, hpool, hon, h, hc]

end

end Sys2Proof.Machine
end

section
/-! SUPPORT. Written requests, and the transitions that they begin and end (R503 to R508, R512, R513). -/

namespace Sys2Proof.Machine

/-! Units that wake (R513). -/

/-- Whether nothing wakes a lane or an engine. -/
def Chip.unitsAsleep (c : Chip) : Prop :=
  c.autoOn = false ∨ (c.txu.jobs.any (fun j => j.lane.isNone) = false ∧ c.vid.units.any (fun u => u.hold.isNone) = false)

theorem Chip.unitsWake_asleep {c : Chip} (h : c.unitsAsleep) : c.unitsWake = c := by
  unfold Chip.unitsWake
  rcases h with h | ⟨hjobs, hunits⟩
  · simp [h]
  · simp [hjobs, hunits]

/-- A request for a domain that is no link PHY and no port changes the domains and PWR_ERR alone. -/
theorem Chip.powerReq_rest (c : Chip) {d : Nat} (t : PwrTarget) (hlink : isLinkDom d = false) (hport : isPortDom d = false) :
    { c.powerReq d t with pwr := { (c.powerReq d t).pwr with doms := c.pwr.doms, err := c.pwr.err } } = c := by
  have hoff : ∀ fw, { c.turnOff d fw with pwr := { (c.turnOff d fw).pwr with doms := c.pwr.doms, err := c.pwr.err } } = c := fun fw => by
    rw [c.turnOff_plain fw hlink hport]
    rfl
  unfold Chip.powerReq
  dsimp only
  split
  · rfl
  · split
    · rfl
    · split
      · rfl
      · split
        · rfl
        · exact hoff _
      · split
        · rfl
        · split
          · exact hoff _
          · rfl
      · split <;> rfl
      all_goals rfl

/-- A written request where nothing wakes a unit. -/
theorem Chip.askDomain_asleep {c : Chip} {d : Nat} (t : PwrTarget) (h : isLaneDom d = true ∨ isEngineDom d = true → c.unitsAsleep) :
    c.askDomain d t = c.powerReq d t := by
  unfold Chip.askDomain
  by_cases hunit : isLaneDom d = true ∨ isEngineDom d = true
  · obtain ⟨-, -, -, hlink, hport⟩ := not_other_of_unit hunit
    have hrest := c.powerReq_rest t hlink hport
    have hpolicy : (c.powerReq d t).pwr.policy = c.pwr.policy := (congrArg (fun b : Chip => b.pwr.policy) hrest :)
    have htxu : (c.powerReq d t).txu = c.txu := (congrArg Chip.txu hrest :)
    have hvid : (c.powerReq d t).vid = c.vid := (congrArg Chip.vid hrest :)
    have hasleep : (c.powerReq d t).unitsAsleep := by
      unfold Chip.unitsAsleep Chip.autoOn
      rw [hpolicy, htxu, hvid]
      exact h hunit
    dsimp only
    rw [Chip.unitsWake_asleep hasleep, ite_self]
  · exact if_neg (by simpa using hunit)

/-- The last of the units that could work is asked for. -/
theorem Chip.unitWake_last {c : Chip} {base n d : Nat} (hlo : base ≤ d) (hhi : d < base + n) (hd : (c.dom d).state = .turningOff)
    (hothers : ∀ e, base ≤ e → e < base + n → e ≠ d → (c.dom e).state = .failed) : c.unitWake base n = c.powerReq d .run := by
  have hmem : ∀ e, e ∈ (List.range n).map (fun i => base + i) ↔ base ≤ e ∧ e < base + n := fun e => by
    simp only [List.mem_map, List.mem_range]
    constructor
    · rintro ⟨i, hi, rfl⟩
      omega
    · rintro ⟨h1, h2⟩
      exact ⟨e - base, by omega, by omega⟩
  have hawake : ((List.range n).map (fun i => base + i)).any
      (fun e => decide ((c.dom e).state = .run) || decide ((c.dom e).state = .turningOn)) = false := by
    rw [List.any_eq_false]
    intro e he
    obtain ⟨h1, h2⟩ := (hmem e).mp he
    by_cases hed : e = d
    · simp [hed, hd]
    · simp [hothers e h1 h2 hed]
  have hfind : ((List.range n).map (fun i => base + i)).find?
      (fun e => decide ((c.dom e).state = .off) || decide ((c.dom e).state = .turningOff)) = some d := by
    cases hf : ((List.range n).map (fun i => base + i)).find?
        (fun e => decide ((c.dom e).state = .off) || decide ((c.dom e).state = .turningOff)) with
    | none =>
      have hno := List.find?_eq_none.mp hf d ((hmem d).mpr ⟨hlo, hhi⟩)
      simp [hd] at hno
    | some e =>
      obtain ⟨h1, h2⟩ := (hmem e).mp (List.mem_of_find?_eq_some hf)
      have hstate := List.find?_some hf
      by_contra hne
      rw [hothers e h1 h2 fun hed => hne (congrArg some hed)] at hstate
      exact absurd hstate (by decide)
  unfold Chip.unitWake
  dsimp only
  rw [hawake, hfind]
  rfl

/-- What waits for a unit of the kind of domain d alone. -/
def Chip.unitsWait (c : Chip) (d : Nat) : Prop :=
  (isLaneDom d = true ∧ c.txu.jobs.any (fun j => j.lane.isNone) = true ∧ c.vid.units.any (fun u => u.hold.isNone) = false) ∨
    (isEngineDom d = true ∧ c.vid.units.any (fun u => u.hold.isNone) = true ∧ c.txu.jobs.any (fun j => j.lane.isNone) = false)

/-- The last lane or engine is asked for again as it turns off (R513). -/
theorem Chip.unitsWake_last {c : Chip} {d : Nat} (hauto : c.autoOn = true) (hwait : c.unitsWait d) (hd : (c.dom d).state = .turningOff)
    (hothers : ∀ e, e ≠ d → (isLaneDom d = true ∧ isLaneDom e = true) ∨ (isEngineDom d = true ∧ isEngineDom e = true) →
      (c.dom e).state = .failed) : c.unitsWake = c.powerReq d .run := by
  unfold Chip.unitsWake
  rcases hwait with ⟨hkind, hjobs, hunits⟩ | ⟨hkind, hunits, hjobs⟩
  · have hrange : 232 ≤ d ∧ d < 236 := by simpa [isLaneDom] using hkind
    have hwake := Chip.unitWake_last (n := 4) hrange.1 hrange.2 hd fun e h1 h2 h3 => hothers e h3 (.inl ⟨hkind, by simp [isLaneDom]; omega⟩)
    have hvid : (c.powerReq d .run).vid = c.vid := (congrArg Chip.vid (c.powerReq_run_rest d) :)
    simp [hauto, hjobs, hwake, hvid, hunits]
  · have hrange : 200 ≤ d ∧ d < 232 := by simpa [isEngineDom] using hkind
    have hwake := Chip.unitWake_last (n := 32) hrange.1 hrange.2 hd fun e h1 h2 h3 => hothers e h3 (.inr ⟨hkind, by simp [isEngineDom]; omega⟩)
    simp [hauto, hjobs, hwake, hunits]

/-- The request that turns the last unit off meets the policy (R513). -/
theorem Chip.askDomain_last {c : Chip} {d : Nat} (hon : c.hubOn = true) (hauto : c.autoOn = true) (hwait : c.unitsWait d)
    (hd : (c.dom d).state = .run)
    (hothers : ∀ e, e ≠ d → (isLaneDom d = true ∧ isLaneDom e = true) ∨ (isEngineDom d = true ∧ isEngineDom e = true) →
      (c.dom e).state = .failed) :
    c.domIs d { c.dom d with state := .turningOff, latch := .on, fwSide := false, begun := false } (c.askDomain d .off) := by
  have hunit : isLaneDom d = true ∨ isEngineDom d = true := hwait.imp And.left And.left
  obtain ⟨-, hpool, hmem, hlink, hport⟩ := not_other_of_unit hunit
  have hfree : ¬c.memUsed d := fun h => absurd h.1 (by simp [hmem])
  let z : Domain := { c.dom d with state := .turningOff, latch := .none, fwSide := false, begun := false }
  have hoff : c.powerReq d .off = c.setDom d z := by
    rw [Chip.powerReq_off_run hpool hon hfree hd, c.turnOff_plain false hlink hport, hmem]
  have hwake : (c.setDom d z).unitsWake = (c.setDom d z).powerReq d .run :=
    Chip.unitsWake_last hauto hwait (by rw [Chip.dom_setDom]) fun e he hkin => by
      rw [c.dom_setDom_other z he]
      exact hothers e he hkin
  have hask : c.askDomain d .off = (c.setDom d z).latchReq d .on := by
    have hor : (isLaneDom d || isEngineDom d) = true := by simpa using hunit
    rw [Chip.askDomain, hor, hoff, hwake]
    exact Chip.powerReq_run_turningOff hpool hon (by rw [Chip.dom_setDom])
  rw [hask]
  refine ⟨by rw [Chip.latchReq, Chip.dom_setDom, Chip.dom_setDom], fun f hf => ?_, rfl, rfl⟩
  rw [Chip.latchReq, Chip.dom_setDom_other _ _ hf, Chip.dom_setDom_other _ _ hf]

end Sys2Proof.Machine
end

section
/-! SUPPORT. Transitions of domains, self-tests and idle times (R501 to R508, R512). -/

namespace Sys2Proof.Machine

theorem Chip.domIs_turnOn (c : Chip) (d : Nat) (fw : Bool) :
    c.domIs d { c.dom d with state := .turningOn, latch := .none, fwSide := fw, begun := true } (c.turnOn d fw) := c.domIs_setDom d _

theorem Chip.domIs_latchReq (c : Chip) (d : Nat) (p : Pending) : c.domIs d { c.dom d with latch := p } (c.latchReq d p) := c.domIs_setDom d _

/-- A link PHY is off at once, and its link with it (Table 3). -/
theorem Chip.turnOff_link {c : Chip} {d : Nat} (fw : Bool) (hlink : isLinkDom d = true) :
    ((c.turnOff d fw).dom d).state = .off ∧ ((c.turnOff d fw).link (d - 172)).state = .disabled ∧ c.besideDom d (c.turnOff d fw) := by
  have heq : c.turnOff d fw = ((c.linkOff (d - 172)).setDom d { c.dom d with state := .off, latch := .none }).countTransition := if_pos hlink
  obtain ⟨hmem, hcores, hpwr, hdown⟩ := c.linkOff_keeps (d - 172)
  have his : c.domIs d { c.dom d with state := .off, latch := .none } (c.turnOff d fw) := by
    have hdoms := congrArg (fun p : Pwr => SMap.set p.doms d { c.dom d with state := .off, latch := .none }) hpwr
    rw [heq]
    exact Chip.domIs_of_doms hdoms hmem hcores
  exact ⟨congrArg Domain.state his.1, by rw [heq]; exact hdown, his.2⟩

/-! Pools (R501, R505, R506). -/

/-- A range of zeros; the rest of memory is as it was. -/
theorem Mem.read_zeroRange {c : Chip} (hmem : Mem.wf c.mem = true) (base size a : Nat) :
    Mem.read (c.zeroRange base size).mem a = if base ≤ a ∧ a < base + size then 0 else Mem.read c.mem a := by
  rw [show (c.zeroRange base size).mem = c.mem.filter fun p => !(decide (base ≤ p.1) && decide (p.1 < base + size)) from rfl,
    Mem.read_filter (fun b => !(decide (base ≤ b) && decide (b < base + size))) hmem]
  by_cases h : base ≤ a ∧ a < base + size
  · rw [if_pos h, if_neg (by simp [h.1, h.2])]
  · rw [if_neg h, if_pos (by simp; omega)]

/-- The Pool of core n holds zeros, and the rest of memory is as it was. -/
def Chip.poolZeroed (c : Chip) (n : Nat) (b : Chip) : Prop := ∀ a,
  Mem.read b.mem a = if poolBase + n * poolSize ≤ a ∧ a < poolBase + (n + 1) * poolSize then 0 else Mem.read c.mem a

/-- What a Pool that comes on or goes off changes (R501, R505). -/
structure Chip.PoolIs (c : Chip) (n : Nat) (st : DomState) (b : Chip) : Prop where
  state : (b.dom (2 * n + 1)).state = st
  others : ∀ f, f ≠ 2 * n + 1 → b.dom f = c.dom f
  cores : b.cores = c.cores
  alone : n ∉ b.pwr.poolAlone
  zero : Mem.wf c.mem = true → c.poolZeroed n b

theorem Chip.poolIs_setPool (c : Chip) (n : Nat) (st : DomState) : c.PoolIs n st (c.setPool n st) := by
  obtain ⟨hdom, hother, -, -⟩ := c.domIs_setDom (2 * n + 1) { c.dom (2 * n + 1) with state := st }
  refine ⟨congrArg Domain.state hdom, hother, rfl, by simp [Chip.setPool], fun hmem a => ?_⟩
  exact (Mem.read_zeroRange hmem _ _ _).trans (if_congr (by rw [Nat.succ_mul, Nat.add_assoc]) rfl rfl)

/-! Transitions (R503, R507). -/

theorem Chip.carryOut_none {c : Chip} {d : Nat} (h : (c.dom d).latch = .none) : c.carryOut d = c := by
  simp [Chip.carryOut, h, Pending.target]

theorem Chip.carryOut_on {c : Chip} {d : Nat} (h : (c.dom d).latch = .on) : c.carryOut d = (c.latchReq d .none).powerReq d .run := by
  simp [Chip.carryOut, h, Pending.target]

/-- The domain as it reaches Off or Freewheel. -/
def Domain.reached (x : Domain) : Domain := { x with state := if x.fwSide then .freewheel else .off }

/-- A domain whose Pool does not follow it reaches Off or Freewheel. -/
theorem Chip.reachOff_alone {c : Chip} {d : Nat} (h : ¬(isCoreDom d = true ∧ (c.dom d).fwSide = false)) :
    c.domIs d (c.dom d).reached (c.reachOff d) ∧ (c.reachOff d).pwr.transitions = c.pwr.transitions + 1 := by
  unfold Chip.reachOff
  dsimp only
  rw [if_neg h]
  split <;> exact ⟨Chip.domIs_of_doms rfl rfl rfl, rfl⟩

/-- A core reaches Off, and its Pool with it. -/
theorem Chip.reachOff_core {c : Chip} {n : Nat} (hn : n < 64) (hfw : (c.dom (2 * n)).fwSide = false) :
    (c.reachOff (2 * n)).dom (2 * n) = { c.dom (2 * n) with state := .off } ∧
      ((c.reachOff (2 * n)).dom (2 * n + 1)).state = .off ∧ (c.reachOff (2 * n)).cores = c.cores ∧
      (Mem.wf c.mem = true → c.poolZeroed n (c.reachOff (2 * n))) ∧ (c.reachOff (2 * n)).hubOn = c.hubOn := by
  obtain ⟨hcore, -⟩ := not_other_of_core hn
  have heq : c.reachOff (2 * n) =
      ((c.setDom (2 * n) { c.dom (2 * n) with state := .off }).countTransition).setPool n .off := by
    simp [Chip.reachOff, hcore, hfw]
  have hpool := Chip.poolIs_setPool ((c.setDom (2 * n) { c.dom (2 * n) with state := .off }).countTransition) n .off
  rw [heq]
  exact ⟨(hpool.others _ (by omega)).trans (c.dom_setDom _ _), hpool.state, hpool.cores, hpool.zero, rfl⟩

section
variable {c : Chip} {d : Nat}

theorem Chip.endTransition_off (hstate : (c.dom d).state = .turningOff) (hbegun : (c.dom d).begun = true) :
    c.endTransition d = (c.reachOff d).carryOut d := if_pos ⟨hstate, hbegun⟩

theorem Chip.endTransition_on (hstate : (c.dom d).state = .turningOn) (hcore : isCoreDom d = false) :
    c.endTransition d = (c.reachRun d).carryOut d := by
  simp [Chip.endTransition, hstate, hcore]

/-- A domain whose Pool does not follow it ends its way to Off or Freewheel, nothing latched. -/
theorem Chip.endTransition_alone (hstate : (c.dom d).state = .turningOff) (hbegun : (c.dom d).begun = true)
    (hlatch : (c.dom d).latch = .none) (h : ¬(isCoreDom d = true ∧ (c.dom d).fwSide = false)) :
    c.domIs d (c.dom d).reached (c.endTransition d) ∧ (c.endTransition d).pwr.transitions = c.pwr.transitions + 1 := by
  have hoff := Chip.reachOff_alone h
  rw [Chip.endTransition_off hstate hbegun, Chip.carryOut_none (by rw [hoff.1.1]; exact hlatch)]
  exact hoff

/-- A unit comes to Run (R507). -/
theorem Chip.endTransition_unit (hstate : (c.dom d).state = .turningOn) (hlatch : (c.dom d).latch = .none) (hcore : isCoreDom d = false)
    (hmem : isMemDom d = false) (hlink : isLinkDom d = false) :
    c.domIs d { c.dom d with state := .run } (c.endTransition d) ∧ (c.endTransition d).pwr.transitions = c.pwr.transitions + 1 := by
  have hrun : c.reachRun d = (c.setDom d { c.dom d with state := .run }).countTransition := by
    simp [Chip.reachRun, hmem, hlink]
  have his : c.domIs d { c.dom d with state := .run } (c.reachRun d) := by
    rw [hrun]
    exact Chip.domIs_of_doms rfl rfl rfl
  rw [Chip.endTransition_on hstate hcore, Chip.carryOut_none (by rw [his.1]; exact hlatch)]
  exact ⟨his, by rw [hrun]; rfl⟩

/-- Work ends before a domain turns off (R503). -/
theorem Chip.beginTransition_drained (hstate : (c.dom d).state = .turningOff) (hbegun : (c.dom d).begun = false) (hdrained : c.drained d = true) :
    c.beginTransition d = c.setDom d { c.dom d with begun := true } := if_pos ⟨hstate, hbegun, hdrained⟩

theorem Chip.beginTransition_idle (h : c.drained d = false ∨ (c.dom d).state ≠ .turningOff) : c.beginTransition d = c :=
  if_neg fun ⟨h1, _, h3⟩ => h.elim (fun h => absurd h3 (by simp [h])) fun h => h h1

end

/-! Self-tests beside the core (R549). -/

/-- A core has been tested. -/
def Chip.tested (c : Chip) (n : Nat) : Chip :=
  { c with rst := { c.rst with coresTested := if n ∈ c.rst.coresTested then c.rst.coresTested else n :: c.rst.coresTested } }

theorem Chip.tryBringup_pwr (c : Chip) : c.tryBringup.pwr = c.pwr := (congrArg Chip.pwr c.tryBringup_rest :)

theorem Chip.domIs_tryBringup (b : Chip) {c : Chip} {d : Nat} {z : Domain} (h : c.domIs d z b) : c.domIs d z b.tryBringup := by
  obtain ⟨hdom, hothers, hmem, hcores⟩ := h
  have hdoms : ∀ f, b.tryBringup.dom f = b.dom f := fun f => by rw [Chip.dom, b.tryBringup_pwr, Chip.dom]
  exact ⟨(hdoms d).trans hdom, fun f hf => (hdoms f).trans (hothers f hf), b.tryBringup_mem.trans hmem,
    (congrArg Chip.cores b.tryBringup_rest :).trans hcores⟩

/-! Cores (R506, R507, R508). -/

section
variable {c : Chip} {n : Nat} (hn : n < 64)
include hn

/-- A core reaches Off with nothing latched (R501). -/
theorem Chip.endTransition_core (hstate : (c.dom (2 * n)).state = .turningOff) (hbegun : (c.dom (2 * n)).begun = true)
    (hlatch : (c.dom (2 * n)).latch = .none) (hfw : (c.dom (2 * n)).fwSide = false) : let b := c.endTransition (2 * n)
    b.dom (2 * n) = { c.dom (2 * n) with state := .off } ∧ (b.dom (2 * n + 1)).state = .off ∧ b.cores = c.cores ∧
      (Mem.wf c.mem = true → c.poolZeroed n b) := by
  obtain ⟨hdom, hpool, hcores, hzero, -⟩ := Chip.reachOff_core hn hfw
  rw [Chip.endTransition_off hstate hbegun, Chip.carryOut_none (by rw [hdom]; exact hlatch)]
  exact ⟨hdom, hpool, hcores, hzero⟩

/-- A latched request for Run turns the core on again (R507). -/
theorem Chip.endTransition_latched (hon : c.hubOn = true) (hstate : (c.dom (2 * n)).state = .turningOff)
    (hbegun : (c.dom (2 * n)).begun = true) (hlatch : (c.dom (2 * n)).latch = .on) :
    ((c.endTransition (2 * n)).dom (2 * n)).state = .turningOn := by
  obtain ⟨-, hpool, -⟩ := not_other_of_core hn
  have again : ∀ b : Chip, b.hubOn = true → (b.dom (2 * n)).latch = .on → (b.dom (2 * n)).state = .off ∨ (b.dom (2 * n)).state = .freewheel →
      ((b.carryOut (2 * n)).dom (2 * n)).state = .turningOn := fun b hb hl hs => by
    have hdom := (b.domIs_latchReq (2 * n) .none).1
    have hb' : (b.latchReq (2 * n) .none).hubOn = true := hb
    have hturn : ∀ fw, ((((b.latchReq (2 * n) .none).turnOn (2 * n) fw)).dom (2 * n)).state = .turningOn := fun fw =>
      congrArg Domain.state ((b.latchReq (2 * n) .none).domIs_turnOn (2 * n) fw).1
    rw [Chip.carryOut_on hl]
    rcases hs with hs | hs
    · rw [Chip.powerReq_run_off hpool hb' (by rw [hdom]; exact hs)]
      exact hturn _
    · rw [Chip.powerReq_run_freewheel hpool hb' (by rw [hdom]; exact hs)]
      exact hturn _
  rw [Chip.endTransition_off hstate hbegun]
  cases hfw : (c.dom (2 * n)).fwSide with
  | true =>
    obtain ⟨⟨hdom, -⟩, -⟩ := Chip.reachOff_alone (c := c) (d := 2 * n) (by simp [hfw])
    refine again _ ?_ (by rw [hdom]; exact hlatch) (.inr (by rw [hdom, Domain.reached, hfw]; rfl))
    unfold Chip.reachOff
    dsimp only
    split
    · exact hon
    · split <;> exact hon
  | false =>
    obtain ⟨hdom, -, -, -, hhub⟩ := Chip.reachOff_core hn hfw
    exact again _ (hhub.trans hon) (by rw [hdom]; exact hlatch) (.inl (by rw [hdom]))

/-- A core that comes back from Freewheel tests itself (R508). -/
theorem Chip.endTransition_wake (hstate : (c.dom (2 * n)).state = .turningOn) (hfw : (c.dom (2 * n)).fwSide = true) :
    c.endTransition (2 * n) = c.setDom (2 * n) { c.dom (2 * n) with state := .selfTest } := by
  obtain ⟨hcore, -⟩ := not_other_of_core hn
  simp [Chip.endTransition, hstate, hcore, hfw]

/-- A core that comes back from Off is reset and tests itself (R506, R508). -/
theorem Chip.endTransition_reset (hstate : (c.dom (2 * n)).state = .turningOn) (hfw : (c.dom (2 * n)).fwSide = false) :
    let b := c.endTransition (2 * n)
    b.dom (2 * n) = { c.dom (2 * n) with state := .selfTest } ∧ (b.dom (2 * n + 1)).state = .run ∧
      b.core n = { Core.reset with smWaiting := (c.core n).smWaiting } ∧ (∀ m, m ≠ n → b.core m = c.core m) ∧
      (Mem.wf c.mem = true → c.poolZeroed n b) := by
  obtain ⟨hcore, -⟩ := not_other_of_core hn
  have hpool := c.poolIs_setPool n .run
  have hdom : (c.coreReset n).dom (2 * n) = c.dom (2 * n) := hpool.others _ (by omega)
  have heq : c.endTransition (2 * n) = (c.coreReset n).setDom (2 * n) { c.dom (2 * n) with state := .selfTest } := by
    rw [← hdom]
    simp [Chip.endTransition, hstate, hcore, hfw]
  have hcores : (c.setPool n .run).cores = c.cores := hpool.cores
  rw [heq]
  refine ⟨Chip.dom_setDom _ _ _, ?_, Chip.core_setCore _ _ _, fun m hm => ?_, hpool.zero⟩
  · rw [Chip.dom_setDom_other _ _ (by omega)]
    exact hpool.state
  · exact (Chip.core_setCore_other _ _ hm).trans (by rw [Chip.core, hcores, Chip.core])

/-- A core that passes its self-test (R508). -/
theorem Chip.selfTestDone_pass (hstate : (c.dom (2 * n)).state = .selfTest) (hlatch : (c.dom (2 * n)).latch = .none) :
    let b := c.selfTestDone n true
    c.domIs (2 * n) { c.dom (2 * n) with state := .run } b ∧ n ∈ b.pwr.fresh := by
  obtain ⟨-, -, hmem, hlink, -⟩ := not_other_of_core hn
  let u : Chip := c.tested n
  let v : Chip := { u.reachRun (2 * n) with
    pwr := { (u.reachRun (2 * n)).pwr with fresh := n :: u.pwr.fresh.filter (fun m => m ≠ n) } }
  have hrun : u.reachRun (2 * n) = (u.setDom (2 * n) { c.dom (2 * n) with state := .run }).countTransition := by
    simp only [Chip.reachRun, hmem, hlink, Bool.false_eq_true, if_false]
    rfl
  have hv : c.domIs (2 * n) { c.dom (2 * n) with state := .run } v := by
    unfold v
    rw [hrun]
    exact Chip.domIs_of_doms rfl rfl rfl
  have heq : c.selfTestDone n true = (v.carryOut (2 * n)).tryBringup := if_pos hstate
  rw [heq, Chip.carryOut_none (by rw [hv.1]; exact hlatch)]
  exact ⟨v.domIs_tryBringup hv, by rw [v.tryBringup_pwr]; exact List.mem_cons_self⟩

end

/-- A core that fails its self-test (R508). -/
theorem Chip.selfTestDone_fail {c : Chip} {n : Nat} (hstate : (c.dom (2 * n)).state = .selfTest) : let b := c.selfTestDone n false
    c.domIs (2 * n) { c.dom (2 * n) with state := .failed, latch := .none } b ∧ b.pwr.err.getLsbD 1 = true := by
  let u : Chip := ((c.tested n).setDom (2 * n) { c.dom (2 * n) with state := .failed, latch := .none }).pwrErr 1
  have hnoted : Noted u (u.log 0x0032 2 0x44 [BitVec.ofNat 8 (2 * n)]) := .log _ _ _ _ _
  have heq : c.selfTestDone n false = (u.log 0x0032 2 0x44 [BitVec.ofNat 8 (2 * n)]).tryBringup := if_pos hstate
  rw [heq]
  refine ⟨Chip.domIs_tryBringup _ (Chip.domIs_of_doms (congrArg Pwr.doms hnoted.pwr) hnoted.mem hnoted.cores), ?_⟩
  rw [Chip.tryBringup_pwr, hnoted.pwr]
  simp [u, Chip.pwrErr]

theorem Chip.selfTestDone_idle {c : Chip} {n : Nat} (pass : Bool) (h : (c.dom (2 * n)).state ≠ .selfTest) : c.selfTestDone n pass = c := if_neg h

end Sys2Proof.Machine
end

section
/-! SUPPORT. Idle times, frequencies and their limits (R498, R505, R509, R510, R512, R526), and the statement about power and frequencies. -/

namespace Sys2Proof.Machine

/-! Idle times (R505, R512). -/

section
variable {c : Chip} {n : Nat} (hn : n < 64)
include hn

theorem Chip.turnOff_core (fw : Bool) :
    c.turnOff (2 * n) fw = c.setDom (2 * n) { c.dom (2 * n) with state := .turningOff, latch := .none, fwSide := fw, begun := false } := by
  obtain ⟨-, -, hmem, hlink, hport, -⟩ := not_other_of_core hn
  rw [c.turnOff_plain fw hlink hport, hmem]

theorem Chip.core_unused : ¬c.memUsed (2 * n) := fun h => by
  obtain ⟨-, -, hmem, -⟩ := not_other_of_core hn
  exact absurd h.1 (by simp [hmem])

/-- A core that has been idle goes to Freewheel (R512). -/
theorem Chip.fwIdle_spec (hon : c.hubOn = true) (hauto : c.autoOn = true) (hown : (c.dom (2 * n)).auto = true) (hqueue : c.req.placeQ = [])
    (hstate : (c.dom (2 * n)).state = .run) (hpolicy : bits c.pwr.policy 47 32 ≠ 0) (hidle : (c.core n).idle = true)
    (hmin : Nat.min 64 (bits c.pwr.policy 14 8) < c.running) :
    c.domIs (2 * n) { c.dom (2 * n) with state := .turningOff, latch := .none, fwSide := true, begun := false } (c.fwIdle n) := by
  obtain ⟨hcore, hpool, -⟩ := not_other_of_core hn
  have hreq : c.powerReq (2 * n) .freewheel = _ := Chip.powerReq_freewheel_run hpool hon (Chip.core_unused hn) hstate
  rw [hcore, Chip.turnOff_core hn] at hreq
  have heq : c.fwIdle n = (c.powerReq (2 * n) .freewheel).autoWake := if_pos (by simp [hauto, hown, hstate, hpolicy, hidle, hmin])
  rw [heq, hreq, Chip.autoWake, show Chip.req (Chip.setDom c _ _) = c.req from rfl, hqueue, List.foldl_nil, ite_self]
  exact c.domIs_setDom _ _

/-- A core that has been long in Freewheel goes to Off (R512). -/
theorem Chip.offIdle_spec (hon : c.hubOn = true) (hauto : c.autoOn = true) (hown : (c.dom (2 * n)).auto = true) (hqueue : c.req.placeQ = [])
    (hstate : (c.dom (2 * n)).state = .freewheel) (hpolicy : bits c.pwr.policy 63 48 ≠ 0) :
    c.domIs (2 * n) { c.dom (2 * n) with state := .turningOff, latch := .none, fwSide := false, begun := false } (c.offIdle n) := by
  obtain ⟨-, hpool, hmem, -⟩ := not_other_of_core hn
  have hreq : c.powerReq (2 * n) .off = c.turnOff (2 * n) false := by
    simp [Chip.powerReq, PwrTarget.on, hpool, hon, hstate, hmem]
  rw [Chip.turnOff_core hn] at hreq
  have heq : c.offIdle n = (c.powerReq (2 * n) .off).autoWake := if_pos (by simp [hauto, hown, hstate, hpolicy])
  rw [heq, hreq, Chip.autoWake, show Chip.req (Chip.setDom c _ _) = c.req from rfl, hqueue, List.foldl_nil, ite_self]
  exact c.domIs_setDom _ _

end

theorem Chip.fwIdle_idle {c : Chip} {n : Nat}
    (h : c.autoOn = false ∨ (c.dom (2 * n)).auto = false ∨ c.running ≤ Nat.min 64 (bits c.pwr.policy 14 8)) : c.fwIdle n = c := by
  refine if_neg ?_
  rcases h with h | h | h
  · simp [h]
  · simp [h]
  · simp [Nat.not_lt.mpr h]

theorem Chip.offIdle_idle {c : Chip} {n : Nat}
    (h : c.autoOn = false ∨ (c.dom (2 * n)).auto = false ∨ bits c.pwr.policy 63 48 = 0) : c.offIdle n = c := by
  refine if_neg ?_
  rcases h with h | h | h <;> simp [h]

/-! Limits (R509, R510). -/

/-- A PWR_ERR bit that a condition sets leaves the rest. -/
theorem Chip.pwrErr_of (c : Chip) (p : Prop) [Decidable p] (i : Nat) :
    { (if p then c.pwrErr i else c) with pwr := { (if p then c.pwrErr i else c).pwr with err := c.pwr.err } } = c := by
  split <;> rfl

theorem Chip.pwrErr_bit (c : Chip) {i : Nat} (h : i < 4) : (c.pwrErr i).pwr.err.getLsbD i = true := by
  simp only [Chip.pwrErr, BitVec.getLsbD_or, BitVec.getLsbD_ofNat, Nat.testBit_two_pow_self, h, decide_true, Bool.and_self, Bool.or_true]

/-- The temperatures of the sensors on a core's die. -/
def dieTemps (temps : List Int) (n : Nat) : List Int := (temps.zipIdx.filter (fun p => sensorDie p.2 = coreDie n)).map (fun p => p.1)

theorem mem_dieTemps {temps : List Int} {n : Nat} {t : Int} :
    t ∈ dieTemps temps n ↔ ∃ i, temps[i]? = some t ∧ sensorDie i = coreDie n := by
  simp only [dieTemps, List.mem_map, List.mem_filter, decide_eq_true_eq, Prod.exists, exists_and_right, exists_eq_right,
    List.mk_mem_zipIdx_iff_getElem?]

theorem Chip.thermNext_eq (c : Chip) (temps : List Int) (n : Nat) : c.thermNext temps n =
    if (dieTemps temps n).any (fun t => c.throttleAt < t) then Nat.max 800 (Nat.min (c.thermMhz n) (c.goalMhz n) - 100)
    else if (dieTemps temps n).all (fun t => t < c.regainBelow) then Nat.min 2200 (c.thermMhz n + 100) else c.thermMhz n := rfl

/-- Whether every sensor of a core's die reads what p says. -/
def dieAll (temps : List Int) (n : Nat) (p : Int → Prop) : Prop := ∀ i t, temps[i]? = some t → sensorDie i = coreDie n → p t

theorem dieAll_iff {temps : List Int} {n : Nat} {p : Int → Prop} : dieAll temps n p ↔ ∀ t ∈ dieTemps temps n, p t :=
  ⟨fun h t ht => (mem_dieTemps.mp ht).elim fun i hi => h i t hi.1 hi.2, fun h i t ht hd => h t (mem_dieTemps.mpr ⟨i, ht, hd⟩)⟩

/-- What a sample of the sensors makes of a core's thermal limit (R509). -/
theorem Chip.thermNext_spec (c : Chip) (temps : List Int) (n : Nat) :
    ((∃ i t, temps[i]? = some t ∧ sensorDie i = coreDie n ∧ c.throttleAt < t) →
      c.thermNext temps n = Nat.max 800 (Nat.min (c.thermMhz n) (c.goalMhz n) - 100)) ∧
    (dieAll temps n (fun t => t ≤ c.throttleAt) → dieAll temps n (fun t => t < c.regainBelow) →
      c.thermNext temps n = Nat.min 2200 (c.thermMhz n + 100)) ∧
    (dieAll temps n (fun t => t ≤ c.throttleAt) → ¬dieAll temps n (fun t => t < c.regainBelow) → c.thermNext temps n = c.thermMhz n) := by
  rw [Chip.thermNext_eq, dieAll_iff, dieAll_iff]
  refine ⟨fun ⟨i, t, ht, hdie, hhot⟩ => if_pos ?_, fun hcool hbelow => ?_, fun hcool hbetween => ?_⟩
  · exact List.any_eq_true.mpr ⟨t, mem_dieTemps.mpr ⟨i, ht, hdie⟩, decide_eq_true hhot⟩
  · rw [if_neg (by simpa using hcool), if_pos (by simpa using hbelow)]
  · rw [if_neg (by simpa using hcool), if_neg (by simpa using hbetween)]

/-- What a sample of the sensors leaves (R509). -/
theorem Chip.thermalSample_spec (c : Chip) (temps : List Int) {n : Nat} (hn : n < 64) : let b := c.thermalSample temps
    b.mem = c.mem ∧ b.cores = c.cores ∧ b.pwr.doms = c.pwr.doms ∧ b.pwr.maxMhz = c.pwr.maxMhz ∧ b.pwr.curMhz = c.pwr.curMhz ∧
      b.pwr.capMhz = c.pwr.capMhz ∧ b.thermMhz n = c.thermNext temps n ∧ (b.thermMhz n < c.maxMhz n → b.pwr.err.getLsbD 2 = true) := by
  unfold Chip.thermalSample
  extract_lets hot lim p c1 b
  have hrest : { b with pwr := { b.pwr with err := c1.pwr.err } } = c1 := c1.pwrErr_of _ 2
  have hlim : c1.thermMhz n = c.thermNext temps n := (SMap.get_map_range _ _ _ _).trans (if_pos hn)
  have hb : b.thermMhz n = c1.thermMhz n := (congrArg (fun b : Chip => b.thermMhz n) hrest :)
  refine ⟨(congrArg Chip.mem hrest :), (congrArg Chip.cores hrest :), (congrArg (fun b : Chip => b.pwr.doms) hrest :),
    (congrArg (fun b : Chip => b.pwr.maxMhz) hrest :), (congrArg (fun b : Chip => b.pwr.curMhz) hrest :),
    (congrArg (fun b : Chip => b.pwr.capMhz) hrest :), hb.trans hlim, fun hlow => ?_⟩
  rw [hb] at hlow
  unfold b
  rw [if_pos (List.any_eq_true.mpr ⟨n, List.mem_range.mpr hn, decide_eq_true hlow⟩)]
  exact c1.pwrErr_bit (by decide)

/-- What a sample of the power leaves (R510). -/
theorem Chip.capSample_spec (c : Chip) (watts : Nat) {n : Nat} (hn : n < 64) : let b := c.capSample watts
    b.mem = c.mem ∧ b.cores = c.cores ∧ b.pwr.doms = c.pwr.doms ∧ b.pwr.maxMhz = c.pwr.maxMhz ∧ b.pwr.curMhz = c.pwr.curMhz ∧
      b.pwr.thermMhz = c.pwr.thermMhz ∧ b.pwr.measured = BitVec.ofNat 16 watts ∧ b.capMhz n = c.capNext watts n ∧
      (b.capMhz n < Nat.min (c.maxMhz n) (c.thermMhz n) → b.pwr.err.getLsbD 3 = true) := by
  unfold Chip.capSample
  extract_lets lim p c1 b
  have hrest : { b with pwr := { b.pwr with err := c1.pwr.err } } = c1 := c1.pwrErr_of _ 3
  have hlim : c1.capMhz n = c.capNext watts n := (SMap.get_map_range _ _ _ _).trans (if_pos hn)
  have hb : b.capMhz n = c1.capMhz n := (congrArg (fun b : Chip => b.capMhz n) hrest :)
  refine ⟨(congrArg Chip.mem hrest :), (congrArg Chip.cores hrest :), (congrArg (fun b : Chip => b.pwr.doms) hrest :),
    (congrArg (fun b : Chip => b.pwr.maxMhz) hrest :), (congrArg (fun b : Chip => b.pwr.curMhz) hrest :),
    (congrArg (fun b : Chip => b.pwr.thermMhz) hrest :), (congrArg (fun b : Chip => b.pwr.measured) hrest :), hb.trans hlim, fun hlow => ?_⟩
  rw [hb] at hlow
  unfold b
  rw [if_pos (List.any_eq_true.mpr ⟨n, List.mem_range.mpr hn, decide_eq_true hlow⟩)]
  exact c1.pwrErr_bit (by decide)

/-- What a sample of the power makes of a core's limit (R510). -/
theorem Chip.capNext_spec (c : Chip) (watts n : Nat) : let cap := bits c.pwr.cap 15 0
    (cap < watts → (c.dom (2 * n)).state = .run → c.capNext watts n = Nat.max 800 (Nat.min (c.capMhz n) (c.goalMhz n) - 100)) ∧
    (watts * 20 ≤ cap * 19 → c.capNext watts n = Nat.min 2200 (c.capMhz n + 100)) ∧
    (cap * 19 < watts * 20 → watts ≤ cap → c.capNext watts n = c.capMhz n) := by
  intro cap
  refine ⟨fun h hrun => if_pos ⟨h, hrun⟩, fun h => (if_neg fun hk => ?_).trans (if_pos h),
    fun h hle => (if_neg fun hk => ?_).trans (if_neg (Nat.not_le.mpr h))⟩
  · have : cap < watts := hk.1
    omega
  · have : cap < watts := hk.1
    omega

end Sys2Proof.Machine
end

section
/-! SUPPORT. The statement about power and frequencies (R498 to R515). -/

namespace Sys2Proof.Machine

/-- A request for a unit that is on its way to Off or to Run meets nothing in the policy beside itself. -/
theorem Chip.askDomain_pool {c : Chip} {d : Nat} (t : PwrTarget) (h : isPoolDom d = true) : c.askDomain d t = c := by
  have hunit : ¬(isLaneDom d = true ∨ isEngineDom d = true) := fun hu => by
    obtain ⟨-, hpool, -⟩ := not_other_of_unit hu
    exact absurd h (by simp [hpool])
  rw [Chip.askDomain_asleep t fun hu => absurd hu hunit, Chip.powerReq_pool t h]

theorem Domain.reached_off {x : Domain} (h : x.fwSide = false) : x.reached = { x with state := .off } := by simp [Domain.reached, h]

theorem Domain.reached_freewheel {x : Domain} (h : x.fwSide = true) : x.reached = { x with state := .freewheel } := by simp [Domain.reached, h]

/-- The frequencies once a core's PLL has locked at its goal (R498). -/
theorem Chip.curMhz_set (c : Chip) (n m : Nat) :
    ({ c with pwr := { c.pwr with curMhz := SMap.set c.pwr.curMhz n (c.goalMhz n) } } : Chip).curMhz m = if m = n then c.goalMhz n else c.curMhz m :=
  SMap.get_set _ _ _ _ _

/-- Settles O52: each request by the state it meets, each transition by what it ends, and each sample by the limit that it moves. -/
theorem powerAndFrequencies : Obligations.PowerAndFrequencies := by
  refine ⟨fun s d fc hmem hd hon => ?_, fun s fc temps watts htemps hpor hheld => ?_⟩
  · intro c x n k y rest asked inPool poolZero used unit jobs units asleep kin waiting
    have hn : n < 64 := fc.isLt
    have hk : k < 236 := by omega
    have run {p : Chip → Prop} (h : p (c.askDomain d .run)) : Completes s (.pwrReqRun d) p :=
      .of_runIf (f := fun c => c.askDomain d .run) rfl (decide_eq_true hd) h
    have wheel {p : Chip → Prop} (h : p (c.askDomain d .freewheel)) : Completes s (.pwrReqFreewheel d) p :=
      .of_runIf (f := fun c => c.askDomain d .freewheel) rfl (decide_eq_true hd) h
    have off {p : Chip → Prop} (h : p (c.askDomain d .off)) : Completes s (.pwrReqOff d) p :=
      .of_runIf (f := fun c => c.askDomain d .off) rfl (decide_eq_true hd) h
    have begins {p : Chip → Prop} (h : p (c.beginTransition d)) : Completes s (.powerTransitionBegin d) p :=
      .of_runIf (f := fun c => c.beginTransition d) rfl (decide_eq_true hd) h
    have ends {e : Nat} {p : Chip → Prop} (he : e < 236) (h : p (c.endTransition e)) : Completes s (.powerTransitionDone e) p :=
      .of_runIf (f := fun c => c.endTransition e) rfl (decide_eq_true he) h
    have tested {pass : Bool} {p : Chip → Prop} (h : p (c.selfTestDone n pass)) : Completes s (.selftestDone fc pass) p :=
      .of_run (f := fun c => c.selfTestDone fc.toNat pass) rfl h
    have fwOver {p : Chip → Prop} (h : p (c.fwIdle n)) : Completes s (.fwIdleExpiry fc) p := .of_run (f := fun c => c.fwIdle fc.toNat) rfl h
    have offOver {p : Chip → Prop} (h : p (c.offIdle n)) : Completes s (.offIdleExpiry fc) p := .of_run (f := fun c => c.offIdle fc.toNat) rfl h
    have poolOver {p : Chip → Prop} (h : p (c.poolIdle n)) : Completes s (.poolIdleOff fc) p := .of_run (f := fun c => c.poolIdle fc.toNat) rfl h
    refine ⟨fun hpool i hi => ?_, fun hpool hasleep => ?_, fun hauto hstate hothers hwait => off ?_, fun hstate hbegun hdrained => begins ?_,
      fun h => begins (Chip.beginTransition_idle h), fun hunit hlatch => ?_, fun hstate hbegun hlatch => ⟨fun hfw => ends hk ?_, fun hfw => ends hk ?_⟩,
      fun hstate hbegun hlatch => ends hk (Chip.endTransition_latched hn hon hstate hbegun hlatch), fun hstate hfw => ends hk ?_,
      fun hstate hfw => ends hk ?_, fun hstate => ⟨fun hlatch => tested ?_, tested ?_⟩, fun hstate pass => tested (Chip.selfTestDone_idle pass hstate),
      fun hauto hown hqueue => ⟨fun hstate hpolicy hidle hmin => fwOver ?_, fun hstate hpolicy => offOver ?_⟩,
      fun h => fwOver (Chip.fwIdle_idle h), fun h => offOver (Chip.offIdle_idle h), fun hin => poolOver ?_, fun hout => poolOver (if_neg hout)⟩
    · simp only [List.mem_cons, List.not_mem_nil, or_false] at hi
      rcases hi with rfl | rfl | rfl
      · exact run (Chip.askDomain_pool .run hpool)
      · exact wheel (Chip.askDomain_pool .freewheel hpool)
      · exact off (Chip.askDomain_pool .off hpool)
    · have hask : ∀ t, c.askDomain d t = c.powerReq d t := fun t => Chip.askDomain_asleep t hasleep
      refine ⟨fun hstate => run ?_, fun hstate => run ?_, fun hstate => run ?_, fun hstate => run ?_, fun hstate hfree => ⟨run ?_, off ?_⟩,
        fun hused => ⟨off ?_, wheel ?_⟩, fun hstate hlink hport hfree => ⟨off ?_, wheel ?_⟩, fun hstate hlink => off ?_⟩
      · exact (hask .run).trans (Chip.powerReq_run_run hpool hon hstate)
      · rw [hask, Chip.powerReq_run_off hpool hon hstate]
        exact c.domIs_turnOn d false
      · rw [hask, Chip.powerReq_run_turningOff hpool hon hstate]
        exact c.domIs_latchReq d .on
      · rw [hask, Chip.powerReq_run_turningOn hpool hon hstate]
        exact c.domIs_latchReq d .none
      · rw [hask, Chip.powerReq_run_failed hpool hon hstate]
        exact c.domIs_turnOn d false
      · rw [hask, Chip.powerReq_off_failed hpool hon hfree hstate]
        exact c.domIs_turnOn d false
      · rw [hask, Chip.powerReq_used hpool hon (by decide) hused]
        exact ⟨rfl, c.pwrErr_bit (by decide), fun _ _ => rfl, rfl, rfl⟩
      · rw [hask, Chip.powerReq_used hpool hon (by decide) hused]
        exact ⟨rfl, c.pwrErr_bit (by decide), fun _ _ => rfl, rfl, rfl⟩
      · rw [hask, Chip.powerReq_off_run hpool hon hfree hstate, c.turnOff_plain false hlink hport]
        exact c.domIs_setDom d _
      · rw [hask, Chip.powerReq_freewheel_run hpool hon hfree hstate, c.turnOff_plain _ hlink hport]
        exact c.domIs_setDom d _
      · have hfree : ¬c.memUsed d := fun h => by
          obtain ⟨-, hlow⟩ : 128 ≤ d ∧ d < 172 := by simpa [isMemDom] using h.1
          obtain ⟨hhigh, -⟩ : 172 ≤ d ∧ d < 196 := by simpa [isLinkDom] using hlink
          omega
        rw [hask, Chip.powerReq_off_run hpool hon hfree hstate]
        exact Chip.turnOff_link false hlink
    · exact Chip.askDomain_last hon hauto hwait hstate hothers
    · rw [Chip.beginTransition_drained hstate hbegun hdrained]
      exact c.domIs_setDom d _
    · obtain ⟨hcore, -, hmemd, hlink, -⟩ := hunit
      refine ⟨fun hstate hbegun hfw => ends hd ?_, fun hstate => ends hd ?_⟩
      · obtain ⟨⟨hdom, hrest⟩, hcount⟩ := Chip.endTransition_alone hstate hbegun hlatch (by simp [hcore])
        exact ⟨hdom.trans (Domain.reached_off hfw), hcount, hrest⟩
      · obtain ⟨⟨hdom, hrest⟩, hcount⟩ := Chip.endTransition_unit hstate hlatch hcore hmemd hlink
        exact ⟨hdom, hcount, hrest⟩
    · obtain ⟨⟨hdom, hrest⟩, -⟩ := Chip.endTransition_alone hstate hbegun hlatch (fun h => absurd h.2 (by simp [show (c.dom k).fwSide = true from hfw]))
      exact ⟨hdom.trans (Domain.reached_freewheel hfw), hrest⟩
    · obtain ⟨hdom, hpool, hcores, hzero⟩ := Chip.endTransition_core hn hstate hbegun hlatch hfw
      exact ⟨hdom, hpool, hzero hmem, hcores⟩
    · rw [Chip.endTransition_wake hn hstate hfw]
      exact c.domIs_setDom k _
    · obtain ⟨hdom, hpool, hcore, hcores, hzero⟩ := Chip.endTransition_reset hn hstate hfw
      exact ⟨hdom, hpool, hcore, hcores, hzero hmem⟩
    · obtain ⟨⟨hdom, hrest⟩, hfresh⟩ := Chip.selfTestDone_pass hn hstate hlatch
      exact ⟨hdom, hfresh, hrest⟩
    · obtain ⟨⟨hdom, hrest⟩, herr⟩ := Chip.selfTestDone_fail hstate
      exact ⟨hdom, herr, hrest⟩
    · exact Chip.fwIdle_spec hn hon hauto hown hqueue hstate hpolicy hidle hmin
    · exact Chip.offIdle_spec hn hon hauto hown hqueue hstate hpolicy
    · obtain ⟨hstate, -, hcores, halone, hzero⟩ := c.poolIs_setPool n .off
      have heq : c.poolIdle n = c.setPool n .off := if_pos hin
      rw [heq]
      exact ⟨hstate, halone, hzero hmem, hcores⟩
  · intro c n die frame cap
    have hn : n < 64 := fc.isLt
    have haon : s.chip.aon = true := by simp [Chip.aon, hpor, hheld]
    refine ⟨.of_run (f := fun c => { c with pwr := { c.pwr with curMhz := SMap.set c.pwr.curMhz fc.toNat (c.goalMhz fc.toNat) } }) rfl
      ⟨rfl, fun m => c.curMhz_set n m⟩, .of_runIf (f := fun c => if c.aon then c.thermalSample temps else c) rfl (decide_eq_true htemps) ?_,
      .of_run (f := fun c => if c.aon then c.capSample watts.toNat else c) rfl ?_⟩
    · rw [if_pos haon]
      obtain ⟨hmem, hcores, hdoms, hmax, hcur, hcap, htherm, herr⟩ := c.thermalSample_spec temps hn
      obtain ⟨hhot, hcool, hbetween⟩ := c.thermNext_spec temps n
      rw [← htherm] at hhot hcool hbetween
      exact ⟨⟨hmem, hcores, hdoms, hmax, hcur⟩, hcap, hhot, hcool, hbetween, herr⟩
    · rw [if_pos haon]
      obtain ⟨hmem, hcores, hdoms, hmax, hcur, htherm, hwatts, hcap, herr⟩ := c.capSample_spec watts.toNat hn
      obtain ⟨hover, hunder, hbetween⟩ := c.capNext_spec watts.toNat n
      rw [← hcap] at hover hunder hbetween
      exact ⟨⟨hmem, hcores, hdoms, hmax, hcur⟩, htherm, hwatts.trans (BitVec.ofNat_toNat _ _), hover, hunder, hbetween, herr⟩

end Sys2Proof.Machine
end

section
/-! SUPPORT. The training of a link and its test (R432 to R436, R452, R454, R455, R555). -/

namespace Sys2Proof.Machine

/-! A link that changes alone. -/

/-- The links but one, memory and the cores are as they were. -/
def Chip.besideLink (c : Chip) (n : Nat) (d : Chip) : Prop := (∀ j, j ≠ n → d.link j = c.link j) ∧ d.mem = c.mem ∧ d.cores = c.cores

theorem Chip.besideLink_refl (c : Chip) (n : Nat) : c.besideLink n c := ⟨fun _ _ => rfl, rfl, rfl⟩

theorem Chip.besideLink_trans {c d e : Chip} {n : Nat} (h : c.besideLink n d) (g : d.besideLink n e) : c.besideLink n e := by
  obtain ⟨hlinks, hmem, hcores⟩ := h
  obtain ⟨glinks, gmem, gcores⟩ := g
  exact ⟨fun j hj => (glinks j hj).trans (hlinks j hj), gmem.trans hmem, gcores.trans hcores⟩

theorem Reported.besideLink {c d : Chip} (h : Reported c d) (n : Nat) : c.besideLink n d := ⟨fun j _ => h.link j, h.mem, h.cores⟩

theorem Chip.besideLink_setLink (c : Chip) (n : Nat) (k : Link) : c.besideLink n (c.setLink n k) :=
  ⟨fun _ hj => c.link_setLink_other k hj, rfl, rfl⟩

theorem Chip.besideLink_linkDown (c : Chip) (n : Nat) (to_ : LinkState) : c.besideLink n (c.linkDown n to_) := by
  obtain ⟨hmem, hcores, -⟩ := c.linkDown_keeps n to_
  exact ⟨fun _ hj => c.linkDown_other to_ hj, hmem, hcores⟩

/-- A link is changed, and what `besideLink` names is as it was. -/
def Chip.linkIs (c : Chip) (n : Nat) (k : Link) (d : Chip) : Prop := d.link n = k ∧ c.besideLink n d

theorem Chip.linkIs_setLink (c : Chip) (n : Nat) (k : Link) : c.linkIs n k (c.setLink n k) := ⟨c.link_setLink n k, c.besideLink_setLink n k⟩

theorem Chip.linkIs_linkDown (c : Chip) (n : Nat) (to_ : LinkState) : c.linkIs n ((c.link n).dropped to_) (c.linkDown n to_) :=
  ⟨c.linkDown_link n to_, c.besideLink_linkDown n to_⟩

theorem Chip.linkIs_of_reported {c d e : Chip} {n : Nat} {k : Link} (h : c.linkIs n k d) (g : Reported d e) : c.linkIs n k e :=
  ⟨(g.link n).trans h.1, Chip.besideLink_trans h.2 (g.besideLink n)⟩

/-- A link that is written again. -/
theorem Chip.linkIs_again {c d : Chip} {n : Nat} {k : Link} (h : c.linkIs n k d) (q : Link) : c.linkIs n q (d.setLink n q) :=
  ⟨d.link_setLink n q, Chip.besideLink_trans h.2 (d.besideLink_setLink n q)⟩

/-- A link enters a state. -/
theorem Chip.linkIs_moveLink {c d : Chip} {n : Nat} {k : Link} (h : c.linkIs n k d) (st : LinkState) :
    c.linkIs n { k with state := st } (d.moveLink n st) := by
  obtain ⟨rfl, hbeside⟩ := h
  have h1 : c.linkIs n { d.link n with state := st } (d.setLink n { d.link n with state := st }) := Chip.linkIs_again ⟨rfl, hbeside⟩ _
  unfold Chip.moveLink
  dsimp only
  split
  · exact Chip.linkIs_of_reported h1 (.of_noted (.logLink _ _ _ _))
  · exact h1

/-! Frames (R432, R435). -/

/-- What ends POLL and the first part of RETRAIN. -/
def Link.lanesReady (k : Link) : Bool := k.laneOrder.isSome && allLanes k.laneGood 64 && allLanes k.laneSent 64 && k.skewOk

theorem Link.noteFrame_state (k : Link) (lane : Nat) (f : LaneFrame) : (k.noteFrame lane f).state = k.state := by
  unfold Link.noteFrame
  split <;> rfl

theorem Link.moveTaps_state (k : Link) (lane : Nat) (f : LaneFrame) : (k.moveTaps lane f).state = k.state := by
  unfold Link.moveTaps
  split <;> rfl

section
variable {k : Link}

theorem Link.lanesOver_wait (h : k.state = .poll ∨ k.state = .retrain) (hready : k.lanesReady = false) : k.lanesOver = k := by
  have hne : k.state ≠ .eq := by rcases h with h | h <;> simp [h]
  unfold Link.lanesOver Link.lanesReady at *
  rw [if_neg hne, if_pos h]
  split
  · next rev horder => exact if_neg (by simpa [horder] using hready)
  · rfl

theorem Link.lanesOver_ready (h : k.state = .poll ∨ k.state = .retrain) (hready : k.lanesReady = true) :
    k.lanesOver.state = (if k.state = .poll then .eq else .config) ∧ some k.lanesOver.reversed = k.laneOrder := by
  have hne : k.state ≠ .eq := by rcases h with h | h <;> simp [h]
  unfold Link.lanesOver Link.lanesReady at *
  rw [if_neg hne, if_pos h]
  split
  · next rev horder =>
    rw [if_pos (by simpa [horder] using hready)]
    rw [horder]
    split <;> exact ⟨rfl, rfl⟩
  · next horder => simp [horder] at hready

theorem Link.lanesOver_eq_wait (h : k.state = .eq) (hdone : (allLanes k.laneDone 16 && allLanes k.eqSent 16) = false) : k.lanesOver = k := by
  unfold Link.lanesOver
  rw [if_pos h, if_neg (by simpa using hdone)]

theorem Link.lanesOver_eq (h : k.state = .eq) (hdone : (allLanes k.laneDone 16 && allLanes k.eqSent 16) = true) :
    k.lanesOver = Link.enterConfig { k with before := .eq } := by
  unfold Link.lanesOver
  rw [if_pos h, if_pos hdone]

theorem Link.laneFrame_poll (lane : Nat) (f : LaneFrame) (h : k.state = .poll ∨ k.state = .retrain) :
    k.laneFrame lane f = (k.noteFrame lane f).lanesOver := if_pos h

theorem Link.laneFrame_eq (lane : Nat) (f : LaneFrame) (h : k.state = .eq) :
    k.laneFrame lane f = ((k.noteFrame lane f).moveTaps lane f).lanesOver := (if_neg (by simp [h])).trans (if_pos h)

theorem Link.laneFrame_other (lane : Nat) (f : LaneFrame) (h1 : k.state ≠ .poll) (h2 : k.state ≠ .retrain) (h3 : k.state ≠ .eq) :
    k.laneFrame lane f = k := (if_neg (by simp [h1, h2])).trans (if_neg h3)

end

/-! Training sets (R432, R434, R436, R455). -/

theorem Link.not_up_of_config {k : Link} (h : k.state = .config) : k.up = false := by simp [Link.up, h]

theorem Chip.takeHeld_down {c : Chip} {n : Nat} (h : (c.link n).up = false) : c.takeHeld n = c := if_neg (by simp [h])

/-- Where nothing was held, nothing is taken. -/
theorem Chip.linkIs_takeHeld {c d : Chip} {n : Nat} {k : Link} (h : c.linkIs n k d) (hheld : k.held = []) : c.linkIs n k (d.takeHeld n) := by
  unfold Chip.takeHeld
  dsimp only
  rw [h.1, hheld]
  split
  · exact Chip.linkIs_again h { k with held := [] } |>.imp (fun hk => hk.trans (by rw [← hheld])) id
  · exact h

/-- The eighth of eight identical valid TS2. -/
theorem Link.takeTs2_eq (k : Link) (t : List Byte) : k.takeTs2 t =
    { k with lastTs := t, tsSame := if t = k.lastTs then k.tsSame + 1 else 1, ts2Sent := some (k.ts2Sent.getD 0),
             agreed := if t = k.lastTs ∧ 7 ≤ k.tsSame then t else k.agreed } := by
  unfold Link.takeTs2
  dsimp only
  congr 1
  by_cases h : t = k.lastTs
  · simp [h]
  · simp [h]

theorem Chip.configOver_wait {c : Chip} {n : Nat} (h : (c.link n).agreed = [] ∨ (c.link n).ts2Sent.getD 0 < 16) : c.configOver n = c :=
  if_pos (.inr h)

end Sys2Proof.Machine
end

section
/-! SUPPORT. The end of CONFIG, time-outs, EN and the link test (R432 to R434, R452, R455, R555), and the statement about link training. -/

namespace Sys2Proof.Machine

theorem Chip.linkIs_after {c d e : Chip} {n : Nat} {k : Link} (h : c.besideLink n d) (g : d.linkIs n k e) : c.linkIs n k e :=
  ⟨g.1, Chip.besideLink_trans h g.2⟩

/-! The end of CONFIG (R432, R434, R445, R455). -/

/-- A link as CONFIG that leads into ISOLATED leaves it. -/
def Link.isolatedBy (k : Link) (t : List Byte) : Link :=
  { Link.startTest { (k.learn t).fresh.rescramble with fails := 0, before := .eq } with state := .isolated }

theorem Chip.linkIs_toIsolated (c : Chip) (n : Nat) (t : List Byte) : c.linkIs n ((c.link n).isolatedBy t) (c.toIsolated n t) := by
  unfold Chip.toIsolated
  extract_lets k0 k net c1
  have h : c.linkIs n k.startTest (c1.setLink n k.startTest) := c1.linkIs_setLink n k.startTest
  exact Chip.linkIs_moveLink h .isolated

/-- An acknowledgement that is taken leaves a link that has nothing to resend with nothing to resend. -/
theorem Link.release_rest (k : Link) (seq : Nat) :
    { k.release seq with acked := k.acked, resends := k.resends, replay := k.replay, resend := k.resend } = k ∧
      (k.replay = [] → (k.release seq).replay = []) := by
  unfold Link.release
  dsimp only
  split
  · exact ⟨rfl, id⟩
  · exact ⟨rfl, fun h => by simp [h]⟩

/-- A link that resumes from what its peer has received. -/
def Link.resumedBy (k : Link) (t : List Byte) : Link :=
  let seq := (fieldB t 6 2 % 4096 + 4095) % 4096
  let k1 := if (k.learn t).ackInRange seq then (k.learn t).release seq else k.learn t
  { k1.rescramble with before := .eq }

theorem Link.resumedBy_keeps {k : Link} (t : List Byte) (hreplay : k.replay = []) : let q := k.resumedBy t
    q.replay = [] ∧ q.txSeq = k.txSeq ∧ q.rxLast = k.rxLast ∧ q.ctrl = k.ctrl ∧ q.held = k.held := by
  unfold Link.resumedBy
  extract_lets seq k1
  obtain ⟨hrest, hempty⟩ := (k.learn t).release_rest seq
  have h1 : k1.replay = [] ∧ k1.txSeq = k.txSeq ∧ k1.rxLast = k.rxLast ∧ k1.ctrl = k.ctrl ∧ k1.held = k.held := by
    unfold k1
    split
    · exact ⟨hempty hreplay, (congrArg Link.txSeq hrest :), (congrArg Link.rxLast hrest :), (congrArg Link.ctrl hrest :), (congrArg Link.held hrest :)⟩
    · exact ⟨hreplay, rfl, rfl, rfl, rfl⟩
  exact h1

theorem Chip.startResend_empty {c : Chip} {n : Nat} (h : (c.link n).replay = []) : c.startResend n = c := if_pos (by simp [h])

/-- CONFIG leads back into ACTIVE. -/
theorem Chip.linkIs_toBefore_active {c : Chip} {n : Nat} (t : List Byte) (hreplay : (c.link n).replay = []) (hbefore : (c.link n).before = .active)
    (hpass : (c.link n).testPass = true) : c.linkIs n { (c.link n).resumedBy t with state := .active } (c.toBefore n t) := by
  have hmove := Chip.linkIs_moveLink (c.linkIs_setLink n ((c.link n).resumedBy t)) .active
  have heq : c.toBefore n t = ((c.setLink n ((c.link n).resumedBy t)).moveLink n .active).startResend n :=
    congrArg (Chip.startResend · n) (if_pos ⟨hbefore, hpass⟩)
  rw [heq, Chip.startResend_empty]
  · exact hmove
  · rw [hmove.1]
    exact (Link.resumedBy_keeps t hreplay).1

/-- CONFIG leads back into ISOLATED, or into it where TEST_PASS is 0. -/
theorem Chip.linkIs_toBefore_isolated {c : Chip} {n : Nat} (t : List Byte) (hreplay : (c.link n).replay = [])
    (h : ¬((c.link n).before = .active ∧ (c.link n).testPass = true)) :
    c.linkIs n { ((c.link n).resumedBy t).startTest with fails := 0, state := .isolated } (c.toBefore n t) := by
  have hmove := Chip.linkIs_moveLink (c.linkIs_setLink n { ((c.link n).resumedBy t).startTest with fails := 0 }) .isolated
  have heq : c.toBefore n t =
      ((c.setLink n { ((c.link n).resumedBy t).startTest with fails := 0 }).moveLink n .isolated).startResend n :=
    congrArg (Chip.startResend · n) (if_neg h)
  rw [heq, Chip.startResend_empty]
  · exact hmove
  · rw [hmove.1]
    exact (Link.resumedBy_keeps t hreplay).1

section
variable {c : Chip} {n : Nat} (hstate : (c.link n).state = .config) (hagreed : (c.link n).agreed ≠ []) (hsent : 16 ≤ (c.link n).ts2Sent.getD 0)
include hstate hagreed hsent

theorem Chip.configOver_fresh (h : (c.link n).retraining = false) : c.configOver n = c.toIsolated n (c.link n).agreed := by
  unfold Chip.configOver
  simp [hstate, hagreed, Nat.not_lt.mpr hsent, h]

theorem Chip.configOver_back (h : (c.link n).retraining = true) (hpkg : BitVec.ofNat 12 (fieldB (c.link n).agreed 2 2) = (c.link n).peerPkg)
    (hlink : BitVec.ofNat 5 (fieldB (c.link n).agreed 4 1) = (c.link n).peerLink) : c.configOver n = c.toBefore n (c.link n).agreed := by
  unfold Chip.configOver
  simp [hstate, hagreed, Nat.not_lt.mpr hsent, h, hpkg, hlink]

end

/-! Training sets. -/

section
variable {c : Chip} {n : Nat} {t : List Byte}

theorem Chip.trainingSet_other (h : (c.link n).state ≠ .config) : c.trainingSet n t = c := if_pos h

variable (hstate : (c.link n).state = .config)
include hstate

theorem Chip.trainingSet_invalid (h : tsValid t = false) : c.trainingSet n t = c.setLink n { c.link n with tsSame := 0 } := by
  simp [Chip.trainingSet, hstate, h]

theorem Chip.trainingSet_ts1 (h : tsValid t = true) (h1 : fieldB t 0 1 = 1) :
    c.trainingSet n t = c.setLink n { c.link n with lastTs := t, tsSame := 0 } := by
  simp [Chip.trainingSet, hstate, h, h1]

theorem Chip.trainingSet_ts2 (h : tsValid t = true) (h2 : fieldB t 0 1 = 2) :
    c.trainingSet n t = (c.setLink n ((c.link n).takeTs2 t)).configOver n := by
  simp [Chip.trainingSet, hstate, h, h2]

end

/-! Time-outs (R432, R433). -/

theorem Link.dropped_err (k : Link) (to_ : LinkState) : (k.dropped to_).err.getLsbD 5 = true := by
  simp [Link.dropped, Link.tally, Link.raise]

theorem Link.raise_err (k : Link) {i : Nat} (h : i < 8) : (k.raise i).err.getLsbD i = true := by
  simp only [Link.raise, BitVec.getLsbD_or, BitVec.getLsbD_ofNat, Nat.testBit_two_pow_self, h, decide_true, Bool.and_self, Bool.or_true]

theorem Link.raise_keeps (k : Link) (i : Nat) {j : Nat} (h : k.err.getLsbD j = true) : (k.raise i).err.getLsbD j = true := by
  simp [Link.raise, h]

/-- What a time-out of training leaves of a link: it starts again, or fails for good at the eighth. -/
def Link.timedOut (k : Link) (fails : Nat) : Link :=
  if fails < 8 then { k.detect with fails := fails } else Link.raise { k.detect with fails := fails, state := .failed } 6

/-- A time-out of POLL, EQ or CONFIG (R433). -/
theorem Chip.linkIs_trainTimeout {c : Chip} {n : Nat} {st : LinkState} (h : (c.link n).state = st) :
    c.linkIs n (Link.timedOut (if (c.link n).retraining then (c.link n).dropped .detect else c.link n) ((c.link n).fails + 1)) (c.trainTimeout n st) := by
  unfold Chip.trainTimeout
  dsimp only
  rw [if_neg (not_not.mpr h)]
  have h1 : c.linkIs n (if (c.link n).retraining then (c.link n).dropped .detect else c.link n)
      (if (c.link n).retraining then c.linkDown n .detect else c) := by
    split
    · exact c.linkIs_linkDown n .detect
    · exact ⟨rfl, c.besideLink_refl n⟩
  rw [h1.1]
  unfold Link.timedOut
  split
  · exact Chip.linkIs_again h1 _
  · exact Chip.linkIs_of_reported (Chip.linkIs_again h1 _) (.of_noted (.logLink _ _ _ _))

theorem Chip.linkIs_retrainTimeout {c : Chip} {n : Nat} (h : (c.link n).retraining = true) :
    c.linkIs n ((c.link n).dropped .detect).detect (c.retrainTimeout n) := by
  have heq : c.retrainTimeout n = (c.linkDown n .detect).setLink n ((c.linkDown n .detect).link n).detect := if_pos h
  rw [heq, c.linkDown_link]
  exact Chip.linkIs_again (c.linkIs_linkDown n .detect) _

/-! EN (R432, R454). -/

/-- EN = 0 sends a link to DISABLED. -/
theorem Chip.linkIs_linkOff (c : Chip) (n : Nat) : c.linkIs n
    { (if (c.link n).up || (c.link n).retraining then (c.link n).dropped .disabled else c.link n).detect with state := .disabled } (c.linkOff n) := by
  unfold Chip.linkOff
  dsimp only
  have h1 : c.linkIs n (if (c.link n).up || (c.link n).retraining then (c.link n).dropped .disabled else c.link n)
      (if (c.link n).up || (c.link n).retraining then c.linkDown n .disabled else c) := by
    split
    · exact c.linkIs_linkDown n .disabled
    · exact ⟨rfl, c.besideLink_refl n⟩
  rw [h1.1]
  exact Chip.linkIs_again h1 _

theorem Chip.linkIs_linkDisable (c : Chip) (n : Nat) : c.linkIs n
    { (if (c.link n).up || (c.link n).retraining then (c.link n).dropped .disabled else c.link n).detect with
      state := .disabled,
      ctrl := setBits (if (c.link n).up || (c.link n).retraining then (c.link n).dropped .disabled else c.link n).ctrl 0 1 0 } (c.linkDisable n) := by
  have h := Chip.linkIs_again (c.linkIs_linkOff n) { (c.linkOff n).link n with ctrl := setBits ((c.linkOff n).link n).ctrl 0 1 0 }
  rw [(c.linkIs_linkOff n).1] at h
  unfold Chip.linkDisable
  dsimp only
  rw [(c.linkIs_linkOff n).1]
  exact h

theorem Chip.linkIs_linkEnable (c : Chip) (n : Nat) : c.linkIs n
    (if c.phyOn n = true ∧ ((c.link n).state = .disabled ∨ ((c.link n).state = .failed ∧ bit (c.link n).ctrl 0 = false)) then
      Link.detect { c.link n with ctrl := setBits (c.link n).ctrl 0 1 1 } else { c.link n with ctrl := setBits (c.link n).ctrl 0 1 1 })
    (c.linkEnable n) := by
  unfold Chip.linkEnable
  dsimp only
  split <;> exact c.linkIs_setLink n _

/-! The link test (R452, R555). -/

/-- A message that goes out on a link waits there. -/
theorem Chip.sendOn_link (c : Chip) (n : Nat) (m : Msg) : ∃ q, c.linkIs n { c.link n with txq := q } (c.sendOn n m) := by
  unfold Chip.sendOn
  split
  · exact ⟨_, rfl, c.besideLink_refl n⟩
  · exact ⟨_, c.linkIs_setLink n _⟩

theorem Chip.badLink_link (c : Chip) (n : Nat) : c.linkIs n (c.link n) (c.badLink n) := by
  unfold Chip.badLink
  split
  · exact ⟨rfl, c.besideLink_refl n⟩
  · exact Chip.linkIs_of_reported (d := { c with rst := { c.rst with bad := c.rst.bad ||| BitVec.ofNat 24 (2 ^ n) } })
      ⟨rfl, c.besideLink_refl n⟩ (.of_noted (.logLink _ _ _ _))

theorem Chip.tryDiscover_link {c d : Chip} {n : Nat} {k : Link} (h : c.linkIs n k d) : c.linkIs n k d.tryDiscover := by
  unfold Chip.tryDiscover
  split
  · exact h
  · exact h

/-- A link that is checked keeps what its test found. -/
theorem Chip.qualify_link (c : Chip) (n : Nat) : ∃ q, c.linkIs n { c.link n with txq := q } (c.qualify n) := by
  have same : ∀ d, c.linkIs n (c.link n) d → ∃ q, c.linkIs n { c.link n with txq := q } d := fun d h => ⟨(c.link n).txq, h⟩
  unfold Chip.qualify
  extract_lets k rst good
  split
  · exact same _ ⟨rfl, c.besideLink_refl n⟩
  · split
    · exact same _ (c.badLink_link n)
    · have hgood : c.linkIs n (c.link n) good := by
        refine Chip.tryDiscover_link (Chip.linkIs_of_reported (d := { c with rst := { c.rst with qualified := c.rst.qualified ||| BitVec.ofNat 24 (2 ^ n) } })
          ⟨rfl, c.besideLink_refl n⟩ (.reportChange _ _))
      split
      · exact same _ hgood
      · split
        · exact c.sendOn_link n _
        · split
          · exact same _ hgood
          · exact same _ (c.badLink_link n)

end Sys2Proof.Machine
end

section
/-! SUPPORT. The statement about link training (R432 to R436, R452, R454, R455). -/

namespace Sys2Proof.Machine

/-- A valid TS2 that completes the exchange: what CONFIG leaves (R432). -/
theorem Chip.takeSet_complete {c : Chip} {n : Nat} {t : List Byte} {q : Link} (hheld : q.held = [])
    (h : (c.setLink n ((c.link n).takeTs2 t)).linkIs n q ((c.setLink n ((c.link n).takeTs2 t)).configOver n))
    (hstate : (c.link n).state = .config) (hvalid : tsValid t = true) (h2 : fieldB t 0 1 = 2) : c.linkIs n q (c.takeSet n t) := by
  have hset := Chip.linkIs_after (c.besideLink_setLink n ((c.link n).takeTs2 t)) h
  rw [Chip.takeSet, Chip.trainingSet_ts2 hstate hvalid h2]
  exact Chip.linkIs_takeHeld hset hheld

/-- A link that a training set leaves in CONFIG takes nothing that was held. -/
theorem Chip.takeSet_waits {c d : Chip} {n : Nat} {t : List Byte} {q : Link} (heq : c.trainingSet n t = d) (h : c.linkIs n q d)
    (hstate : q.state = .config) : c.linkIs n q (c.takeSet n t) := by
  rw [Chip.takeSet, heq, Chip.takeHeld_down]
  · exact h
  · rw [h.1]
    exact Link.not_up_of_config hstate

theorem Link.isolatedBy_held (k : Link) (t : List Byte) : (k.isolatedBy t).held = k.held := rfl

section
variable {c : Chip} {n : Nat} {t : List Byte} (hstate : (c.link n).state = .config) (hvalid : tsValid t = true) (h2 : fieldB t 0 1 = 2)
include hstate hvalid h2

/-- A valid TS2 that does not complete the exchange. -/
theorem Chip.takeSet_ts2_wait (h : ((c.link n).takeTs2 t).agreed = [] ∨ (c.link n).ts2Sent.getD 0 < 16) :
    c.linkIs n ((c.link n).takeTs2 t) (c.takeSet n t) := by
  refine Chip.takeSet_waits (Chip.trainingSet_ts2 hstate hvalid h2) ?_ hstate
  rw [Chip.configOver_wait]
  · exact c.linkIs_setLink n _
  · rw [Chip.link_setLink]
    exact h

variable (hlen : t.length = 128) (hlast : t = (c.link n).lastTs) (hsame : 7 ≤ (c.link n).tsSame) (hsent : 16 ≤ (c.link n).ts2Sent.getD 0)
  (hheld : (c.link n).held = [])
include hlen hlast hsame hsent hheld

omit hvalid h2 hsent hheld hstate in
/-- The eighth identical one is the set that CONFIG ends with. -/
theorem Chip.agreed_takeTs2 : ((c.link n).takeTs2 t).agreed = t ∧ t ≠ [] := by
  rw [Link.takeTs2_eq]
  exact ⟨if_pos ⟨hlast, hsame⟩, fun h => by simp [h] at hlen⟩

/-- CONFIG leads into ISOLATED with a test and fresh counts. -/
theorem Chip.takeSet_fresh (h : (c.link n).retraining = false) :
    c.linkIs n (((c.link n).takeTs2 t).isolatedBy t) (c.takeSet n t) := by
  obtain ⟨hagreed, hne⟩ := Chip.agreed_takeTs2 (c := c) (n := n) hlen hlast hsame
  have hk : (c.setLink n ((c.link n).takeTs2 t)).link n = (c.link n).takeTs2 t := c.link_setLink n _
  have h1 := Chip.linkIs_toIsolated (c.setLink n ((c.link n).takeTs2 t)) n t
  rw [hk] at h1
  refine Chip.takeSet_complete ((Link.isolatedBy_held _ t).trans hheld) ?_ hstate hvalid h2
  rw [Chip.configOver_fresh (by rw [hk]; exact hstate) (by rw [hk, hagreed]; exact hne) (by rw [hk]; exact hsent) (by rw [hk]; exact h), hk, hagreed]
  exact h1

variable (hback : (c.link n).retraining = true) (hreplay : (c.link n).replay = []) (hpkg : BitVec.ofNat 12 (fieldB t 2 2) = (c.link n).peerPkg)
  (hlink : BitVec.ofNat 5 (fieldB t 4 1) = (c.link n).peerLink)
include hback hreplay hpkg hlink

omit hheld hreplay in
/-- CONFIG leads back to the state before RETRAIN. -/
theorem Chip.takeSet_back {q : Link} (hq : q.held = [])
    (h : (c.setLink n ((c.link n).takeTs2 t)).linkIs n q ((c.setLink n ((c.link n).takeTs2 t)).toBefore n t)) : c.linkIs n q (c.takeSet n t) := by
  obtain ⟨hagreed, hne⟩ := Chip.agreed_takeTs2 (c := c) (n := n) hlen hlast hsame
  refine Chip.takeSet_complete hq ?_ hstate hvalid h2
  have hk : (c.setLink n ((c.link n).takeTs2 t)).link n = (c.link n).takeTs2 t := c.link_setLink n _
  rw [Chip.configOver_back (by rw [hk]; exact hstate) (by rw [hk, hagreed]; exact hne) (by rw [hk]; exact hsent) (by rw [hk]; exact hback)
    (by rw [hk, hagreed]; exact hpkg) (by rw [hk, hagreed]; exact hlink), hk, hagreed]
  exact h

theorem Chip.takeSet_active (hbefore : (c.link n).before = .active) (hpass : (c.link n).testPass = true) :
    c.linkIs n { ((c.link n).takeTs2 t).resumedBy t with state := .active } (c.takeSet n t) := by
  have hk : (c.setLink n ((c.link n).takeTs2 t)).link n = (c.link n).takeTs2 t := c.link_setLink n _
  have h := Chip.linkIs_toBefore_active (c := c.setLink n ((c.link n).takeTs2 t)) (n := n) t (by rw [hk]; exact hreplay) (by rw [hk]; exact hbefore)
    (by rw [hk]; exact hpass)
  rw [hk] at h
  obtain ⟨-, -, -, -, hsameHeld⟩ := Link.resumedBy_keeps (k := (c.link n).takeTs2 t) t hreplay
  exact Chip.takeSet_back hstate hvalid h2 hlen hlast hsame hsent hback hpkg hlink (hsameHeld.trans hheld) h

theorem Chip.takeSet_isolated (hnot : ¬((c.link n).before = .active ∧ (c.link n).testPass = true)) :
    c.linkIs n { (((c.link n).takeTs2 t).resumedBy t).startTest with fails := 0, state := .isolated } (c.takeSet n t) := by
  have hk : (c.setLink n ((c.link n).takeTs2 t)).link n = (c.link n).takeTs2 t := c.link_setLink n _
  have h := Chip.linkIs_toBefore_isolated (c := c.setLink n ((c.link n).takeTs2 t)) (n := n) t (by rw [hk]; exact hreplay) (by rw [hk]; exact hnot)
  rw [hk] at h
  obtain ⟨-, -, -, -, hsameHeld⟩ := Link.resumedBy_keeps (k := (c.link n).takeTs2 t) t hreplay
  exact Chip.takeSet_back hstate hvalid h2 hlen hlast hsame hsent hback hpkg hlink (hsameHeld.trans hheld) h

end

end Sys2Proof.Machine
end

section
/-! SUPPORT. The statement about link training, one lemma for each kind of event (R432 to R436, R452, R454, R455). -/

namespace Sys2Proof.Machine

/-- A time-out of a link that does not retrain (R433). -/
theorem Chip.trainTimeout_spec {c : Chip} {n : Nat} {st : LinkState} (h : (c.link n).state = st) :
    let k := c.link n
    let d := c.trainTimeout n st
    (k.retraining = false → k.fails < 7 → c.linkIs n { k.detect with fails := k.fails + 1 } d) ∧
    (k.retraining = false → 7 ≤ k.fails → (d.link n).state = .failed ∧ (d.link n).err.getLsbD 6 = true ∧ (d.link n).fails = k.fails + 1 ∧
      c.besideLink n d) ∧
    (k.retraining = true → (d.link n).state = (if k.fails < 7 then .detect else .failed) ∧ (d.link n).fails = k.fails + 1 ∧
      (7 ≤ k.fails → (d.link n).err.getLsbD 6 = true) ∧ (d.link n).err.getLsbD 5 = true ∧ (d.link n).replay = [] ∧ c.besideLink n d) := by
  intro k d
  have his := Chip.linkIs_trainTimeout h
  refine ⟨fun hre hfew => ?_, fun hre hmany => ?_, fun hre => ?_⟩
  · rw [if_neg (by simp [show (c.link n).retraining = false from hre]), Link.timedOut, if_pos (Nat.succ_lt_succ hfew)] at his
    exact his
  · rw [if_neg (by simp [show (c.link n).retraining = false from hre]), Link.timedOut, if_neg (by have : 7 ≤ (c.link n).fails := hmany; omega)] at his
    obtain ⟨hlink, hbeside⟩ := his
    rw [hlink]
    exact ⟨rfl, Link.raise_err _ (by decide), rfl, hbeside⟩
  · rw [if_pos (show (c.link n).retraining = true from hre), Link.timedOut] at his
    obtain ⟨hlink, hbeside⟩ := his
    rw [hlink]
    by_cases hfew : (c.link n).fails < 7
    · rw [if_pos (Nat.succ_lt_succ hfew), if_pos hfew]
      exact ⟨rfl, rfl, fun hmany => absurd hfew (Nat.not_lt.mpr hmany), (c.link n).dropped_err .detect, rfl, hbeside⟩
    · rw [if_neg (by omega), if_neg hfew]
      exact ⟨rfl, rfl, fun _ => Link.raise_err _ (by decide), Link.raise_keeps _ 6 ((c.link n).dropped_err .detect), rfl, hbeside⟩

theorem Chip.retrainTimeout_idle {c : Chip} {n : Nat} (h : (c.link n).retraining = false) : c.retrainTimeout n = c := if_neg (by simp [h])

/-- EN = 0 (R454). -/
theorem Chip.linkDisable_spec (c : Chip) (n : Nat) : let d := c.linkDisable n
    (d.link n).state = .disabled ∧ bit (d.link n).ctrl 0 = false ∧
      ((c.link n).up = true → (d.link n).err.getLsbD 5 = true ∧ (d.link n).replay = []) ∧ c.besideLink n d := by
  intro d
  obtain ⟨hlink, hbeside⟩ := c.linkIs_linkDisable n
  rw [hlink]
  refine ⟨rfl, (setBits_bit _ 0 1 0 0 (by decide)).trans (by simp), fun hup => ?_, hbeside⟩
  rw [if_pos (by simp [hup])]
  exact ⟨(c.link n).dropped_err .disabled, rfl⟩

/-- EN = 1 (R432). -/
theorem Chip.linkEnable_spec (c : Chip) (n : Nat) : let d := c.linkEnable n
    bit (d.link n).ctrl 0 = true ∧ c.besideLink n d ∧ (c.phyOn n = true → (c.link n).state = .disabled → (d.link n).state = .detect) ∧
      ((c.link n).state ≠ .disabled → (c.link n).state ≠ .failed → (d.link n).state = (c.link n).state) := by
  intro d
  obtain ⟨hlink, hbeside⟩ := c.linkIs_linkEnable n
  have hbit : bit (setBits (c.link n).ctrl 0 1 1) 0 = true := (setBits_bit _ 0 1 1 0 (by decide)).trans (by simp)
  rw [hlink]
  refine ⟨by split <;> exact hbit, hbeside, fun hphy hstate => ?_, fun hd hf => ?_⟩
  · rw [if_pos ⟨hphy, .inl hstate⟩]
    rfl
  · rw [if_neg fun h => h.2.elim hd fun hk => hf hk.1]

/-- A link test starts (R452). -/
theorem Chip.linkTest_isolated {c : Chip} {n : Nat} (hn : n < 24) (h : (c.link n).state = .isolated) : let d := c.linkTest n
    d.link n = (c.link n).startTest ∧ d.rst.qualified.getLsbD n = false ∧ c.besideLink n d := by
  intro d
  have heq : d = { c.setLink n (c.link n).startTest with rst := { c.rst with
      qualified := c.rst.qualified &&& ~~~(BitVec.ofNat 24 (2 ^ n)), bad := c.rst.bad &&& ~~~(BitVec.ofNat 24 (2 ^ n)) } } := if_pos h
  obtain ⟨hlink, hbeside⟩ := c.linkIs_setLink n (c.link n).startTest
  rw [heq]
  refine ⟨hlink, ?_, hbeside⟩
  simp only [BitVec.getLsbD_and, BitVec.getLsbD_not, BitVec.getLsbD_ofNat, Nat.testBit_two_pow_self, hn, decide_true, Bool.and_self, Bool.not_true,
    Bool.and_false]

/-- A link test ends (R452). -/
theorem Chip.testOver_spec {c : Chip} {n : Nat} (hstate : (c.link n).state = .isolated) (hleft : (c.link n).testLeft = some 0) :
    let d := c.testOver n
    (d.link n).testDone = true ∧ (d.link n).testLeft = none ∧
      (d.link n).testPass = (!(c.link n).testBad && decide ((c.link n).testSyms * 1024 ≤ (c.link n).testCws)) ∧ c.besideLink n d := by
  intro d
  let k : Link := { c.link n with
    testLeft := none, testDone := true, testPass := !(c.link n).testBad && (c.link n).testSyms * 1024 ≤ (c.link n).testCws }
  have heq : d = (c.setLink n k).qualify n := if_pos ⟨hleft, hstate⟩
  obtain ⟨q, hq⟩ := (c.setLink n k).qualify_link n
  rw [Chip.link_setLink] at hq
  obtain ⟨hlink, hbeside⟩ := Chip.linkIs_after (c.besideLink_setLink n k) hq
  rw [heq, hlink]
  exact ⟨rfl, rfl, rfl, hbeside⟩

theorem Chip.linkTest_active (c : Chip) {n : Nat} (h : (c.link n).state = .active) :
    c.linkIs n { c.link n with testDone := false, testPass := false, testLeft := none, testWaits := true } (c.linkTest n) := by
  have heq : c.linkTest n = c.setLink n { c.link n with testDone := false, testPass := false, testLeft := none, testWaits := true } :=
    (if_neg (by simp [h])).trans (if_pos h)
  rw [heq]
  exact c.linkIs_setLink n _

theorem Link.isolatedBy_keeps (k : Link) (t : List Byte) : let q := k.isolatedBy t
    q.state = .isolated ∧ q.fails = 0 ∧ q.testLeft = some k.testLength ∧ q.testPass = false ∧ q.peerPkg = BitVec.ofNat 12 (fieldB t 2 2) ∧
      q.peerLink = BitVec.ofNat 5 (fieldB t 4 1) ∧ q.txSeq = 0 ∧ q.replay = [] := ⟨rfl, rfl, rfl, rfl, rfl, rfl, rfl, rfl⟩

theorem Link.startTest_keeps (k : Link) : let q := k.startTest
    q.testLeft = some (2 ^ clampNat 16 32 (bits k.ctrl 15 8)) ∧ q.testPass = false ∧ q.txSeq = k.txSeq ∧ q.rxLast = k.rxLast :=
  ⟨rfl, rfl, rfl, rfl⟩

theorem Link.takeTs2_keeps (k : Link) (t : List Byte) : let q := k.takeTs2 t
    q.testLength = k.testLength ∧ q.txSeq = k.txSeq ∧ q.rxLast = k.rxLast ∧ q.ctrl = k.ctrl ∧ q.replay = k.replay := ⟨rfl, rfl, rfl, rfl, rfl⟩

section
variable {c : Chip} {n : Nat} {t : List Byte} (hstate : (c.link n).state = .config) (hvalid : tsValid t = true) (h2 : fieldB t 0 1 = 2)
  (hlen : t.length = 128) (hlast : t = (c.link n).lastTs) (hsame : 7 ≤ (c.link n).tsSame) (hsent : 16 ≤ (c.link n).ts2Sent.getD 0)
  (hheld : (c.link n).held = [])
include hstate hvalid h2 hlen hlast hsame hsent hheld

/-- CONFIG ends in ISOLATED with a test and fresh counts (R432, R439, R452). -/
theorem Chip.takeSet_fresh_spec (h : (c.link n).retraining = false) : let d := c.takeSet n t
    (d.link n).state = .isolated ∧ (d.link n).fails = 0 ∧ (d.link n).testLeft = some (c.link n).testLength ∧ (d.link n).testPass = false ∧
      (d.link n).peerPkg.toNat = fieldB t 2 2 % 4096 ∧ (d.link n).peerLink.toNat = fieldB t 4 1 % 32 ∧ (d.link n).txSeq = 0 ∧
      (d.link n).replay = [] ∧ c.besideLink n d := by
  intro d
  obtain ⟨hq, hbeside⟩ := Chip.takeSet_fresh hstate hvalid h2 hlen hlast hsame hsent hheld h
  obtain ⟨h1, h2, h3, h4, h5, h6, h7, h8⟩ := ((c.link n).takeTs2 t).isolatedBy_keeps t
  obtain ⟨hlength, -⟩ := (c.link n).takeTs2_keeps t
  rw [hq]
  exact ⟨h1, h2, h3.trans (by rw [hlength]), h4, by rw [h5, BitVec.toNat_ofNat], by rw [h6, BitVec.toNat_ofNat], h7, h8, hbeside⟩

variable (hreplay : (c.link n).replay = []) (hpkg : BitVec.ofNat 12 (fieldB t 2 2) = (c.link n).peerPkg)
  (hlink : BitVec.ofNat 5 (fieldB t 4 1) = (c.link n).peerLink)
include hreplay hpkg hlink

/-- CONFIG leads back into ACTIVE (R434). -/
theorem Chip.takeSet_active_spec (hbefore : (c.link n).before = .active) (hpass : (c.link n).testPass = true) : let d := c.takeSet n t
    (d.link n).state = .active ∧ (d.link n).txSeq = (c.link n).txSeq ∧ (d.link n).rxLast = (c.link n).rxLast ∧ c.besideLink n d := by
  intro d
  have hback : (c.link n).retraining = true := by simp [Link.retraining, hstate, hbefore]
  obtain ⟨hq, hbeside⟩ := Chip.takeSet_active hstate hvalid h2 hlen hlast hsame hsent hheld hback hreplay hpkg hlink hbefore hpass
  obtain ⟨-, htx, hrx, -⟩ := Link.resumedBy_keeps (k := (c.link n).takeTs2 t) t hreplay
  obtain ⟨-, htx1, hrx1, -⟩ := (c.link n).takeTs2_keeps t
  rw [hq]
  exact ⟨rfl, htx.trans htx1, hrx.trans hrx1, hbeside⟩

/-- CONFIG leads back into ISOLATED, where a test starts (R434, R452). -/
theorem Chip.takeSet_isolated_spec (h : (c.link n).before = .isolated ∨ ((c.link n).before = .active ∧ (c.link n).testPass = false)) :
    let d := c.takeSet n t
    (d.link n).state = .isolated ∧ (d.link n).fails = 0 ∧ (d.link n).testLeft = some (c.link n).testLength ∧ (d.link n).testPass = false ∧
      (d.link n).txSeq = (c.link n).txSeq ∧ (d.link n).rxLast = (c.link n).rxLast ∧ c.besideLink n d := by
  intro d
  have hback : (c.link n).retraining = true := by rcases h with h | h <;> simp [Link.retraining, hstate, h]
  have hnot : ¬((c.link n).before = .active ∧ (c.link n).testPass = true) := by rcases h with h | h <;> simp [h]
  obtain ⟨hq, hbeside⟩ := Chip.takeSet_isolated hstate hvalid h2 hlen hlast hsame hsent hheld hback hreplay hpkg hlink hnot
  obtain ⟨-, htx, hrx, hctrl, -⟩ := Link.resumedBy_keeps (k := (c.link n).takeTs2 t) t hreplay
  obtain ⟨-, htx1, hrx1, hctrl1, -⟩ := (c.link n).takeTs2_keeps t
  obtain ⟨hleft, hpass, htx2, hrx2⟩ := (((c.link n).takeTs2 t).resumedBy t).startTest_keeps
  rw [hq]
  refine ⟨rfl, rfl, hleft.trans ?_, hpass, htx2.trans (htx.trans htx1), hrx2.trans (hrx.trans hrx1), hbeside⟩
  rw [hctrl, hctrl1]
  rfl

end

/-- Settles O49: each event by the state of the link that it meets, and what it leaves of that link and of the others. -/
theorem linkTraining : Obligations.LinkTraining := by
  intro s n lane f t hn hlen c k k1 k2 ready sixteen rest becomes late
  have frame {p : Chip → Prop} (h : p (c.setLink n (k.laneFrame lane.toNat f))) : Completes s (.laneFrame n lane f) p :=
    .of_runIf (f := fun c => c.setLink n ((c.link n).laneFrame lane.toNat f)) rfl (decide_eq_true hn) h
  have set {p : Chip → Prop} (h : p (c.takeSet n t)) : Completes s (.trainingSet n t) p :=
    .of_runIf (f := fun c => c.takeSet n t) rfl (decide_eq_true ⟨hn, hlen⟩) h
  have again {p : Chip → Prop} (h : p (c.retrainTimeout n)) : Completes s (.retrainTimeout n) p :=
    .of_runIf (f := fun c => c.retrainTimeout n) rfl (decide_eq_true hn) h
  have test {p : Chip → Prop} (h : p (c.linkTest n)) : Completes s (.linkTest n) p :=
    .of_runIf (f := fun c => c.linkTest n) rfl (decide_eq_true hn) h
  have ended {p : Chip → Prop} (h : p (c.testOver n)) : Completes s (.linkTestDone n) p :=
    .of_runIf (f := fun c => c.testOver n) rfl (decide_eq_true hn) h
  have lateAt (i : Instr) (st : LinkState) (hi : exec i s = s.runIf (n < 24) (fun c => c.trainTimeout n st)) : late i st := by
    have row {p : Chip → Prop} (h : p (c.trainTimeout n st)) : Completes s i p :=
      .of_runIf (f := fun c => c.trainTimeout n st) hi (decide_eq_true hn) h
    refine ⟨fun h => row (if_pos h), fun h hre hfew => row ?_, fun h hre hmany => row ?_, fun h hre => row ?_⟩
    · exact (Chip.trainTimeout_spec h).1 hre hfew
    · exact (Chip.trainTimeout_spec h).2.1 hre hmany
    · exact (Chip.trainTimeout_spec h).2.2 hre
  have signal {p : Chip → Prop} (h : p (if k.state = .detect then c.setLink n { k.detect with state := .poll } else c)) :
      Completes s (.signalDetect n) p :=
    .of_runIf (f := fun c => if (c.link n).state = .detect then c.setLink n { (c.link n).detect with state := .poll } else c) rfl
      (decide_eq_true hn) h
  refine ⟨fun h => signal ?_, fun h => signal (if_neg h),
    fun h hready => frame ?_, fun h hready => frame ?_, fun h hdone => frame ?_, fun h hdone => frame ?_, fun h1 h2 h3 => frame ?_,
    fun h => ⟨fun hbad => set ?_, fun hvalid h1 => set ?_, fun hvalid h2 hwait => set ?_, fun hvalid h2 hlast hsame hsent hheld => ?_⟩,
    fun h hheld => set ?_, lateAt _ _ rfl, lateAt _ _ rfl, lateAt _ _ rfl, fun h => again ?_, fun h => again (Chip.retrainTimeout_idle h),
    .of_runIf (f := fun c => c.linkDisable n) rfl (decide_eq_true hn) (c.linkDisable_spec n),
    .of_runIf (f := fun c => c.linkEnable n) rfl (decide_eq_true hn) (c.linkEnable_spec n),
    fun h => test (Chip.linkTest_isolated hn h), fun h => test ?_, fun h hleft => ended (Chip.testOver_spec h hleft),
    fun h => ended (if_neg fun hk => h hk.1)⟩
  · rw [if_pos h]
    exact c.linkIs_setLink n _
  · rw [Link.laneFrame_poll _ _ h, Link.lanesOver_wait (by rw [Link.noteFrame_state]; exact h) hready]
    exact c.linkIs_setLink n _
  · obtain ⟨hstate, hrev⟩ := Link.lanesOver_ready (k := k1) (by rw [Link.noteFrame_state]; exact h) hready
    rw [Link.laneFrame_poll _ _ h]
    obtain ⟨hlink, hbeside⟩ := c.linkIs_setLink n k1.lanesOver
    rw [hlink]
    exact ⟨hstate.trans (by rw [Link.noteFrame_state]), hrev, hbeside⟩
  · rw [Link.laneFrame_eq _ _ h, Link.lanesOver_eq_wait (by rw [Link.moveTaps_state, Link.noteFrame_state]; exact h) hdone]
    exact c.linkIs_setLink n _
  · rw [Link.laneFrame_eq _ _ h, Link.lanesOver_eq (by rw [Link.moveTaps_state, Link.noteFrame_state]; exact h) hdone]
    obtain ⟨hlink, hbeside⟩ := c.linkIs_setLink n (Link.enterConfig { k2 with before := .eq })
    rw [hlink]
    exact ⟨rfl, rfl, hbeside⟩
  · rw [Link.laneFrame_other _ _ h1 h2 h3]
    exact c.linkIs_setLink n k
  · exact Chip.takeSet_waits (Chip.trainingSet_invalid h hbad) (c.linkIs_setLink n _) h
  · exact Chip.takeSet_waits (Chip.trainingSet_ts1 h hvalid h1) (c.linkIs_setLink n _) h
  · have hq := Chip.takeSet_ts2_wait h hvalid h2 (by rw [Link.takeTs2_eq]; exact hwait)
    rw [Link.takeTs2_eq] at hq
    exact hq
  · refine ⟨fun hre => set (Chip.takeSet_fresh_spec h hvalid h2 hlen hlast hsame hsent hheld hre), fun hreplay hpkg hlink =>
      ⟨fun hbefore hpass => set ?_, fun hback => set ?_⟩⟩
    · exact Chip.takeSet_active_spec h hvalid h2 hlen hlast hsame hsent hheld hreplay hpkg hlink hbefore hpass
    · exact Chip.takeSet_isolated_spec h hvalid h2 hlen hlast hsame hsent hheld hreplay hpkg hlink hback
  · refine (Chip.linkIs_takeHeld ?_ hheld : c.linkIs n k (c.takeSet n t))
    rw [Chip.trainingSet_other h]
    exact ⟨rfl, c.besideLink_refl n⟩
  · obtain ⟨hlink, hbeside⟩ := Chip.linkIs_retrainTimeout h
    rw [hlink]
    exact ⟨rfl, k.dropped_err .detect, rfl, hbeside⟩
  · exact (c.linkTest_active h : c.linkIs n _ (c.linkTest n))

end Sys2Proof.Machine
end

section
/-! SUPPORT. Reports, Freeze, drain and resume of a fabric epoch (R482 to R484, R490, R491). -/

namespace Sys2Proof.Machine

/-! Freeze (R484). -/

/-- A coordinator's FREEZE: what it notes beside what it freezes. -/
theorem Chip.sendFreeze_noted (c : Chip) (p : EpochPlan) : Noted ((c.emit (.freeze p)).freezeNow p) (c.sendFreeze p) := Reported.noted_refuseJoins _

/-- What a package that has frozen keeps of what it knew. -/
theorem Chip.sendFreeze_net (c : Chip) (p : EpochPlan) : let n := (c.sendFreeze p).net
    n.plan = some p ∧ n.phase = .freeze ∧ n.drained = [] ∧ n.reports = c.net.reports ∧ n.seen = c.net.seen := by
  intro n
  have hnet : n = ((c.emit (.freeze p)).freezeNow p).net := (c.sendFreeze_noted p).net
  rw [hnet]
  exact ⟨rfl, rfl, rfl, rfl, rfl⟩

/-- What may be new on the wires: signals and FREEZE beside what a list holds. -/
def Out.sayMore (o : Out) : Prop := o.isSignal = true ∨ ∃ p, o = .freeze p

theorem Chip.sendFreeze_out (c : Chip) (p : EpochPlan) : let d := c.sendFreeze p
    Out.freeze p ∈ d.out ∧ (∀ o ∈ c.out, o ∈ d.out) ∧ ∀ o ∈ d.out, o ∈ c.out ∨ o.sayMore := by
  intro d
  have hnoted := c.sendFreeze_noted p
  refine ⟨hnoted.mem_out List.mem_cons_self, fun o ho => hnoted.mem_out (List.mem_cons_of_mem _ ho), fun o ho => ?_⟩
  cases hsig : o.isSignal with
  | true => exact .inr (.inl hsig)
  | false =>
    rcases List.mem_cons.mp (hnoted.of_mem_out ho hsig) with hfreeze | hold
    · exact .inr (.inr ⟨p, hfreeze⟩)
    · exact .inl hold

/-! Reports (R483). -/

/-- The package with the reports that it has gathered. -/
def Chip.gathered (c : Chip) (l : List Report) : Chip := { c with net := { c.net with reports := l } }

/-- A report is gathered: the first change starts Collect, and during a change the coordinator may send FREEZE again. -/
theorem Chip.gather_cases (c : Chip) (r : Report) : ∃ l, r ∈ l ∧
    ((c.net.phase = .run ∧ c.gather r = if (c.gathered l).changeDue then { c.gathered l with net := { (c.gathered l).net with phase := .collect } }
      else c.gathered l) ∨ (c.net.phase ≠ .run ∧ (c.gather r = c.gathered l ∨ ∃ q, c.gather r = (c.gathered l).sendFreeze q))) := by
  unfold Chip.gather
  extract_lets kept net c1
  refine ⟨c1.net.reports, ?_, ?_⟩
  · change r ∈ (if r ∈ kept then kept else kept ++ [r])
    split
    · assumption
    · exact List.mem_append_right _ List.mem_cons_self
  · split
    · next hphase => exact .inl ⟨hphase, rfl⟩
    · next hphase => exact .inr ⟨fun h => absurd (hphase.symm.trans h) (by decide), .inl rfl⟩
    · next hrun hcollect =>
      refine .inr ⟨fun h => hrun h, ?_⟩
      dsimp only
      split
      · exact .inr ⟨_, rfl⟩
      · exact .inl rfl
    · next hrun hcollect => exact .inr ⟨fun h => hrun h, .inl rfl⟩

/-- What a report that is gathered leaves. -/
theorem Chip.gather_spec (c : Chip) (r : Report) : let d := c.gather r
    r ∈ d.net.reports ∧ d.net.seen = c.net.seen ∧ (∀ o ∈ c.out, o ∈ d.out) ∧ ∀ o ∈ d.out, o ∈ c.out ∨ o.sayMore := by
  intro d
  obtain ⟨l, hr, ⟨-, hd⟩ | ⟨-, hd | ⟨q, hd⟩⟩⟩ := c.gather_cases r
  · have hd' : d = _ := hd
    rw [hd']
    split
    · exact ⟨hr, rfl, fun _ h => h, fun _ h => .inl h⟩
    · exact ⟨hr, rfl, fun _ h => h, fun _ h => .inl h⟩
  · have hd' : d = _ := hd
    rw [hd']
    exact ⟨hr, rfl, fun _ h => h, fun _ h => .inl h⟩
  · have hd' : d = _ := hd
    obtain ⟨-, -, -, hreports, hseen⟩ := (c.gathered l).sendFreeze_net q
    obtain ⟨-, hkept, hnew⟩ := (c.gathered l).sendFreeze_out q
    rw [hd']
    exact ⟨hreports ▸ hr, hseen, hkept, hnew⟩

/-- A change that this package asks for starts Collect (R483). -/
theorem Chip.gather_request {c : Chip} (me : Nat) (h : c.net.phase = .run) : (c.gather (.request me)).net.phase = .collect := by
  obtain ⟨l, hr, ⟨-, hd⟩ | ⟨hphase, -⟩⟩ := c.gather_cases (.request me)
  · have hdue : (c.gathered l).changeDue = true := by
      have hany : l.any (fun r => match r with | .request _ => true | _ => false) = true := List.any_eq_true.mpr ⟨_, hr, rfl⟩
      unfold Chip.changeDue
      dsimp only
      rw [Bool.or_eq_true]
      exact .inr hany
    rw [hd, if_pos hdue]
  · exact absurd h hphase

theorem Chip.flood_eq (c : Chip) (r : Report) (from_ : Option Nat) : c.flood r from_ =
    { c with net := { c.net with seen := r :: c.net.seen },
             out := ((c.upLinks.filter (fun n => from_ ≠ some n)).map fun n => Out.report n r).reverse ++ c.out } := by
  unfold Chip.flood
  rw [Chip.foldl_emit]

theorem Chip.mem_upLinks (c : Chip) (n : Nat) : n ∈ c.upLinks ↔ n < 24 ∧ (c.link n).up = true := by
  simp [Chip.upLinks]

/-- A report is forwarded on each other up link and gathered (R483). -/
theorem Chip.takeReport_spec {c : Chip} {link : Nat} {r : Report} (hup : (c.link link).up = true) (hnew : r ∉ c.net.seen) :
    let d := c.takeReport link r
    r ∈ d.net.reports ∧ r ∈ d.net.seen ∧ (∀ m, m < 24 → m ≠ link → (c.link m).up = true → Out.report m r ∈ d.out) ∧
      (Out.report link r ∈ d.out → Out.report link r ∈ c.out) ∧ Reported c d := by
  intro d
  have hd : d = (c.flood r (some link)).gather r := if_neg (by simp [hup, hnew])
  obtain ⟨hreports, hseen, hkept, hmore⟩ := (c.flood r (some link)).gather_spec r
  rw [hd]
  refine ⟨hreports, ?_, fun m hm hne hmup => hkept _ ?_, fun hout => ?_, (Reported.flood c r _).trans (.gather _ r)⟩
  · rw [hseen, Chip.flood_eq]
    exact List.mem_cons_self
  · rw [Chip.flood_eq]
    refine List.mem_append_left _ (List.mem_reverse.mpr (List.mem_map_of_mem (List.mem_filter.mpr ⟨?_, ?_⟩)))
    · exact (c.mem_upLinks m).mpr ⟨hm, hmup⟩
    · simpa using Ne.symm hne
  · rcases hmore _ hout with hold | hsig | ⟨p, hp⟩
    · rw [Chip.flood_eq] at hold
      rcases List.mem_append.mp hold with hfresh | hold
      · simp at hfresh
      · exact hold
    · exact absurd hsig (by simp [Out.isSignal])
    · exact absurd hp (by simp)

/-- A change that this package reports. -/
theorem Chip.reportRequest_spec (c : Chip) (me : Nat) : let d := c.reportChange (.request me)
    Report.request me ∈ d.net.reports ∧ (c.net.phase = .run → d.net.phase = .collect) ∧ Reported c d := by
  have hphase : (c.flood (.request me) none).net.phase = c.net.phase := by rw [Chip.flood_eq]
  exact ⟨((c.flood (.request me) none).gather_spec _).1, fun h => Chip.gather_request me (hphase.trans h), .reportChange c _⟩

/-! Drain (R484). -/

theorem Reported.noteDrained (c : Chip) (pkg : Nat) : Reported c (c.noteDrained pkg) := by
  unfold Chip.noteDrained
  split
  · exact .refl c
  · dsimp only
    split
    · exact .refl c
    · split <;> rfl

/-- What the record of a drained package leaves. -/
theorem Chip.noteDrained_keeps (c : Chip) (pkg : Nat) : (c.noteDrained pkg).net.phase = c.net.phase ∧ ∀ o ∈ c.out, o ∈ (c.noteDrained pkg).out := by
  unfold Chip.noteDrained
  split
  · exact ⟨rfl, fun _ h => h⟩
  · dsimp only
    split
    · exact ⟨rfl, fun _ h => h⟩
    · split
      · exact ⟨rfl, fun _ h => List.mem_cons_of_mem _ h⟩
      · exact ⟨rfl, fun _ h => h⟩

section
variable {c : Chip} {p : EpochPlan} (hplan : c.net.plan = some p)
include hplan

/-- The coordinator records a package that has drained. -/
theorem Chip.noteDrained_coord {pkg : Nat} (hcoord : p.coord.toNat = c.self) (hnew : pkg ∉ c.net.drained) :
    (c.noteDrained pkg).net.drained = pkg :: c.net.drained ∧ (c.noteDrained pkg).out =
      if (c.net.live.filter (fun q => q ∉ p.lost) ++ p.joined).all (fun q => q ∈ pkg :: c.net.drained) then .commit p.epoch :: c.out else c.out := by
  unfold Chip.noteDrained
  rw [hplan]
  dsimp only
  rw [if_neg (by simp [hcoord, hnew])]
  split <;> exact ⟨rfl, rfl⟩

theorem Chip.noteDrained_other {pkg : Nat} (hcoord : p.coord.toNat ≠ c.self) : c.noteDrained pkg = c := by
  unfold Chip.noteDrained
  rw [hplan]
  exact if_pos (.inl hcoord)

/-- A quiet router drains. -/
theorem Chip.drainQuiet_spec (hphase : c.net.phase = .freeze) (hquiet : c.quiet = true) : let d := c.drainQuiet
    d.net.phase = .drained ∧ Out.drained c.self p.epoch ∈ d.out ∧ Reported c d := by
  intro d
  let u : Chip := { c with net := { c.net with phase := .drained } }.emit (.drained c.self p.epoch)
  have hd : d = u.noteDrained c.self := by
    unfold d Chip.drainQuiet
    rw [hplan]
    exact if_pos ⟨hphase, hquiet⟩
  obtain ⟨hkept, hout⟩ := u.noteDrained_keeps c.self
  have hu : Reported c u := rfl
  rw [hd]
  exact ⟨hkept, hout _ List.mem_cons_self, hu.trans (.noteDrained u c.self)⟩

theorem Chip.drainQuiet_noisy (hquiet : c.quiet = false) : c.drainQuiet = c := by
  unfold Chip.drainQuiet
  rw [hplan]
  exact if_neg (by simp [hquiet])

theorem Chip.freezeOver_spec {pkg : Nat} (hcoord : p.coord.toNat = c.self) (hmember : pkg ∈ c.net.live ++ p.joined) (hlate : pkg ∉ c.net.drained)
    (hnew : pkg ∉ p.lost) : c.freezeOver pkg = c.sendFreeze (c.planNow (p.lost ++ [pkg])) := by
  unfold Chip.freezeOver
  rw [hplan]
  exact if_pos ⟨hcoord, hmember, hlate, hnew⟩

theorem Chip.failover_spec (h : lowest (c.candidates.filter (fun q => p.coord.toNat < q)) = some c.self) :
    c.failover = c.sendFreeze { p with coord := BitVec.ofNat 12 c.self } := by
  unfold Chip.failover
  rw [hplan]
  exact if_pos h

end

section
variable {c : Chip} (hplan : c.net.plan = none)
include hplan

theorem Chip.no_plan (pkg : Nat) (epoch : BitVec 32) (tide : Word) : c.drainQuiet = c ∧ c.noteDrained pkg = c ∧ c.freezeOver pkg = c ∧ c.failover = c ∧
    c.takeCommit epoch tide = c := by
  unfold Chip.drainQuiet Chip.noteDrained Chip.freezeOver Chip.failover Chip.takeCommit
  rw [hplan]
  exact ⟨rfl, rfl, rfl, rfl, rfl⟩

end

/-- The packages that a plan names as lost include those that are forced. -/
theorem Chip.mem_planNow_lost (c : Chip) {forced : List Nat} {pkg : Nat} (h : pkg ∈ forced) : pkg ∈ (c.planNow forced).lost := by
  unfold Chip.planNow
  simp [h]

/-- What FREEZE sent by this package leaves. -/
theorem Chip.sendFreeze_freezes (c : Chip) (p : EpochPlan) : let d := c.sendFreeze p
    d.net.plan = some p ∧ d.net.phase = .freeze ∧ d.net.drained = [] ∧ Out.freeze p ∈ d.out ∧ Reported c d := by
  obtain ⟨hplan, hphase, hdrained, -, -⟩ := c.sendFreeze_net p
  exact ⟨hplan, hphase, hdrained, (c.sendFreeze_out p).1, .sendFreeze c p⟩

/-! Messages that wait, and RESUME (R484). -/

/-- A new operation waits out a Freeze. -/
theorem Chip.send_frozen {c : Chip} {m : Msg} (hphase : c.net.phase = .freeze) (h : m.mtype.toNat ≤ 6) :
    c.send m = { c with net := { c.net with held := c.net.held ++ [m] } } :=
  if_pos (by simp [Chip.frozenMsg, hphase, h])

/-- What a message that goes out leaves. -/
structure Chip.Injected (c d : Chip) : Prop where
  mem : d.mem = c.mem
  cores : d.cores = c.cores
  req : d.req = c.req
  phase : d.net.phase = c.net.phase
  held : d.net.held = c.net.held

theorem Chip.injected_refl (c : Chip) : c.Injected c := ⟨rfl, rfl, rfl, rfl, rfl⟩

theorem Chip.Injected.trans {c d e : Chip} (h : c.Injected d) (g : d.Injected e) : c.Injected e :=
  ⟨g.mem.trans h.mem, g.cores.trans h.cores, g.req.trans h.req, g.phase.trans h.phase, g.held.trans h.held⟩

theorem Chip.injected_sendOn (c : Chip) (n : Nat) (m : Msg) : c.Injected (c.sendOn n m) := by
  unfold Chip.sendOn
  split
  · exact c.injected_refl
  · exact ⟨rfl, rfl, rfl, rfl, rfl⟩

theorem Chip.injected_inject (c : Chip) (m : Msg) : c.Injected (c.inject m) := by
  unfold Chip.inject
  dsimp only
  split
  · exact ⟨rfl, rfl, rfl, rfl, rfl⟩
  · split
    · exact c.injected_sendOn _ _
    · exact ⟨rfl, rfl, rfl, rfl, rfl⟩

/-- Whether new operations may go. -/
def Chip.thawed (c : Chip) : Prop := c.net.phase ≠ .freeze ∧ c.net.phase ≠ .drained

theorem Chip.thawed_of {c : Chip} (h : c.net.phase = .run ∨ c.net.phase = .collect) : c.thawed := by
  rcases h with h | h <;> simp [Chip.thawed, h]

theorem Chip.injected_send {c : Chip} (m : Msg) (h : c.thawed) : c.Injected (c.send m) := by
  have hgo : c.frozenMsg m = false := by simp [Chip.frozenMsg, h.1, h.2]
  rw [Chip.send, if_neg (by simp [hgo])]
  exact c.injected_inject m

/-- What was held goes out where nothing freezes. -/
theorem Chip.injected_foldl_send (l : List Msg) {c : Chip} (h : c.thawed) : c.Injected (l.foldl (fun c m => c.send m) c) := by
  induction l generalizing c with
  | nil => exact c.injected_refl
  | cons m t ih =>
    have hsend := Chip.injected_send m h
    refine hsend.trans (ih ?_)
    unfold Chip.thawed
    rw [hsend.phase]
    exact h

/-- RESUME (R484). -/
theorem Chip.resume_spec {c : Chip} (hphase : c.net.phase = .drained) (hplan : c.net.plan = none) : let d := c.resume
    d.net.phase ≠ .drained ∧ d.net.phase ≠ .freeze ∧ d.net.held = [] ∧ d.mem = c.mem ∧ d.cores = c.cores ∧ d.req = c.req := by
  intro d
  have hd : d = _ := if_pos ⟨hphase, hplan⟩
  rw [hd]
  extract_lets held n1 c1 c2 n3 c3
  have h3 : c3.thawed ∧ c3.net.held = [] ∧ c3.mem = c.mem ∧ c3.cores = c.cores ∧ c3.req = c.req := by
    unfold c3
    split
    · exact ⟨Chip.thawed_of (.inr rfl), rfl, rfl, rfl, rfl⟩
    · exact ⟨Chip.thawed_of (.inl rfl), rfl, rfl, rfl, rfl⟩
  obtain ⟨hthaw, hheld, hmem, hcores, hreq⟩ := h3
  have hgo := Chip.injected_foldl_send held hthaw
  exact ⟨hgo.phase ▸ hthaw.2, hgo.phase ▸ hthaw.1, hgo.held.trans hheld, hgo.mem.trans hmem, hgo.cores.trans hcores, hgo.req.trans hreq⟩

end Sys2Proof.Machine
end

section
/-! SUPPORT. The commit of a fabric epoch: what it ends, and how links move (R434, R485, R486, R560). -/

namespace Sys2Proof.Machine

/-! Requests that an event ends. -/

/-- A Request has ended with a status and a DETAIL. -/
def Chip.endsWith (c : Chip) (j : Nat) (v : Byte × BitVec 32) : Prop := ∃ y, c.ctx j = some y ∧ y.ended = some v

/-- A Request that nothing has ended yet. -/
def Chip.livesOn (c : Chip) (j : Nat) : Prop := ∃ x, c.ctx j = some x ∧ x.ended = none ∧ x.delivering = false

/-- What ends Requests in one way alone leaves: memory and the package's number, and a Request that was alive is alive or has ended so. -/
structure Chip.Ending (c : Chip) (v : Byte × BitVec 32) (d : Chip) : Prop where
  mem : d.mem = c.mem
  self : d.self = c.self
  ends : ∀ j, c.endsWith j v → d.endsWith j v
  lives : ∀ j, c.livesOn j → d.livesOn j ∨ d.endsWith j v

namespace Chip.Ending

variable {v : Byte × BitVec 32}

theorem refl (c : Chip) : c.Ending v c := ⟨rfl, rfl, fun _ h => h, fun _ h => .inl h⟩

theorem trans {c d e : Chip} (h : c.Ending v d) (g : d.Ending v e) : c.Ending v e where
  mem := g.mem.trans h.mem
  self := g.self.trans h.self
  ends j hj := g.ends j (h.ends j hj)
  lives j hj := (h.lives j hj).elim (g.lives j) fun hd => .inr (g.ends j hd)

/-- A change that leaves memory, the Requests and the package's number alone. -/
theorem of_same {c d : Chip} (hmem : d.mem = c.mem) (hself : d.self = c.self) (hreq : ∀ j, d.ctx j = c.ctx j) : c.Ending v d where
  mem := hmem
  self := hself
  ends j h := by rw [Chip.endsWith, hreq]; exact h
  lives j h := .inl (by rw [Chip.livesOn, hreq]; exact h)

theorem endReq (c : Chip) (k status : Nat) (detail : BitVec 32) : c.Ending (BitVec.ofNat 8 status, detail) (c.endReq k status detail) where
  mem := c.endReq_mem k status detail
  self := (congrArg Chip.self (c.endReq_rest k status detail).1 :)
  ends j h := by
    obtain ⟨y, hy, hended⟩ := h
    exact ⟨y, Chip.endReq_keeps_ended hy (by rw [hended]; rfl) k status detail, hended⟩
  lives j h := by
    obtain ⟨x, hx, hended, hdel⟩ := h
    by_cases hj : j = k
    · subst hj
      exact .inr ⟨_, Chip.endReq_ctx_same hx hended hdel status detail, rfl⟩
    · exact .inl ⟨x, (c.endReq_ctx_other status detail hj).trans hx, hended, hdel⟩

end Chip.Ending

/-- A Request that was alive when it was ended has ended. -/
theorem Chip.endReq_endsWith {c : Chip} {k status : Nat} {detail : BitVec 32}
    (h : c.livesOn k ∨ c.endsWith k (BitVec.ofNat 8 status, detail)) : (c.endReq k status detail).endsWith k (BitVec.ofNat 8 status, detail) := by
  rcases h with ⟨x, hx, hended, hdel⟩ | hends
  · exact ⟨_, Chip.endReq_ctx_same hx hended hdel status detail, rfl⟩
  · exact (Chip.Ending.endReq c k status detail).ends k hends

/-! Operations that are lost (R141, R485). -/

/-- A lost operation leaves the core's trackers. -/
theorem Core.trks_lose (k : Core) (t : Trk) : (k.lose t).trks = k.trks.filter (fun u => u.id ≠ t.id) := by
  unfold Core.lose
  dsimp only
  split
  · rfl
  · rfl
  · rfl
  · split <;> rfl
  · rfl

/-- How a commit that shrinks ends an operation: ABORT_REMOTE, with the package in DETAIL. -/
def lostTo (pkg : Nat) : Byte × BitVec 32 := (0x15, detailRemote pkg false)

/-- One unanswered operation ends, and is counted. -/
def Chip.endOp (c : Chip) (pkg fc : Nat) (t : Trk) : Chip := (c.loseOp fc t 0x15 (detailRemote pkg false)).netCount 2 1

theorem Chip.trks_endReq (c : Chip) (k status : Nat) (detail : BitVec 32) (n : Nat) :
    ((c.endReq k status detail).core n).trks = (c.core n).trks := by rw [Chip.core_endReq]

section
variable (c : Chip) (pkg fc : Nat) (t : Trk)

theorem Chip.ending_endOp : c.Ending (lostTo pkg) (c.endOp pkg fc t) := by
  have hset : c.Ending (lostTo pkg) (c.setCore fc ((c.core fc).lose t)) := .of_same rfl rfl fun _ => rfl
  have hlose : c.Ending (lostTo pkg) (c.loseOp fc t 0x15 (detailRemote pkg false)) := by
    unfold Chip.loseOp
    dsimp only
    split
    · exact hset.trans (.of_same rfl rfl fun _ => rfl)
    · exact hset.trans (.endReq _ _ 0x15 _)
  exact hlose.trans (.of_same rfl rfl fun _ => rfl)

theorem Chip.trks_endOp : ((c.endOp pkg fc t).core fc).trks = (c.core fc).trks.filter (fun u => u.id ≠ t.id) := by
  unfold Chip.endOp Chip.loseOp
  dsimp only
  split
  · change ((c.setCore fc ((c.core fc).lose t)).core fc).trks = _
    rw [Chip.core_setCore, Core.trks_lose]
  · change (Chip.core (Chip.endReq _ _ _ _) fc).trks = _
    rw [Chip.trks_endReq, Chip.core_setCore, Core.trks_lose]

theorem Chip.trks_endOp_other {m : Nat} (h : m ≠ fc) : ((c.endOp pkg fc t).core m).trks = (c.core m).trks := by
  unfold Chip.endOp Chip.loseOp
  dsimp only
  split
  · change ((c.setCore fc ((c.core fc).lose t)).core m).trks = _
    rw [Chip.core_setCore_other _ _ h]
  · change (Chip.core (Chip.endReq _ _ _ _) m).trks = _
    rw [Chip.trks_endReq, Chip.core_setCore_other _ _ h]

theorem Chip.endOp_endsWith (hgone : t.holder ≠ .gone) (h : c.livesOn t.ctx ∨ c.endsWith t.ctx (lostTo pkg)) :
    (c.endOp pkg fc t).endsWith t.ctx (lostTo pkg) := by
  unfold Chip.endOp Chip.loseOp
  dsimp only
  rw [if_neg hgone]
  exact Chip.endReq_endsWith (c := c.setCore fc ((c.core fc).lose t)) h

end

/-- The unanswered operations of a list end. -/
def Chip.endEach (c : Chip) (pkg fc : Nat) (l : List Trk) : Chip := l.foldl (fun c t => c.endOp pkg fc t) c

theorem Chip.ending_endEach (c : Chip) (pkg fc : Nat) (l : List Trk) : c.Ending (lostTo pkg) (c.endEach pkg fc l) :=
  foldl_rel .refl .trans (fun c t _ => c.ending_endOp pkg fc t) c

theorem Chip.trks_endEach (c : Chip) (pkg fc : Nat) (l : List Trk) {u : Trk} :
    u ∈ ((c.endEach pkg fc l).core fc).trks ↔ u ∈ (c.core fc).trks ∧ ∀ t ∈ l, u.id ≠ t.id := by
  induction l generalizing c with
  | nil => simp [Chip.endEach]
  | cons t l ih =>
    refine (ih (c.endOp pkg fc t)).trans ?_
    rw [Chip.trks_endOp]
    simp [and_assoc]

theorem Chip.trks_endEach_other (c : Chip) (pkg fc : Nat) (l : List Trk) {m : Nat} (h : m ≠ fc) :
    ((c.endEach pkg fc l).core m).trks = (c.core m).trks :=
  foldl_rel (R := fun c d : Chip => (d.core m).trks = (c.core m).trks) (fun _ => rfl) (fun h g => g.trans h)
    (fun c t _ => c.trks_endOp_other pkg fc t h) c

theorem Chip.endEach_endsWith {l : List Trk} {t : Trk} (ht : t ∈ l) (hgone : t.holder ≠ .gone) (pkg fc : Nat) {c : Chip}
    (h : c.livesOn t.ctx ∨ c.endsWith t.ctx (lostTo pkg)) : (c.endEach pkg fc l).endsWith t.ctx (lostTo pkg) := by
  induction l generalizing c with
  | nil => simp at ht
  | cons u l ih =>
    rcases List.mem_cons.mp ht with rfl | hin
    · exact (Chip.ending_endEach _ pkg fc l).ends _ (Chip.endOp_endsWith c pkg fc t hgone h)
    · have hop := c.ending_endOp pkg fc u
      exact ih hin (h.elim (hop.lives _) fun hends => .inr (hop.ends _ hends))

/-- The unanswered operations of one core end. -/
def Chip.endCore (c : Chip) (pkg fc : Nat) : Chip := c.endEach pkg fc ((c.core fc).trks.filter (fun t => t.pkg ≠ c.self))

/-- What ends at the cores of a list: nothing of another package is left there, and whose Request was alive has ended. -/
structure Chip.CoresEnded (c : Chip) (pkg : Nat) (l : List Nat) (d : Chip) : Prop where
  ending : c.Ending (lostTo pkg) d
  own : ∀ fc ∈ l, ∀ t ∈ (d.core fc).trks, t.pkg = c.self
  others : ∀ fc, fc ∉ l → (d.core fc).trks = (c.core fc).trks
  ended : ∀ fc ∈ l, ∀ t ∈ (c.core fc).trks, t.pkg ≠ c.self → t.holder ≠ .gone →
    c.livesOn t.ctx ∨ c.endsWith t.ctx (lostTo pkg) → d.endsWith t.ctx (lostTo pkg)

theorem Chip.coresEnded_endCore (c : Chip) (pkg fc : Nat) : c.CoresEnded pkg [fc] (c.endCore pkg fc) where
  ending := c.ending_endEach pkg fc _
  own m hm t ht := by
    obtain rfl := List.mem_singleton.mp hm
    obtain ⟨hin, hleft⟩ := (c.trks_endEach pkg m _).mp ht
    by_contra hne
    exact hleft t (List.mem_filter.mpr ⟨hin, by simpa using hne⟩) rfl
  others m hm := c.trks_endEach_other pkg fc _ (fun h => hm (List.mem_singleton.mpr h))
  ended m hm t ht hne hgone h := by
    obtain rfl := List.mem_singleton.mp hm
    exact Chip.endEach_endsWith (List.mem_filter.mpr ⟨ht, by simpa using hne⟩) hgone pkg m h

/-- The cores are visited one after another. -/
theorem Chip.coresEnded_foldl (pkg : Nat) {l : List Nat} (hnodup : l.Nodup) (c : Chip) :
    c.CoresEnded pkg l (l.foldl (fun c fc => c.endCore pkg fc) c) := by
  induction l generalizing c with
  | nil => exact ⟨.refl c, fun _ h => by simp at h, fun _ _ => rfl, fun _ h => by simp at h⟩
  | cons a l ih =>
    obtain ⟨ha, hl⟩ := List.nodup_cons.mp hnodup
    have hfirst := c.coresEnded_endCore pkg a
    have hrest := ih hl (c.endCore pkg a)
    have hself := hfirst.ending.self
    refine ⟨hfirst.ending.trans hrest.ending, fun fc hfc t ht => ?_, fun fc hfc => ?_, fun fc hfc t ht hne hgone h => ?_⟩
    · by_cases hin : fc ∈ l
      · exact (hrest.own fc hin t ht).trans hself
      · obtain rfl : fc = a := (List.mem_cons.mp hfc).resolve_right hin
        exact hfirst.own fc List.mem_cons_self t (hrest.others fc hin ▸ ht)
    · obtain ⟨hne, hout⟩ := not_or.mp (fun h => hfc (List.mem_cons.mpr h))
      exact (hrest.others fc hout).trans (hfirst.others fc (by simpa using hne))
    · by_cases hin : fc ∈ l
      · have hother : fc ≠ a := fun h => ha (h ▸ hin)
        have htrks := hfirst.others fc (by simpa using hother)
        exact hrest.ended fc hin t (htrks ▸ ht) (by rw [hself]; exact hne) hgone (h.elim (hfirst.ending.lives _) fun he => .inr (hfirst.ending.ends _ he))
      · obtain rfl : fc = a := (List.mem_cons.mp hfc).resolve_right hin
        exact hrest.ending.ends _ (hfirst.ended fc List.mem_cons_self t ht hne hgone h)

theorem Chip.coresEnded_endOps (c : Chip) (pkg : Nat) : c.CoresEnded pkg (List.range 64) (c.endOps pkg) :=
  Chip.coresEnded_foldl pkg List.nodup_range c

/-! Collectives (R308, R326, R485). -/

theorem Chip.ending_lostCmd (c : Chip) (fc e : Nat) (x : EngCmd) (pkg : Nat) : c.Ending (lostTo pkg) (c.lostCmd fc e x pkg) :=
  .trans (d := c.setCmd fc e x.apart) (.of_same rfl rfl fun _ => rfl) (.endReq _ _ _ _)

theorem Chip.trks_lostCmd (c : Chip) (fc e : Nat) (x : EngCmd) (pkg n : Nat) : ((c.lostCmd fc e x pkg).core n).trks = (c.core n).trks := by
  unfold Chip.lostCmd
  rw [Chip.trks_endReq]
  unfold Chip.setCmd
  by_cases h : n = fc
  · subst h
    rw [Chip.core_setCore]
    rfl
  · rw [Chip.core_setCore_other _ _ h]

/-- A relation that losing a command keeps holds of the end of all collectives, the memory of them apart. -/
theorem Chip.endCollectives_rel {R : Chip → Chip → Prop} (hrefl : ∀ c, R c c) (htrans : ∀ {c d e}, R c d → R d e → R c e) (c : Chip) (pkg : Nat)
    (hlost : ∀ c fc e x, R c (c.lostCmd fc e x pkg)) :
    ∃ u, R c u ∧ c.endCollectives pkg = { u with conf := { roots := [], merges := [], a2a := [] } } := by
  refine ⟨_, ?_, rfl⟩
  refine foldl_rel hrefl htrans (fun c fc _ => foldl_rel hrefl htrans (fun c e _ => ?_) c) c
  split
  · split
    · exact hlost _ _ _ _
    · exact hrefl _
  · exact hrefl _

theorem Chip.endCollectives_spec (c : Chip) (pkg : Nat) : c.Ending (lostTo pkg) (c.endCollectives pkg) ∧
    (∀ n, ((c.endCollectives pkg).core n).trks = (c.core n).trks) ∧
    (c.endCollectives pkg).conf = { roots := [], merges := [], a2a := [] } := by
  obtain ⟨u, ⟨hu, htrks⟩, hd⟩ := Chip.endCollectives_rel
    (R := fun c d => c.Ending (lostTo pkg) d ∧ ∀ n, (d.core n).trks = (c.core n).trks) (fun c => ⟨.refl c, fun _ => rfl⟩)
    (fun h g => ⟨h.1.trans g.1, fun n => (g.2 n).trans (h.2 n)⟩) c pkg
    (fun c fc e x => ⟨c.ending_lostCmd fc e x pkg, c.trks_lostCmd fc e x pkg⟩)
  rw [hd]
  exact ⟨hu.trans (.of_same rfl rfl fun _ => rfl), htrks, rfl⟩

/-- What a commit that shrinks ends (R485). -/
theorem Chip.shrink_spec (c : Chip) (pkg : Nat) : let d := (c.endOps pkg).endCollectives pkg
    d.mem = c.mem ∧ d.conf = { roots := [], merges := [], a2a := [] } ∧ (∀ fc, fc < 64 → ∀ t ∈ (d.core fc).trks, t.pkg = c.self) ∧
      ∀ fc t, fc < 64 → t ∈ (c.core fc).trks → t.pkg ≠ c.self → t.holder ≠ .gone → c.livesOn t.ctx → d.endsWith t.ctx (lostTo pkg) := by
  intro d
  have hops := c.coresEnded_endOps pkg
  obtain ⟨hcoll, htrks, hconf⟩ := (c.endOps pkg).endCollectives_spec pkg
  refine ⟨hcoll.mem.trans hops.ending.mem, hconf, fun fc hfc t ht => ?_, fun fc t hfc ht hne hgone hlive => ?_⟩
  · exact hops.own fc (List.mem_range.mpr hfc) t (htrks fc ▸ ht)
  · exact hcoll.ends _ (hops.ended fc (List.mem_range.mpr hfc) t ht hne hgone (.inl hlive))

end Sys2Proof.Machine
end

section
/-! SUPPORT. The links that a commit moves, and what a commit makes of the network's state (R434, R485, R486, R492, R560). -/

namespace Sys2Proof.Machine

/-! Links move as the link set says (R434). -/

/-- Links may have moved, and what an entry of the log changes; all else is as it was. -/
def Chip.relinked (c d : Chip) : Prop := { d.notesOf c with links := c.links } = c

namespace Chip.relinked

theorem refl (c : Chip) : c.relinked c := rfl

theorem trans {c d e : Chip} (h : c.relinked d) (g : d.relinked e) : c.relinked e :=
  (congrArg (fun x : Chip => { x.notesOf c with links := c.links }) g :).trans h

theorem of_noted {c d : Chip} (h : Noted c d) : c.relinked d := (congrArg (fun x : Chip => { x with links := c.links }) h.rest :)

theorem setLink (c : Chip) (n : Nat) (k : Link) : c.relinked (c.setLink n k) := rfl

theorem moveLink (c : Chip) (n : Nat) (st : LinkState) : c.relinked (c.moveLink n st) := by
  unfold Chip.moveLink
  dsimp only
  split
  · exact (setLink c n _).trans (of_noted (.logLink _ _ _ _))
  · exact setLink c n _

variable {c d : Chip} (h : c.relinked d)
include h

theorem mem : d.mem = c.mem := (congrArg Chip.mem h :)
theorem tide : d.tide = c.tide := (congrArg Chip.tide h :)
theorem cores : d.cores = c.cores := (congrArg Chip.cores h :)
theorem req : d.req = c.req := (congrArg Chip.req h :)
theorem net : d.net = c.net := (congrArg Chip.net h :)
theorem conf : d.conf = c.conf := (congrArg Chip.conf h :)
theorem rst : d.rst = c.rst := (congrArg Chip.rst h :)

end Chip.relinked

/-- A link of this package as a link set moves it. -/
def Link.movedBy (links : List (Nat × Nat)) (me n : Nat) (k : Link) : Link :=
  if k.state = .isolated ∧ (me, n) ∈ links ∧ k.testPass = true then { k with state := .active }
  else if k.state = .active ∧ (me, n) ∉ links then { (if k.testWaits then k.startTest else k) with state := .isolated }
  else k

theorem Link.movedBy_state (links : List (Nat × Nat)) (me n : Nat) (k : Link) : (k.movedBy links me n).state =
    if k.state = .isolated ∧ (me, n) ∈ links ∧ k.testPass = true then .active
    else if k.state = .active ∧ (me, n) ∉ links then .isolated else k.state := by
  unfold Link.movedBy
  split
  · rfl
  · split <;> rfl

/-- One link moves as the link set says. -/
def Chip.obeyLink (c : Chip) (n : Nat) : Chip :=
  let k := c.link n
  if k.state = .isolated ∧ (c.self, n) ∈ c.net.links ∧ k.testPass = true then c.moveLink n .active
  else if k.state = .active ∧ (c.self, n) ∉ c.net.links then
    (c.setLink n (if k.testWaits then k.startTest else k)).moveLink n .isolated
  else c

theorem Chip.moveLinks_eq (c : Chip) : c.moveLinks = (List.range 24).foldl Chip.obeyLink c := rfl

theorem Chip.linkIs_obeyLink (c : Chip) (n : Nat) : c.linkIs n ((c.link n).movedBy c.net.links c.self n) (c.obeyLink n) := by
  have hsame : c.linkIs n (c.link n) c := ⟨rfl, c.besideLink_refl n⟩
  unfold Chip.obeyLink Link.movedBy
  dsimp only
  split
  · exact Chip.linkIs_moveLink hsame .active
  · split
    · exact Chip.linkIs_moveLink (c.linkIs_setLink n _) .isolated
    · exact hsame

theorem Chip.relinked_obeyLink (c : Chip) (n : Nat) : c.relinked (c.obeyLink n) := by
  unfold Chip.obeyLink
  dsimp only
  split
  · exact .moveLink c n .active
  · split
    · exact (Chip.relinked.setLink c n _).trans (.moveLink _ n .isolated)
    · exact .refl c

theorem Chip.relinked_moveLinks (c : Chip) : c.relinked c.moveLinks :=
  foldl_rel (R := Chip.relinked) .refl .trans (fun c n _ => c.relinked_obeyLink n) c

theorem Chip.moveLinks_link (c : Chip) {m : Nat} (hm : m < 24) : c.moveLinks.link m = (c.link m).movedBy c.net.links c.self m := by
  have h := foldl_links_of (P := fun d => d.net = c.net) (f := Chip.obeyLink) (g := fun k n => k.movedBy c.net.links c.self n)
    (fun d n hd => (d.relinked_obeyLink n).net.trans hd) (fun d n j hd => ?_) (l := List.range 24) List.nodup_range (c := c) rfl m
  · rw [Chip.moveLinks_eq, h, if_pos (List.mem_range.mpr hm)]
  · obtain ⟨hlink, hbeside⟩ := d.linkIs_obeyLink n
    have hself : d.self = c.self := by rw [Chip.self, hd, Chip.self]
    split
    · next hj => rw [← hj, hlink, hd, hself]
    · next hj => exact hbeside.1 j (Ne.symm hj)

/-! A commit (R485, R486, R492, R560). -/

/-- What a commit ends before the tables are swapped: nothing where it only grows. -/
def Chip.shrunk (c : Chip) (p : EpochPlan) : Chip :=
  if p.grow then c else (c.endOps (c.shrinkPkg p)).endCollectives (c.shrinkPkg p)

/-- The network's state after a commit, for a state in which what ends has ended. -/
def Chip.swapped (c b : Chip) (p : EpochPlan) : Chip :=
  let live := (c.net.live.filter (fun q => q ∉ p.lost) ++ p.joined).eraseDups
  let gone := fun (e : Nat × Nat) => e ∈ p.removed || e.1 ∈ p.lost || (c.otherEnd e).1 ∈ p.lost
  let links := (c.net.links.filter (fun e => !gone e) ++ p.added).eraseDups
  { b with net := { b.net with
    epoch := p.epoch, live := live, links := links, partners := b.partnersNow, coord := p.coord, plan := none, phase := .drained, drained := [], seen := [],
    reports := b.net.reports.filter (Report.stays live links p.grow) } }

/-- A package that joins takes the Tide of the coordinator. -/
def Chip.joining (c d : Chip) (p : EpochPlan) (tide : Word) : Chip :=
  if c.self ∈ p.joined && c.self ∉ c.net.live then { d with tide := tide, rst := { d.rst with phase := .joined } } else d

/-- What the log says of a commit. -/
def commitEntry (p : EpochPlan) : List Byte :=
  leBytes 4 p.epoch.toNat ++ [if p.grow then 0 else 1] ++ leBytes 2 p.coord.toNat ++ leBytes 2 p.lost.length

theorem Chip.commit_eq (c : Chip) (p : EpochPlan) (tide : Word) : c.commit p tide =
    (((c.joining (c.swapped (c.shrunk p) p) p tide).netCount 0 1).log 0x0021 0 0x43 (commitEntry p)).moveLinks := rfl

/-- Where the tables have been swapped, the commit leaves what its entry of the log and its links do not change. -/
theorem Chip.commit_relinked (c : Chip) (p : EpochPlan) (tide : Word) : let b := (c.joining (c.swapped (c.shrunk p) p) p tide).netCount 0 1
    b.relinked (c.commit p tide) ∧
      ∀ m, m < 24 → (c.commit p tide).link m = (b.link m).movedBy b.net.links b.self m := by
  intro b
  have hlog : Noted b (b.log 0x0021 0 0x43 (commitEntry p)) := .log b _ _ _ _
  rw [c.commit_eq p tide]
  refine ⟨(Chip.relinked.of_noted hlog).trans (Chip.relinked_moveLinks _), fun m hm => ?_⟩
  rw [Chip.moveLinks_link _ hm, hlog.link, hlog.net, Chip.self, hlog.net, Chip.self]

theorem Chip.joining_rest (c d : Chip) (p : EpochPlan) (tide : Word) : let b := (c.joining d p tide).netCount 0 1
    { b with tide := d.tide, rst := d.rst, net := d.net } = d ∧ { b.net with counters := d.net.counters } = d.net := by
  unfold Chip.joining
  split <;> exact ⟨rfl, rfl⟩

theorem Chip.joining_joins {c : Chip} {p : EpochPlan} (hin : c.self ∈ p.joined) (hout : c.self ∉ c.net.live) (d : Chip) (tide : Word) :
    let b := (c.joining d p tide).netCount 0 1
    b.tide = tide ∧ b.rst.phase = .joined := by
  unfold Chip.joining
  rw [if_pos (by simp [hin, hout])]
  exact ⟨rfl, rfl⟩

/-- What a commit leaves of the state in which all that it ends has ended. -/
theorem Chip.commit_rest (c : Chip) (p : EpochPlan) (tide : Word) : let d := c.commit p tide
    d.mem = (c.shrunk p).mem ∧ d.cores = (c.shrunk p).cores ∧ d.req = (c.shrunk p).req ∧ d.conf = (c.shrunk p).conf := by
  intro d
  have h := (c.commit_relinked p tide).1
  have hb := (c.joining_rest (c.swapped (c.shrunk p) p) p tide).1
  exact ⟨h.mem.trans (congrArg Chip.mem hb :), h.cores.trans (congrArg Chip.cores hb :), h.req.trans (congrArg Chip.req hb :),
    h.conf.trans (congrArg Chip.conf hb :)⟩

/-- The network's state after a commit, its counters apart. -/
theorem Chip.commit_net (c : Chip) (p : EpochPlan) (tide : Word) :
    { (c.commit p tide).net with counters := (c.swapped (c.shrunk p) p).net.counters } = (c.swapped (c.shrunk p) p).net := by
  rw [(c.commit_relinked p tide).1.net]
  exact (c.joining_rest (c.swapped (c.shrunk p) p) p tide).2

/-- The tables of a network's state are those that a commit sets up. -/
def Chip.tablesBy (c : Chip) (p : EpochPlan) (n : Net) : Prop := n.epoch = p.epoch ∧ n.plan = none ∧ n.coord = p.coord ∧
  (∀ q, q ∈ n.live ↔ q ∈ c.net.live.filter (fun q => q ∉ p.lost) ++ p.joined) ∧
  ∀ e, e ∈ n.links ↔ (e ∈ c.net.links ∧ ¬(e ∈ p.removed ∨ e.1 ∈ p.lost ∨ (c.otherEnd e).1 ∈ p.lost)) ∨ e ∈ p.added

theorem Chip.tablesBy_swapped (c b : Chip) (p : EpochPlan) : c.tablesBy p (c.swapped b p).net :=
  ⟨rfl, rfl, rfl, fun _ => List.mem_eraseDups, fun e => by simp [Chip.swapped, List.mem_eraseDups, and_assoc]⟩

theorem Chip.tablesBy_counters {c : Chip} {p : EpochPlan} {m n : Net} (h : { m with counters := n.counters } = n) (hn : c.tablesBy p n) : c.tablesBy p m := by
  rw [← h] at hn
  exact hn

theorem Chip.tablesBy_commit (c : Chip) (p : EpochPlan) (tide : Word) : c.tablesBy p (c.commit p tide).net :=
  Chip.tablesBy_counters (c.commit_net p tide) (c.tablesBy_swapped _ p)

/-- A commit that only grows (R486, R434, R560). -/
theorem Chip.commit_grow {p : EpochPlan} (hgrow : p.grow = true) (c : Chip) (tide : Word) : let d := c.commit p tide
    d.mem = c.mem ∧ d.cores = c.cores ∧ d.req = c.req ∧ d.conf = c.conf ∧
      (c.self ∈ p.joined → c.self ∉ c.net.live → d.tide = tide ∧ d.rst.phase = .joined) ∧
      ∀ m, m < 24 → (d.link m).state =
        if (c.link m).state = .isolated ∧ (c.self, m) ∈ d.net.links ∧ (c.link m).testPass = true then .active
        else if (c.link m).state = .active ∧ (c.self, m) ∉ d.net.links then .isolated
        else (c.link m).state := by
  have hshrunk : c.shrunk p = c := if_pos hgrow
  have hrest := c.commit_rest p tide
  obtain ⟨hlinked, hlink⟩ := c.commit_relinked p tide
  obtain ⟨hb, hbnet⟩ := c.joining_rest (c.swapped (c.shrunk p) p) p tide
  have hjoin := fun hin hout => Chip.joining_joins (c := c) (p := p) hin hout (c.swapped (c.shrunk p) p) tide
  rw [hshrunk] at hrest hlinked hlink hb hbnet hjoin
  generalize (c.joining (c.swapped c p) p tide).netCount 0 1 = b at *
  have hlinks : b.links = c.links := (congrArg Chip.links hb :)
  have hgeom : b.net.geom = c.net.geom := (congrArg Net.geom hbnet :)
  obtain ⟨hmem, hcores, hreq, hconf⟩ := hrest
  refine ⟨hmem, hcores, hreq, hconf, fun hin hout => ?_, fun m hm => ?_⟩
  · obtain ⟨htide, hphase⟩ := hjoin hin hout
    exact ⟨hlinked.tide.trans htide, by rw [hlinked.rst]; exact hphase⟩
  · rw [hlink m hm, Link.movedBy_state, Chip.link, hlinks, Chip.self, hgeom, hlinked.net]
    rfl

/-- A commit that shrinks (R485). -/
theorem Chip.commit_shrink {p : EpochPlan} (hgrow : p.grow = false) (c : Chip) (tide : Word) : let d := c.commit p tide
    d.mem = c.mem ∧ d.conf = { roots := [], merges := [], a2a := [] } ∧ (∀ fc, fc < 64 → ∀ t ∈ (d.core fc).trks, t.pkg = c.self) ∧
      ∀ fc t, fc < 64 → t ∈ (c.core fc).trks → t.pkg ≠ c.self → t.holder ≠ .gone → c.livesOn t.ctx →
        d.endsWith t.ctx (lostTo (c.shrinkPkg p)) := by
  intro d
  have hshrunk : c.shrunk p = (c.endOps (c.shrinkPkg p)).endCollectives (c.shrinkPkg p) := if_neg (by simp [hgrow])
  obtain ⟨hmem, hcores, hreq, hconf⟩ := c.commit_rest p tide
  obtain ⟨gmem, gconf, gown, gends⟩ := c.shrink_spec (c.shrinkPkg p)
  rw [← hshrunk] at gmem gconf gown gends
  refine ⟨hmem.trans gmem, hconf.trans gconf, fun fc hfc t ht => gown fc hfc t ?_, fun fc t hfc ht hne hgone hlive => ?_⟩
  · rw [Chip.core, ← hcores]
    exact ht
  · obtain ⟨y, hy, hended⟩ := gends fc t hfc ht hne hgone hlive
    refine ⟨y, ?_, hended⟩
    rw [Chip.ctx, hreq]
    exact hy

end Sys2Proof.Machine
end

section
/-! SUPPORT. A fabric epoch from its first report to RESUME (R482 to R486, R490, R491). -/

namespace Sys2Proof.Machine

/-- What reports leave alone, as the obligation lists it. -/
theorem Reported.still {c d : Chip} (h : Reported c d) : d.mem = c.mem ∧ d.cores = c.cores ∧ d.links = c.links ∧ d.req = c.req :=
  ⟨h.mem, h.cores, h.links, h.req⟩

/-! FREEZE at a package that takes it (R484). -/

theorem Chip.takeFreeze_taken {c : Chip} {p : EpochPlan} (h : p.epoch = c.net.epoch + 1 ∨ c.self ∉ c.net.live) :
    c.takeFreeze p = c.freezeNow p := if_pos h

theorem Chip.takeFreeze_other {c : Chip} {p : EpochPlan} (hepoch : p.epoch ≠ c.net.epoch + 1) (hlive : c.self ∈ c.net.live) :
    c.takeFreeze p = c := if_neg (not_or.mpr ⟨hepoch, not_not.mpr hlive⟩)

theorem Chip.resume_not {c : Chip} (h : c.net.phase ≠ .drained ∨ c.net.plan ≠ none) : c.resume = c :=
  if_neg fun hk => h.elim (fun hp => hp hk.1) fun hp => hp hk.2

theorem Chip.collectOver_due {c : Chip} (hphase : c.net.phase = .collect) (hcoord : c.coordinates = true) :
    c.collectOver = c.sendFreeze (c.planNow []) := if_pos ⟨hphase, hcoord⟩

theorem Chip.collectOver_not {c : Chip} (h : c.net.phase ≠ .collect ∨ c.coordinates = false) : c.collectOver = c :=
  if_neg fun hk => h.elim (fun hp => hp hk.1) fun hp => by simp [hp] at hk

section
variable {c : Chip} {p : EpochPlan} (hplan : c.net.plan = some p)
include hplan

theorem Chip.takeCommit_announced (tide : Word) : c.takeCommit p.epoch tide = c.commit p tide := by
  unfold Chip.takeCommit
  rw [hplan]
  exact if_pos rfl

theorem Chip.takeCommit_other {e : BitVec 32} (h : e ≠ p.epoch) (tide : Word) : c.takeCommit e tide = c := by
  unfold Chip.takeCommit
  rw [hplan]
  exact if_neg (Ne.symm h)

end

/-- Settles O51: what reports, FREEZE and the drain leave is what `Reported` says; a commit swaps the tables, ends every operation of
another package where it shrinks, and moves the links last. -/
theorem epochChange : Obligations.EpochChange := by
  intro s link r p pkg tide hlink c me n members gone still freezes
  have report {q : Chip → Prop} (h : q (c.takeReport link r)) : Completes s (.epochReport link r) q :=
    .of_runIf (f := fun c => c.takeReport link r) rfl (decide_eq_true hlink) h
  have freeze {q : Chip → Prop} (h : q (c.takeFreeze p)) : Completes s (.epochFreeze p) q := .of_run (f := fun c => c.takeFreeze p) rfl h
  have collect {q : Chip → Prop} (h : q c.collectOver) : Completes s .collectExpiry q := .of_run (f := fun c => c.collectOver) rfl h
  have quiet {q : Chip → Prop} (h : q c.drainQuiet) : Completes s .drainQuiet q := .of_run (f := fun c => c.drainQuiet) rfl h
  have drained {q : Chip → Prop} (h : q (c.noteDrained pkg.toNat)) : Completes s (.epochDrained pkg) q :=
    .of_run (f := fun c => c.noteDrained pkg.toNat) rfl h
  have late {q : Chip → Prop} (h : q (c.freezeOver pkg.toNat)) : Completes s (.freezeLimitExpiry pkg) q :=
    .of_run (f := fun c => c.freezeOver pkg.toNat) rfl h
  have fail {q : Chip → Prop} (h : q c.failover) : Completes s .coordinatorFailover q := .of_run (f := fun c => c.failover) rfl h
  have commit {q : Chip → Prop} {e : BitVec 32} (h : q (c.takeCommit e tide)) : Completes s (.epochCommit e tide) q :=
    .of_run (f := fun c => c.takeCommit e tide) rfl h
  have resume {q : Chip → Prop} (h : q c.resume) : Completes s .epochResume q := .of_run (f := fun c => c.resume) rfl h
  have sent (q : EpochPlan) : freezes q (c.sendFreeze q) := by
    obtain ⟨hplan, hphase, hdrained, hout, hrest⟩ := c.sendFreeze_freezes q
    exact ⟨hplan, hphase, hdrained, hout, hrest.still⟩
  refine ⟨fun h => report (if_pos h), fun hup hnew => report ?_, ?_, fun h => freeze ?_, fun hepoch hlive => freeze (Chip.takeFreeze_other hepoch hlive),
    fun hphase hcoord => collect ?_, fun h => collect (Chip.collectOver_not h), fun hplan => ?_, fun h => resume (Chip.resume_not h), fun hplan => ?_⟩
  · obtain ⟨hin, hseen, hsent, hback, hrest⟩ := Chip.takeReport_spec hup hnew
    exact ⟨hin, hseen, hsent, hback, hrest.still⟩
  · obtain ⟨hin, hphase, hrest⟩ := c.reportRequest_spec me
    exact .of_run (f := fun c => c.reportChange (.request c.self)) rfl ⟨hin, hphase, hrest.still⟩
  · rw [Chip.takeFreeze_taken h]
    exact ⟨rfl, rfl, fun m hm => Chip.send_frozen rfl hm, rfl, rfl, rfl, rfl⟩
  · rw [Chip.collectOver_due hphase hcoord]
    exact sent _
  · obtain ⟨hquiet, hdrained, hlate, hfail, hcommit⟩ := Chip.no_plan hplan pkg.toNat p.epoch tide
    exact ⟨quiet hquiet, drained hdrained, late hlate, fail hfail, commit hcommit, fun hphase => resume (Chip.resume_spec hphase hplan)⟩
  · refine ⟨fun hphase hquiet => quiet ?_, fun hnoisy => quiet (Chip.drainQuiet_noisy hplan hnoisy), fun hcoord hnew => drained ?_,
      fun hcoord => drained (Chip.noteDrained_other hplan hcoord), fun hcoord hmember hlate hnew => late ?_, fun hnext => fail ?_, commit ?_,
      fun e he => commit (Chip.takeCommit_other hplan he tide)⟩
    · obtain ⟨hstate, hout, hrest⟩ := Chip.drainQuiet_spec hplan hphase hquiet
      exact ⟨hstate, hout, hrest.still⟩
    · obtain ⟨hlist, hout⟩ := Chip.noteDrained_coord hplan hcoord hnew
      exact ⟨hlist, (Reported.noteDrained c _).still, hout⟩
    · rw [Chip.freezeOver_spec hplan hcoord hmember hlate hnew]
      refine ⟨sent _, fun q hq => ?_⟩
      obtain rfl := Option.some.inj ((sent _).1.symm.trans hq)
      exact c.mem_planNow_lost (List.mem_append_right _ List.mem_cons_self)
    · rw [Chip.failover_spec hplan hnext]
      exact sent _
    · rw [Chip.takeCommit_announced hplan]
      obtain ⟨hepoch, hnone, hcoord, hlive, hlinks⟩ := c.tablesBy_commit p tide
      refine ⟨hepoch, hnone, hcoord, ?_, hlive, hlinks, fun hgrow => ?_, fun hshrink => ?_⟩
      · cases hkind : p.grow with
        | true => exact (Chip.commit_grow hkind c tide).1
        | false => exact (Chip.commit_shrink hkind c tide).1
      · exact (Chip.commit_grow hgrow c tide).2
      · obtain ⟨-, hconf, hown, hends⟩ := Chip.commit_shrink hshrink c tide
        exact ⟨hconf, hown, fun fc t x hfc ht hne hgone hx hended hdel => hends fc t hfc ht hne hgone ⟨x, hx, hended, hdel⟩⟩

end Sys2Proof.Machine
end
